-- ==== Sys2Proof/Word.lean ====
section
/-! DEFINITION. The plainest types of the model: a byte, a sparse table by key, the two hubs. -/

namespace Sys2Proof

/-- A byte of a packet, a record or a captured section. -/
abbrev Byte := BitVec 8

/-- A sparse table by key: rising keys, no entry equal to what an unlisted key reads as. -/
abbrev Tab (α : Type) := List (Nat × α)

/-- The two hubs (R14, Table 1.1). -/
inductive HubId where
  | a
  | b
deriving DecidableEq, Repr

end Sys2Proof
end

