-- ==== Sys2Proof/Syntax.lean ====
section
/-! DEFINITION. The commands of the block, one constructor per row of the table of operations, with the
operand types they carry. -/

namespace Sys2Proof

/-- A Touchstone cell: its hub and its number 0 to 15 (R139). -/
structure CellId where
  hub  : HubId
  cell : Nat
deriving DecidableEq, Repr

/-- A command packet (R417, Table 17.1) as the host wrote it, less its OPCODE, which the row gives, with the
queue it stands in. `internal` says that the interpreter's internal checks detect a fault while this packet is
interpreted (R422, order 7): an event of the block's own hardware, so it comes from outside the packet. -/
structure Packet where
  /-- Command queue 0 to 7. -/
  queue    : BitVec 3
  /-- Bytes 2-3. -/
  tag      : BitVec 16
  /-- Bytes 4-5. -/
  plen     : BitVec 16
  /-- Byte 6: FORCE, LAST and reserved bits. -/
  flags    : BitVec 8
  /-- Bytes 7-15, reserved. -/
  rsv1     : BitVec 72
  /-- Bytes 16-47: P0 to P31. -/
  param    : BitVec 256
  /-- Bytes 48-59, reserved. -/
  rsv2     : BitVec 96
  /-- Bytes 60-63. -/
  crc      : BitVec 32
  /-- The payload at byte 64. -/
  payload  : List Byte
  /-- A fault seen by the interpreter's internal checks. -/
  internal : Bool
deriving DecidableEq, Repr

/-- What a hub's start finds in its own silicon (R299, Table 12.2): the sampled pins, the known-answer tests of its cells, and whether its
store reads back a committed defect table. -/
structure StartIn where
  /-- sys_profile_sel at the release of sys_rst_n (R66). -/
  profileSel : BitVec 2
  /-- Cells failing the known-answer test of step 4. -/
  katFail    : BitVec 16
  /-- The committed defect table generation loads and checks (R315). -/
  tableOk    : Bool
deriving DecidableEq, Repr

/-- What a warden's start finds (R303, R120, R58): its straps, its generator seeds, the Vein ports that answered. -/
structure WardenIn where
  linkBase  : Nat
  linkCount : Nat
  seeds     : List (BitVec 64)
  portsOk   : BitVec 4
deriving DecidableEq, Repr

/-- A Vein flit (R27, R28). Its 144 bits are `data` (128) and the 16 of class, virtual channel and ECC: `cls` in 3, `vc` in 1,
`ecc` in 12 (DESIGN CHOICE, log entry 125). `dst`, `len`, `head` and `src` (destination node, packet length in flits, first flit,
source partition of a trace packet) are header fields within `data`, whose layout the manual does not give. -/
structure Flit where
  cls  : Nat
  dst  : Nat
  vc   : Nat
  ecc  : BitVec 12 := 0
  len  : Nat
  head : Bool
  src  : Nat
  data : BitVec 128
deriving DecidableEq, Repr

/-- The commands and events of the block: one constructor per row of the table of operations, in its order. -/
inductive Instr where
  /-- HUB_NOP (R430). -/
  | hubNop (pk : Packet)
  /-- HUB_QBIND (R420). -/
  | hubQbind (pk : Packet)
  /-- HUB_STATUS (R430). -/
  | hubStatus (pk : Packet)
  /-- HUB_PROFILE (R318). -/
  | hubProfile (pk : Packet)
  /-- HUB_DEBUG (R363). -/
  | hubDebug (pk : Packet)
  /-- HUB_COUNTERS (R373). -/
  | hubCounters (pk : Packet)
  /-- SCREEN_REPORT (R92). -/
  | screenReport (pk : Packet)
  /-- SHADOW_SET (R87). -/
  | shadowSet (pk : Packet)
  /-- SHADOW_GET (R431). -/
  | shadowGet (pk : Packet)
  /-- TSTONE_DESC (R146). -/
  | tstoneDesc (pk : Packet)
  /-- TSTONE_SHARE (R155). -/
  | tstoneShare (pk : Packet)
  /-- TSTONE_REPORT (R162). -/
  | tstoneReport (pk : Packet)
  /-- TSTONE_KLOAD (R175). -/
  | tstoneKload (pk : Packet)
  /-- TSTONE_KUNLOAD (R182). -/
  | tstoneKunload (pk : Packet)
  /-- TSTONE_KATTACH (R177). -/
  | tstoneKattach (pk : Packet)
  /-- TSTONE_KDETACH (R182). -/
  | tstoneKdetach (pk : Packet)
  /-- TSTONE_KRESULT (R183). -/
  | tstoneKresult (pk : Packet)
  /-- TEST_SET (R191). -/
  | testSet (pk : Packet)
  /-- TEST_RUN (R195). -/
  | testRun (pk : Packet)
  /-- TEST_STATUS (R433). -/
  | testStatus (pk : Packet)
  /-- TEST_YIELD (R198). -/
  | testYield (pk : Packet)
  /-- QUARRY_IMPORT (R209). -/
  | quarryImport (pk : Packet)
  /-- QUARRY_EXPORT (R208). -/
  | quarryExport (pk : Packet)
  /-- QUARRY_LIST (R433). -/
  | quarryList (pk : Packet)
  /-- QUARRY_RETIRE (R211). -/
  | quarryRetire (pk : Packet)
  /-- QUAR_LIST (R434). -/
  | quarList (pk : Packet)
  /-- QUAR_STATE (R235). -/
  | quarState (pk : Packet)
  /-- QUAR_SET (R224). -/
  | quarSet (pk : Packet)
  /-- QUAR_RESTORE (R223). -/
  | quarRestore (pk : Packet)
  /-- SYNC_ALLOC (R240). -/
  | syncAlloc (pk : Packet)
  /-- SYNC_ARM (R241). -/
  | syncArm (pk : Packet)
  /-- SYNC_FREE (R241). -/
  | syncFree (pk : Packet)
  /-- SYNC_SIGNAL (R252). -/
  | syncSignal (pk : Packet)
  /-- SYNC_TAKE (R240). -/
  | syncTake (pk : Packet)
  /-- SYNC_QUERY (R237). -/
  | syncQuery (pk : Packet)
  /-- SYNC_JOBEND (R244). -/
  | syncJobend (pk : Packet)
  /-- FENCE_RESET (R273). -/
  | fenceReset (pk : Packet)
  /-- FENCE_DETOUR (R281). -/
  | fenceDetour (pk : Packet)
  /-- FENCE_STATUS (R436). -/
  | fenceStatus (pk : Packet)
  /-- FENCE_RESTORE (R289). -/
  | fenceRestore (pk : Packet)
  /-- BOOT_COREFW (R309). -/
  | bootCorefw (pk : Packet)
  /-- BOOT_CHECK (R310). -/
  | bootCheck (pk : Packet)
  /-- BOOT_STATUS (R437). -/
  | bootStatus (pk : Packet)
  /-- BOOT_FWLOAD (R322). -/
  | bootFwload (pk : Packet)
  /-- KEY_ID (R342). -/
  | keyId (pk : Packet)
  /-- KEY_ATTEST (R342). -/
  | keyAttest (pk : Packet)
  /-- KEY_ASSIGN (R349). -/
  | keyAssign (pk : Packet)
  /-- KEY_ROTATE (R349). -/
  | keyRotate (pk : Packet)
  /-- KEY_UNWRAP (R355). -/
  | keyUnwrap (pk : Packet)
  /-- KEY_BIND (R357). -/
  | keyBind (pk : Packet)
  /-- KEY_UNBIND (R349). -/
  | keyUnbind (pk : Packet)
  /-- KEY_SLOTFREE (R357). -/
  | keySlotfree (pk : Packet)
  /-- KEY_TROOT (R361). -/
  | keyTroot (pk : Packet)
  /-- KEY_VARIANT (R362). -/
  | keyVariant (pk : Packet)
  /-- KEY_STATUS (R438). -/
  | keyStatus (pk : Packet)
  /-- SCRUB_TENANT (R358). -/
  | scrubTenant (pk : Packet)
  /-- SCRUB_STATUS (R438). -/
  | scrubStatus (pk : Packet)
  /-- TRACE_SET (R380). -/
  | traceSet (pk : Packet)
  /-- TRACE_ARM (R380). -/
  | traceArm (pk : Packet)
  /-- TRACE_TRIGGER (R381). -/
  | traceTrigger (pk : Packet)
  /-- TRACE_STATUS (R439). -/
  | traceStatus (pk : Packet)
  /-- STOP_ISSUE (R385). -/
  | stopIssue (pk : Packet)
  /-- STOP_ARM (R385). -/
  | stopArm (pk : Packet)
  /-- STOP_RESUME (R391). -/
  | stopResume (pk : Packet)
  /-- STOP_STATUS (R439). -/
  | stopStatus (pk : Packet)
  /-- STRATA_STATUS (R410). -/
  | strataStatus (pk : Packet)
  /-- STRATA_READ (R406). -/
  | strataRead (pk : Packet)
  /-- STRATA_FREEZE (R408). -/
  | strataFreeze (pk : Packet)
  /-- STRATA_UNFREEZE (R409). -/
  | strataUnfreeze (pk : Packet)
  /-- STRATA_TIMEPAIR (R399). -/
  | strataTimepair (pk : Packet)
  /-- STRATA_CODES (R470). -/
  | strataCodes (pk : Packet)
  /-- POWER_STATUS (R336). -/
  | powerStatus (pk : Packet)
  /-- POWER_MASK (R325). -/
  | powerMask (pk : Packet)
  /-- POWER_BANK (R278). -/
  | powerBank (pk : Packet)
  /-- LINK_TRAIN (R440). -/
  | linkTrain (pk : Packet)
  /-- LINK_STATUS (R440). -/
  | linkStatus (pk : Packet)
  /-- DOORBELL (R447). -/
  | doorbell (h : HubId) (q : BitVec 3) (v : BitVec 64) (strb : BitVec 8)
  /-- SQ_HEAD (R447). -/
  | sqHead (h : HubId) (q : BitVec 3) (v : BitVec 64) (strb : BitVec 8)
  /-- QUEUE_MEMORY_WRITE (R449). -/
  | queueMemoryWrite (h : HubId) (q : BitVec 3) (slot : BitVec 4) (word : Nat) (v : BitVec 64) (strb : BitVec 8)
  /-- IRQ_STAT (R450). -/
  | irqStat (h : HubId) (v : BitVec 64) (strb : BitVec 8)
  /-- IRQ_TEST (R450). -/
  | irqTest (h : HubId) (v : BitVec 64) (strb : BitVec 8)
  /-- IRQ_CFG (R450). -/
  | irqCfg (h : HubId) (v : BitVec 64) (strb : BitVec 8)
  /-- SNT_SEL (R452). -/
  | sntSel (h : HubId) (v : BitVec 64) (strb : BitVec 8)
  /-- STR_AREA (R454). -/
  | strArea (h : HubId) (v : BitVec 64) (strb : BitVec 8)
  /-- STR_POS (R454). -/
  | strPos (h : HubId) (v : BitVec 64) (strb : BitVec 8)
  /-- STRATA_WINDOW_SNAPSHOT (R454). -/
  | strataWindowSnapshot (h : HubId) (slot : BitVec 6)
  /-- HUB_PORTERR (R446). -/
  | hubPorterr (h : HubId)
  /-- TRC_LOSS (R442). -/
  | trcLoss (h : HubId)
  /-- REGISTER_WRITE (R443). -/
  | registerWrite (h : HubId) (addr : BitVec 20) (v : BitVec 64) (strb : BitVec 8)
  /-- CMD_PORT_RESET (R444). -/
  | cmdPortReset (h : HubId)
  /-- STATUS_QUEUE_FULL (R415). -/
  | statusQueueFull (q : BitVec 3)
  /-- WAFER_RESET (R65). -/
  | waferReset
  /-- HUB_START (R299). -/
  | hubStart (h : HubId) (inp : StartIn)
  /-- WARDEN_START (R303). -/
  | wardenStart (p : Nat) (inp : WardenIn)
  /-- REFCLK_LOST (R67). -/
  | refclkLost (h : HubId)
  /-- REFCLK_BACK (R67). -/
  | refclkBack (h : HubId) (outageNs : Nat)
  /-- POWER_FAIL_WARN (R329). -/
  | powerFailWarn (h : HubId)
  /-- POWER_FLUSH_DONE (R330). -/
  | powerFlushDone (h : HubId)
  /-- POWER_RIDE_THROUGH (R331). -/
  | powerRideThrough (h : HubId)
  /-- HUB_RAIL_LOW (R333). -/
  | hubRailLow (h : HubId) (reading : BitVec 32)
  /-- HUB_RAIL_OK (R333). -/
  | hubRailOk (h : HubId) (belowNs : Nat)
  /-- HUB_RAIL_COLLAPSE (R334). -/
  | hubRailCollapse (h : HubId)
  /-- WARDEN_SUPPLY_LOSS (R335). -/
  | wardenSupplyLoss (p : Nat)
  /-- DROOP_WINDOW_OPEN (R324). -/
  | droopWindowOpen (p : Nat) (droop : BitVec 8) (margin : BitVec 32)
  /-- DROOP_WINDOW (R324). -/
  | droopWindow (p : Nat)
  /-- MARKING_END (R326). -/
  | markingEnd (p : Nat)
  /-- POWER_SENSOR_STUCK (R325). -/
  | powerSensorStuck (p bit : Nat)
  /-- STRETCH_NO_ACK (R327). -/
  | stretchNoAck (p : Nat)
  /-- DROOP_HOLD_EXPIRY (R328). -/
  | droopHoldExpiry (p : Nat)
  /-- LEASE_RENEWAL (R21). -/
  | leaseRenewal (h : HubId) (p : Nat)
  /-- LEASE_LAPSE (R21). -/
  | leaseLapse (p : Nat)
  /-- PRIMARY_LEASE_EXPIRY (R22). -/
  | primaryLeaseExpiry (h : HubId) (p : Nat)
  /-- PRIMACY_CLAIM (R22). -/
  | primacyClaim (h : HubId) (p : Nat)
  /-- CLAIM_TICK (R293). -/
  | claimTick (h : HubId)
  /-- CLAIM_QUORUM (R265). -/
  | claimQuorum (h : HubId)
  /-- CLAIM_WITHDRAWN (R293). -/
  | claimWithdrawn (h : HubId)
  /-- CLAIM_RETRY (R293). -/
  | claimRetry (h : HubId)
  /-- PEER_PROBE (R293). -/
  | peerProbe (h : HubId)
  /-- HUB_FAILOVER (R293). -/
  | hubFailover (h : HubId) (cause : Nat)
  /-- PEER_SECONDARY (R21). -/
  | peerSecondary (h : HubId)
  /-- MIRROR_WRITE (R19). -/
  | mirrorWrite (h : HubId)
  /-- LOCKSTEP_MASKED (R291). -/
  | lockstepMasked (h : HubId) (core : Nat)
  /-- VEIN_FLIT (R29). -/
  | veinFlit (node port : Nat) (flit : Flit)
  /-- VEIN_FLIT_REFUSED (R292). -/
  | veinFlitRefused (node port : Nat) (flit : Flit)
  /-- WARDEN_HOLD_EXPIRED (R295). -/
  | wardenHoldExpired (p : Nat)
  /-- WARDEN_FAILED (R296). -/
  | wardenFailed (p cause : Nat)
  /-- HBEAT_TICK (R290). -/
  | hbeatTick
  /-- SENTRY_LOOKUP (R46). -/
  | sentryLookup (p ch : Nat) (site : BitVec 32)
  /-- SENTRY_ENTRY_UPDATE (R227). -/
  | sentryEntryUpdate (p : Nat) (site : BitVec 32)
  /-- SENTRY_BATCH (R227). -/
  | sentryBatch (p : Nat)
  /-- SENTRY_SWITCH_ACK (R228). -/
  | sentrySwitchAck (p : Nat)
  /-- CERTIFICATE (R106). -/
  | certificate (p g : Nat) (src : BitVec 15) (epoch : BitVec 32) (cert : BitVec 128)
  /-- SHADOW_CERTIFICATE (R127). -/
  | shadowCertificate (p g : Nat) (src : BitVec 15) (epoch : BitVec 32) (cert : BitVec 128)
  /-- SHADOW_TIMEOUT (R129). -/
  | shadowTimeout (p : Nat) (dst : BitVec 15) (tid epoch : BitVec 32)
  /-- CERTIFICATE_LOSS (R53). -/
  | certificateLoss (p g : Nat) (epoch : BitVec 32)
  /-- ENGINE_RECORD (R113). -/
  | engineRecord (p : Nat) (idx : BitVec 7) (epoch : BitVec 32) (rec : BitVec 128) (rows : Nat)
  /-- POISON_NOTICE (R117). -/
  | poisonNotice (p : Nat) (src : BitVec 15) (epoch : BitVec 32)
  /-- YIELD_NOTICE (R193). -/
  | yieldNotice (p : Nat) (src : BitVec 15)
  /-- SWAP_ACK (R193). -/
  | swapAck (p : Nat)
  /-- SWAP_FAIL (R193). -/
  | swapFail (p : Nat)
  /-- ROTATION_TIMER (R194). -/
  | rotationTimer (p cluster : Nat)
  /-- SPARE_TEST_DUE (R194). -/
  | spareTestDue (p cluster : Nat)
  /-- OFFER_PASS (R195). -/
  | offerPass (p cluster : Nat)
  /-- YIELD_LATE (R198). -/
  | yieldLate (p cluster : Nat)
  /-- TEST_DEBT (R197). -/
  | testDebt (p : Nat) (src : BitVec 15)
  /-- DIRECTED_PHASE_START (R189). -/
  | directedPhaseStart (p : Nat)
  /-- TEST_SLICE_SIGNATURE (R187). -/
  | testSliceSignature (p : Nat) (src : BitVec 15) (sig : BitVec 64)
  /-- TEST_SLICE_TIMEOUT (R187). -/
  | testSliceTimeout (p : Nat) (src : BitVec 15)
  /-- PATTERN_RUN (R194). -/
  | patternRun (p cluster : Nat) (origin : BitVec 64) (seq : BitVec 32)
  /-- CAPTURE_ALLOC (R153). -/
  | captureAlloc (p ticket : Nat)
  /-- CAPTURE_STREAM (R468). -/
  | captureStream (p : Nat) (cid : BitVec 32) (preamble : BitVec 256) (body : List Byte)
  /-- QUANTUM_END (R155). -/
  | quantumEnd (h : HubId) (cell : Nat)
  /-- SAMPLE_DONE (R155). -/
  | sampleDone (h : HubId) (cell : Nat)
  /-- TSTONE_CELL_CHECK (R144). -/
  | tstoneCellCheck (h : HubId) (cell lane : Nat)
  /-- KNOWN_ANSWER_TEST_DONE (R144). -/
  | knownAnswerTestDone (h : HubId) (cell : Nat) (pass : Bool)
  /-- ARBITRATION_LIMIT (R156). -/
  | arbitrationLimit (p : Nat) (tid epoch : BitVec 32)
  /-- TOUCHSTONE_VERDICT (R158). -/
  | touchstoneVerdict (p : Nat) (cid : BitVec 32)
  /-- KERNEL_LATE (R171). -/
  | kernelLate (cid : BitVec 32)
  /-- NOP (R167). -/
  | nop (k : CellId)
  /-- HALT (R170). -/
  | halt (k : CellId)
  /-- JMP (R167). -/
  | jmp (k : CellId) (imm : BitVec 32)
  /-- BNZ (R167). -/
  | bnz (k : CellId) (a : BitVec 4) (imm : BitVec 32)
  /-- BLT (R167). -/
  | blt (k : CellId) (a b : BitVec 4) (imm : BitVec 32)
  /-- DJNZ (R167). -/
  | djnz (k : CellId) (d : BitVec 4) (imm : BitVec 32)
  /-- LI (R167). -/
  | li (k : CellId) (d : BitVec 4) (imm : BitVec 32)
  /-- ADD (R167). -/
  | add (k : CellId) (d a b : BitVec 4)
  /-- ADDI (R167). -/
  | addi (k : CellId) (d a : BitVec 4) (imm : BitVec 32)
  /-- MUL (R167). -/
  | mul (k : CellId) (d a b : BitVec 4)
  /-- LDX (R167). -/
  | ldx (k : CellId) (d a ty : BitVec 4) (imm : BitVec 32)
  /-- LCLR (R167). -/
  | lclr (k : CellId)
  /-- LSUM (R168). -/
  | lsum (k : CellId) (a b ty : BitVec 4)
  /-- LASUM (R168). -/
  | lasum (k : CellId) (a b ty : BitVec 4)
  /-- LSQSUM (R168). -/
  | lsqsum (k : CellId) (a b ty : BitVec 4)
  /-- LDOT (R168). -/
  | ldot (k : CellId) (a b c ty : BitVec 4)
  /-- MERGE (R167). -/
  | merge (k : CellId) (d : BitVec 4)
  /-- LSCAN (R167). -/
  | lscan (k : CellId) (d a b c ty : BitVec 4) (imm : BitVec 32)
  /-- MLI (R167). -/
  | mli (k : CellId) (d : BitVec 4) (imm : BitVec 32)
  /-- MADD (R167). -/
  | madd (k : CellId) (d a b : BitVec 4)
  /-- MSUB (R167). -/
  | msub (k : CellId) (d a b : BitVec 4)
  /-- MABS (R167). -/
  | mabs (k : CellId) (d a : BitVec 4)
  /-- MTOV (R167). -/
  | mtov (k : CellId) (d a : BitVec 4) (rnd : BitVec 2)
  /-- VLI (R167). -/
  | vli (k : CellId) (d : BitVec 4) (imm : BitVec 32)
  /-- VLD (R167). -/
  | vld (k : CellId) (d a ty : BitVec 4) (imm : BitVec 32)
  /-- VADD (R164). -/
  | vadd (k : CellId) (d a b : BitVec 4) (rnd : BitVec 2)
  /-- VSUB (R164). -/
  | vsub (k : CellId) (d a b : BitVec 4) (rnd : BitVec 2)
  /-- VMUL (R164). -/
  | vmul (k : CellId) (d a b : BitVec 4) (rnd : BitVec 2)
  /-- VFX (R167). -/
  | vfx (k : CellId) (d a : BitVec 4)
  /-- VFN (R164). -/
  | vfn (k : CellId) (d a : BitVec 4) (imm : BitVec 32)
  /-- VGAM (R167). -/
  | vgam (k : CellId) (d a : BitVec 4)
  /-- CKLE (R169). -/
  | ckle (k : CellId) (a b c : BitVec 4) (imm : BitVec 32)
  /-- FIND (R169). -/
  | find (k : CellId) (c : BitVec 4) (imm : BitVec 32)
  /-- BARRIER_ARRIVAL (R246). -/
  | barrierArrival (p : Nat) (src : BitVec 15) (obj : BitVec 15) (epoch : BitVec 32)
  /-- PRIMARY_ARRIVAL (R248). -/
  | primaryArrival (p : Nat) (obj : BitVec 15) (epoch : BitVec 32)
  /-- CLOSE_QUERY (R247). -/
  | closeQuery (p : Nat) (obj : BitVec 15) (epoch : BitVec 32)
  /-- EPOCH_CLEAN (R248). -/
  | epochClean (p : Nat) (epoch : BitVec 32)
  /-- FAILURE_REPORT (R250). -/
  | failureReport (p : Nat) (epoch : BitVec 32)
  /-- RELEASE_ACK (R34). -/
  | releaseAck (rsn : Nat)
  /-- RELEASE (R264). -/
  | release (p : Nat) (obj : BitVec 15)
  /-- TALLY_CLOSE (R249). -/
  | tallyClose (p : Nat) (epoch : BitVec 32)
  /-- POST_ACK (R251). -/
  | postAck (p num : Nat)
  /-- TRIAGE_RESULT (R255). -/
  | triageResult (p : Nat) (tid epoch : BitVec 32)
  /-- CLEAR_ORDER (R255). -/
  | clearOrder (p : Nat) (epoch : BitVec 32)
  /-- REPLAY_ORDER (R256). -/
  | replayOrder (p : Nat) (obj : BitVec 15)
  /-- GOVERNOR_UPDATE (R89). -/
  | governorUpdate (deltaNs : Nat)
  /-- FRACTION_UPDATE (R121). -/
  | fractionUpdate (p cluster : Nat)
  /-- DEFECT_COMMIT (R216). -/
  | defectCommit
  /-- RESET_ACK (R270). -/
  | resetAck (p : Nat) (site : BitVec 15)
  /-- FENCE_QUIESCE_END (R277). -/
  | fenceQuiesceEnd (p : Nat)
  /-- MEMORY_FENCE_ACK (R277). -/
  | memoryFenceAck (p m : Nat)
  /-- FENCE_ACK_TIMEOUT (R277). -/
  | fenceAckTimeout (p m : Nat)
  /-- MEMORY_DRAINED (R277). -/
  | memoryDrained (p m : Nat)
  /-- DRAIN_TIMEOUT (R277). -/
  | drainTimeout (p m : Nat)
  /-- DRAIN_STUCK (R277). -/
  | drainStuck (p m : Nat)
  /-- DETOUR_TIMEOUT (R281). -/
  | detourTimeout (p : Nat)
  /-- TRANSIT_EMPTY_WAIT (R281). -/
  | transitEmptyWait (p : Nat)
  /-- RECOVERY_FAIL (R285). -/
  | recoveryFail (p : Nat)
  /-- BANK_QUIESCE_END (R278). -/
  | bankQuiesceEnd (p bank : Nat)
  /-- BANK_IDLE (R278). -/
  | bankIdle (p bank : Nat)
  /-- BANK_OFF_WAIT (R278). -/
  | bankOffWait (p bank : Nat)
  /-- MEMORY_POISON (R222). -/
  | memoryPoison (p m : Nat) (page : BitVec 28) (bank : Nat)
  /-- KEY_LOAD_ACK (R56). -/
  | keyLoadAck (p m : Nat)
  /-- SCRUB_ORDER_DONE (R350). -/
  | scrubOrderDone (p m : Nat) (errBank : Option Nat)
  /-- LINK_TRAIN_DONE (R307). -/
  | linkTrainDone (j : Nat) (width : BitVec 2) (lanes : BitVec 8)
  /-- LINK_TRAIN_TIMEOUT (R307). -/
  | linkTrainTimeout (j : Nat)
  /-- LINK_DOWN (R222). -/
  | linkDown (j : Nat)
  /-- LINK_ERROR_RECORD (R222). -/
  | linkErrorRecord (j : Nat) (kind lane : BitVec 3) (cnt : BitVec 16)
  /-- SELF_TEST_DONE (R283). -/
  | selfTestDone (p : Nat) (failEngines failControl : List Nat)
  /-- COREFW_REQUEST (R310). -/
  | corefwRequest
  /-- COREFW_DIGEST (R310). -/
  | corefwDigest (p : Nat) (digest : BitVec 384)
  /-- COREFW_FAIL (R310). -/
  | corefwFail (p : Nat)
  /-- PARTITION_JOIN (R312). -/
  | partitionJoin (p : Nat)
  /-- PROBATION_END (R313). -/
  | probationEnd (p : Nat)
  /-- CAIRN_ARRIVAL (R386). -/
  | cairnArrival (node : Nat) (edges : Nat)
  /-- CAIRN_HALT_REPORT (R388). -/
  | cairnHaltReport (p : Nat)
  /-- CAIRN_CUT_TIMEOUT (R388). -/
  | cairnCutTimeout
  /-- SCANOUT_PULL (R390). -/
  | scanoutPull (h : HubId) (recs : List (List Byte))
  /-- CAIRN_RESUME_ORDER (R391). -/
  | cairnResumeOrder (p : Nat)
  /-- COUNTER_TAP (R371). -/
  | counterTap (p g : Nat) (rec : BitVec 64)
  /-- PC_SAMPLE_PULSE (R374). -/
  | pcSamplePulse (p : Nat)
  /-- PC_SAMPLE (R374). -/
  | pcSample (p g : Nat) (rec : BitVec 64)
  /-- PC_SAMPLE_TIMEOUT (R374). -/
  | pcSampleTimeout (p g : Nat)
  /-- CONTROL_CORE_TRACE (R375). -/
  | controlCoreTrace (p core : Nat) (rec : BitVec 64)
  /-- TRACE_RECORD (R380). -/
  | traceRecord (h : HubId) (p : Nat)
  /-- TRACE_DRAINED (R380). -/
  | traceDrained (h : HubId)
  /-- TRACE_TIMEPAIR (R379). -/
  | traceTimepair (h : HubId)
  /-- VEIN_DROP_REPORT (R377). -/
  | veinDropReport (node : Nat)
  /-- EVENT_RECORD (R400). -/
  | eventRecord (p num : Nat)
  /-- STRATA_WARDEN_GAP (R400). -/
  | strataWardenGap (p : Nat)
  /-- STRATA_FREEZE_LIMIT (R409). -/
  | strataFreezeLimit
  /-- STRATA_TIME_COMPARE (R397). -/
  | strataTimeCompare
  /-- BANK_POWER_ON (R336). -/
  | bankPowerOn (p bank : Nat)
  /-- STRETCH_ACK_CHANGE (R327). -/
  | stretchAckChange (p : Nat) (level : Bool)
  /-- DROOP_INPUT_CLEAR (R324). -/
  | droopInputClear (p : Nat)
  /-- POWER_FAIL_WARN_RELEASE (R331). -/
  | powerFailWarnRelease (h : HubId)
  /-- PEER_HB_TOGGLE (R68). -/
  | peerHbToggle (h : HubId)
  /-- SNT_CLK_RESTART (R49). -/
  | sntClkRestart (p : Nat)
  /-- WARDEN_INTERIOR_STOP (R69). -/
  | wardenInteriorStop (p : Nat)
  /-- CAPTURE_COMPLETE (R154). -/
  | captureComplete (cid : BitVec 32)
  /-- CAPTURE_GRANT (R153). -/
  | captureGrant (p : Nat) (cid : BitVec 32)
  /-- TRACE_FRAME_SENT (R383). -/
  | traceFrameSent (h : HubId) (lane : Nat)
  /-- EVENT_ACK (R400). -/
  | eventAck (p num : Nat)
  /-- MIRROR_ACK (R19). -/
  | mirrorAck (h : HubId)
  /-- DEBUG_SESSION_IDLE (R363). -/
  | debugSessionIdle
  /-- FAILURE_REPORT_ACK (R110). -/
  | failureReportAck (p : Nat) (epoch : BitVec 32)
  /-- TRACE_LOSS_RECORD_TICK (R378). -/
  | traceLossRecordTick (point : Nat)
deriving DecidableEq, Repr

end Sys2Proof
end

