-- ==== Sys2Proof/Decode.lean ====
section
/-! DEFINITION. What a word spells by the bits of the table of operations. The table gives no row any bits: a command
is a packet in queue memory, a register write, or an event, and none is spelt by a word. -/

namespace Sys2Proof

/-- The command a word spells by the table's bits: none, since no row gives bits. -/
def decodeTableWord (nbits w : Nat) : Option Instr :=
  match nbits, w with
  | _, _ => none

end Sys2Proof
end

