-- ==== Sys2Proof/Config.lean ====
section
/-! DEFINITION. What the spec leaves open or takes from another standard without giving its value:
constants with no body. No proof can see a value of any of them. -/

namespace Sys2Proof

/-- ECDSA P-384 over the SHA-384 digest of `body`: does `sig` (r then s) verify under the first
certificate of `cert` (R172, R208, R232, R300)? The algorithm is not the manual's; log entry 5. -/
opaque Config.sigVerifies : (body cert sig : List Byte) → Bool

/-- Does the certificate chain `cert` lead to the manufacturer root (R209, R233, R300)? Log entry 5. -/
opaque Config.chainOk : (cert : List Byte) → Bool

/-- Is the signer certificate `cert` signed directly by the root public key `root` (R361)? Log entry 5. -/
opaque Config.signedBy : (cert root : List Byte) → Bool

/-- SHA-384 of a byte string, 48 bytes as one number (R100 names it for digests). Log entry 5. -/
opaque Config.sha384 : List Byte → BitVec 384

/-- The public key that the first certificate of a chain certifies (R202, R340). Log entry 5. -/
opaque Config.certKey : (cert : List Byte) → List Byte

/-- The ECDSA P-384 signature of a private scalar over a digest (R208, R342): 96 bytes, r then s. Log entry 5. -/
opaque Config.ecdsa : (scalar : Nat) → BitVec 384 → List Byte

/-- HKDF-SHA-384 of a salt, input keying material and info string, `n` bytes long (R338, R346, R352, R354). Log entry 5. -/
opaque Config.hkdf : (salt ikm info : List Byte) → (n : Nat) → List Byte

/-- AES-256-GCM decryption under a key, nonce and additional authenticated data: the plaintext, or none where the tag fails (R343, R354).
Log entry 5. -/
opaque Config.gcmOpen : (key nonce aad text tag : List Byte) → Option (List Byte)

/-- The 48-byte x-coordinate of ECDH between a private scalar and a public key of P-384, and whether a public key is a point of the curve
(R354, R355). Log entry 5. -/
opaque Config.ecdhX : (scalar : Nat) → (point : List Byte) → List Byte

@[inherit_doc Config.ecdhX]
opaque Config.onP384 : (point : List Byte) → Bool

/-- The response of a hub's unclonable function, which is the silicon's own, and what its correction with helper data gives: the 48-byte
seed (R338). Log entry 5. -/
opaque Config.pufResponse : (hubB : Bool) → List Byte

@[inherit_doc Config.pufResponse]
opaque Config.pufCorrect : (response helper : List Byte) → List Byte

/-- The P-384 public key of a private scalar, in the form whose digest gives its key ID (R202, R339). Log entry 5. -/
opaque Config.p384Public : (scalar : Nat) → List Byte

/-- The PUF helper data in a hub's identity region (Table 1.5). Log entry 5. -/
opaque Config.pufHelper : (hubB : Bool) → List Byte

/-- The ECC of a flit over its class, virtual channel and data (R27, R292): the manual gives no code. Log entry 125. -/
opaque Config.flitEcc : (cls vc : Nat) → BitVec 128 → BitVec 12

/-- The identity certificate chain of a hub, as made (R340). Log entry 5. -/
opaque Config.hubChain : (hubB : Bool) → List Byte

/-- The wrapped root-key record of a hub, as made (Table 1.5, R343): 100 bytes. Log entry 5. -/
opaque Config.rootRecord : (hubB : Bool) → List Byte

/-- The X.509 v3 certificate that a private scalar signs for a public key, valid from a date to a date, as yyyymmdd (R341). Log entry 5. -/
opaque Config.issueCert : (issuer : Nat) → (subject : List Byte) → (from_ to_ : Nat) → List Byte

/-- Manifest and image of a management firmware slot as made (R300). Log entry 130. -/
opaque Config.factoryImage : (slot : Nat) → List Byte

/-- The expected signature of a logic, memory or re-initialise slice as made, by its code (R187, R201). Log entry 22. -/
opaque Config.sliceSig : (code : Nat) → BitVec 64

/-- The image of a factory pattern, by its place in the index (R201, R203). Log entry 22. -/
opaque Config.factoryPattern : (place : Nat) → List Byte

/-- CERT and SIG of a profile blob as made (Table 12.7). Log entry 5. -/
opaque Config.profileCert : (id : Nat) → List Byte

@[inherit_doc Config.profileCert]
opaque Config.profileSig : (id : Nat) → List Byte

/-- Output and next state of a group's pseudorandom generator, "of the xorshift-multiply kind" (R120):
the manual gives no constants. Log entry 6. -/
opaque Config.prngNext : BitVec 64 → BitVec 64 × BitVec 64

/-- The free value that the `n`th reading of an open value takes (log entry 4). -/
opaque Config.freeValue : Nat → BitVec 64

/-- The free value of a 640-bit result that is not representable (Table 7.3; log entry 4). -/
opaque Config.freeWide : Nat → BitVec 640

/-- The governor's candidate for a square root in R81, for a rational argument (log entry 7). -/
opaque Config.sqrtRat : Rat → Rat

/-- The governor's candidate for 2 ^ (-Δ / 168 h) in R82, for Δ in ns (log entry 7). -/
opaque Config.decay : Nat → Rat

/-- The function unit's candidate for the exponential of an extended value (R164; log entry 8). -/
opaque Config.vExp : BitVec 80 → BitVec 80

/-- The function unit's candidate for a reciprocal (R164; log entry 8). -/
opaque Config.vRecip : BitVec 80 → BitVec 80

/-- The function unit's candidate for a square root (R164; log entry 8). -/
opaque Config.vSqrt : BitVec 80 → BitVec 80

/-- The reference of an element of kinds 1 to 4, as the function unit gives it (R149; log entry 9): an extended value, from the
descriptor's kind and EPS, the row's inputs as Gemer used them, in extended form, and the element's index. -/
opaque Config.fnRef : (kind : Nat) → (eps : BitVec 32) → (row : List (BitVec 80)) → (idx : Nat) → BitVec 80

/-- The shift β of an NRM row element, of the same row (R149; log entry 9). -/
opaque Config.nrmBeta : (row : List (BitVec 80)) → (idx : Nat) → Rat

/-- Gemer's engine-ring map: the kind of the engine at an index of a partition's ring, if any names one
(R11, Table 0.6: the management firmware holds it, the manual does not give it; log entry 10). -/
opaque Config.ringKind : (part idx : Nat) → Option Nat

/-- Gemer's core map: the functional unit of a logic slice, pattern or element, or none (R190, R207; log entry 10). -/
opaque Config.coreMapUnit : Nat → Option Nat

/-- Are the elements of a block-scaled operand E5M2 (else E4M3)? The capture does not say (R142; log entry 18). -/
opaque Config.mxIsE5m2 : (ndi : Nat) → Bool

/-- Blocks B of a sparse operand of a shape, and the dense bytes of its compressed section: the block shape is Gemer's
and stands in no field of the capture (R114, R151; log entry 18). -/
opaque Config.sparseBlocks : (rows cols : Nat) → Nat

/-- The dense bytes of a compressed section (log entry 18). -/
opaque Config.sparseDense : (section_ : List Byte) → (elems : Nat) → List Byte

/-- The 64 further elements drawn at random of R158: the `n`th draw below a bound (log entry 4). -/
opaque Config.judgePick : (cid n bound : Nat) → Nat

/-- The firmware location code that EV_CMD_INTERNAL carries, which the manual does not number (R441; log entry 4). -/
opaque Config.fwLocation : Nat → BitVec 32

end Sys2Proof
end

