-- ==== Sys2Proof/Machine/State.lean ====
section
/-! DEFINITION. The state of Alaer W98 as plain data. The default of every field is its value at reset, so that
`State.reset` is the state with every default. Tables list only what differs from their default. -/

namespace Sys2Proof.Machine
open Sys2Proof

/-- The block never stops with a fault: an event whose condition does not hold changes nothing (log entry 3).
The one constructor names what no row of the model raises; it is here because the interface asks for a type (safe). -/
inductive Fault where
  /-- Raised by nobody; safe. -/
  | neverRaised
deriving DecidableEq, Repr

/-- Why a command has no meaning in the model. -/
inductive Refusal where
  /-- Raised by an arm of `exec` that has no meaning yet; safe. -/
  | notModelled (mnemonic : String)
deriving DecidableEq, Repr

/-- Hub roles, numbered as in Table 14.2 by `Role.code` (R21, R342). -/
inductive Role where
  | down | starting | claiming | secondary | primary | sole
deriving DecidableEq, Repr

/-! ## Events (R394, R395) -/

/-- An event before it is a record: code, source kind, site, job field, payload fields as (bytes, value). -/
structure Ev where
  code   : Nat
  srck   : Nat := 0
  /-- 2^32 when the event concerns no site. -/
  site   : Nat := 4294967296
  jobv   : Bool := false
  job    : Nat := 0
  tenant : Nat := 0
  fields : List (Nat × Nat) := []
deriving DecidableEq, Repr

/-- A Strata record: its count, time, and the event; `cont` marks the continuation record of a pair (R394, R395). -/
structure Rec where
  count : Nat
  time  : Nat
  cont  : Bool := false
  ev    : Ev
deriving DecidableEq, Repr

/-! ## Touchstone (06, 07) -/

/-- An event raised at most once per millisecond: when it was last raised, and what it stands for since. -/
structure Lim where
  last : Option Nat := none
  n    : Nat := 0
  m    : Nat := 0
deriving DecidableEq, Repr

/-- An event raised at most once per millisecond that counts the last millisecond: when it was last raised, and what has happened since
a millisecond before, each with a mark of its kind. -/
structure Recent where
  last  : Option Nat := none
  times : List (Nat × Bool) := []
deriving DecidableEq, Repr

/-- An exact accumulator or M register: 640 bits weighing 2^(i-300), and its sticky flags (R140, Table 7.1). -/
structure MReg where
  val  : BitVec 640 := 0
  pinf : Bool := false
  ninf : Bool := false
  nan  : Bool := false
deriving DecidableEq, Repr

/-- A finding record (R169, Table 7.4). -/
structure Finding where
  code  : BitVec 16
  index : BitVec 32
  value : BitVec 32
  limit : BitVec 32
deriving DecidableEq, Repr

/-- How a kernel sample stands: running, at HALT, or trapped with a cause of Table 7.5. -/
inductive KStatus where
  | running
  | halted
  | trapped (cause : Nat)
deriving DecidableEq, Repr

/-- Kernel-visible state of a cell (R163, Table 7.1): all zero at the start of a sample. -/
structure KState where
  x      : Tab (BitVec 64) := []
  m      : Tab MReg := []
  v      : Tab (BitVec 80) := []
  lanes  : Tab MReg := []
  pc     : BitVec 10 := 0
  steps  : BitVec 24 := 0
  finds  : List Finding := []
  lost   : Nat := 0
  status : KStatus := .running
deriving DecidableEq, Repr

/-- A numerics descriptor (R145, Table 6.3). -/
structure Desc where
  kind : Nat
  fmta : Nat
  fmtb : Nat
  out  : Nat
  acc  : Nat
  prd  : Bool
  ftzi : Bool
  ftz  : Bool
  bias : Bool
  sat  : Bool
  l    : Nat
  tree : Nat
  xr   : Nat
  ef   : Nat
  rqs  : Nat
  rqr  : Nat
  rqw  : Nat
  eps  : BitVec 32
deriving DecidableEq, Repr

/-- What a cell is running: the capture, its work class (0 arbitration, 1 audit, 2 kernel), and the kernel state. -/
structure Work where
  cid    : Nat
  cls    : Nat
  tenant : Nat := 0
  k      : KState := {}
  /-- The descriptor as it stood when the cell started the sample (R432). -/
  desc   : Option Desc := none
deriving DecidableEq, Repr

/-- A Touchstone cell (R139): state code of Table 0.7, work, quantum position of 0 to 7 (R155), the tenant served last,
the stamps of residue disagreements (R144), and the known-answer test in progress (1 check, 2 restore). -/
structure Cell where
  state    : Nat := 0
  work     : Option Work := none
  pos      : Nat := 0
  lastTen  : Nat := 0
  disagree : List Nat := []
  kat      : Nat := 0
deriving DecidableEq, Repr

/-- A kernel attachment (R177). -/
structure Attach where
  slot   : Nat
  tenant : Nat
  job    : Nat
  source : Nat
  k      : Nat
  filter : Option Nat
  drops  : Nat := 0
deriving DecidableEq, Repr

/-- A capture or a request for one (R150 to R153). `stage`: 0 requested, 1 granted and the grant on its way, 2 ordered from
the producer, 3 streamed and on its way, 4 waiting in the store, 5 in a cell, 6 judged and its verdict on its way. `asked`
marks a request that reached the Primary; `cands` are the attachments whose draw selected the item, as they stood at the draw (R178,
R182). `cert` is the certificate or record of the item that an audit or a kernel draw selected (R115); `crc` the CRC of the header as
stored, `body` the copy in the store of hub `hub` and `copy2` the other hub's, of an arbitration capture (R151, R152); `notCell` the
cell whose residue disagreed on the sample (R144). -/
structure Capture where
  stage   : Nat := 0
  warden  : Nat := 0
  kind    : Nat := 0
  hub     : HubId := .a
  ndi     : Nat := 0
  site    : Nat := 0
  site2   : Nat := 0
  job     : Nat := 0
  tenant  : Nat := 0
  jobv    : Bool := false
  epoch   : Nat := 0
  id      : Nat := 0
  rows    : Nat := 0
  cols    : Nat := 0
  k       : Nat := 0
  fmta    : Nat := 0
  fmtb    : Nat := 0
  out     : Nat := 0
  flags   : Nat := 0
  lena    : Nat := 0
  lenb    : Nat := 0
  leno    : Nat := 0
  time    : Nat := 0
  body    : List Byte := []
  copy2   : Option (List Byte) := none
  crc     : BitVec 32 := 0
  cert    : BitVec 128 := 0
  notCell : Option Nat := none
  asked   : Bool := false
  cands   : List (Nat × Attach) := []
  doneAt  : Nat := 0
  obj     : Nat := 0xFFFF
  slot    : Nat := 0
  att     : Nat := 0
  row     : Nat := 0
  pages   : Nat := 0
  susp    : Option (KState × Option Desc) := none
deriving DecidableEq, Repr

/-- What a verdict carries for one judged output (R158). -/
structure Judged where
  code  : Nat
  bad   : Nat := 0
  worst : Nat := 0
  cls   : Nat := 0
  cause : Nat := 0
deriving DecidableEq, Repr

/-- A loaded kernel (R172 to R176). -/
structure Kernel where
  tenant : Nat
  budget : Nat
  charge : Bool
  inputs : Bool
  code   : List (BitVec 64)
  root   : List Byte
  chargeOk : Bool
  /-- NAME of the image, 16 bytes (Table 7.6). -/
  name   : List Byte := []
deriving DecidableEq, Repr

/-- A kept kernel result (R183). -/
structure KResult where
  cid     : Nat
  verdict : Nat
  cause   : Nat
  finds   : List Finding
  isPartial : Bool
  lost    : Nat
  job     : Nat
  tenant  : Nat
  epoch   : Nat
  id      : Nat
  row     : Nat
  slot    : Nat
  att     : Nat
deriving DecidableEq, Repr

/-- Counts that TSTONE.REPORT returns for one hub (R162, R432). -/
structure TCounts where
  verd0 : Nat := 0
  verd1 : Nat := 0
  verd2 : Nat := 0
  drop1 : Nat := 0
  drop2 : Nat := 0
  drop3 : Nat := 0
  coll  : Nat := 0
  quanta0 : Nat := 0
  quanta1 : Nat := 0
  quanta2 : Nat := 0
  tenQuanta : Tab Nat := []
deriving DecidableEq, Repr

/-- Touchstone as the hubs hold it. Cells are keyed 0 to 15 for hub A and 16 to 31 for hub B. -/
structure Tstone where
  cells    : Tab Cell := []
  caps     : Tab Capture := []
  nextCid  : Nat := 1
  descs    : Tab Desc := []
  kernels  : Tab Kernel := []
  attaches : Tab Attach := []
  results  : List KResult := []
  verdicts : Tab (List Judged) := []
  share    : Option Nat := none
  /-- The audit threshold last sent to the wardens (R157). -/
  auditThr : Nat := 0
  cntA     : TCounts := {}
  cntB     : TCounts := {}
  arbPages : Nat := 0
  shPagesA : Nat := 0
  shPagesB : Nat := 0
  /-- Audits dropped and their event's limit, per hub (R153). -/
  dropA : Recent := {}
  dropB : Recent := {}
  /-- The most audit samples that waited in each hub at once in the governor period (R157). -/
  waitA : Nat := 0
  waitB : Nat := 0
deriving DecidableEq, Repr

/-! ## Hubs -/

/-- A trace record in a hub's buffer (R376, R384): class, words, source and body. -/
structure TRec where
  cls  : Nat
  len  : Nat
  src  : Nat
  wt   : Nat
  body : List (BitVec 64) := []
deriving DecidableEq, Repr

/-- Losses accumulated at a drop point for one source, class and cause (R378). -/
structure Loss where
  part  : Nat
  cls   : Nat
  cause : Nat
  node  : Nat
  recs  : Nat
  words : Nat
  wt    : Nat
deriving DecidableEq, Repr

/-- A hub's trace buffer (R380, Table 15.6): state 0 Off, 1 Stream, 2 Armed, 3 Capturing, 4 Held. -/
structure TraceBuf where
  state   : Nat := 0
  recs    : List TRec := []
  occ     : Nat := 0
  pre     : Nat := 0
  quota   : Nat := 0
  auto    : Bool := false
  admitted : Nat := 0
  refused : Nat := 0
  trigIgn : Nat := 0
  evMatch : Bool := false
  evCode  : Nat := 0
  evMask  : Nat := 0
  excTrig : Bool := false
  losses  : List Loss := []
  /-- Records lost by cause 1 to 5, as TRACE.STATUS gives them. -/
  lossByCause : Tab Nat := []
  /-- Losses since the last EV_TRACE_LOSS, keyed 3 (cause - 1) + class, and the time of that event (R393). -/
  lossAcc : Tab Nat := []
  lossEvAt : Option Nat := none
  lanesOut : BitVec 4 := 0
  seq     : BitVec 32 := 0
  sinceAlign : Tab Nat := []
  scan    : List (List Byte) := []
  bytesSent : Nat := 0
deriving DecidableEq, Repr

/-- PowerWarn of a hub (R329 to R331): entered and when, the level of pwr_fail_warn_n, the flush done. -/
structure PwrFail where
  warn      : Bool := false
  since     : Nat := 0
  pin       : Bool := true
  flushed   : Bool := false
  /-- The defect table to be flushed, with the count of commits when the warning was accepted (Table 13.2 step 3). -/
  table     : Option (Nat × Tab (BitVec 64)) := none
deriving DecidableEq, Repr

/-- A snapshot of a Strata window slot: its 64 bytes (R405, R454). -/
abbrev Snap := List Byte

/-- One hub: role and duplex state (01, 11), its window's own registers (18), its power, clock, lockstep and trace state. -/
structure Hub where
  role     : Role := .starting
  peerSeen : Role := .down
  started  : Bool := false
  kind     : Nat := 0
  fast     : Bool := false
  profileSampled : BitVec 2 := 0
  keyId    : BitVec 64 := 0
  agKeyId  : BitVec 64 := 0
  imgver   : BitVec 32 := 0
  fwSlot   : Nat := 0
  fwDigest : BitVec 384 := 0
  startCause : Nat := 0
  /-- The release of sys_rst_n by this hub's time (R299). -/
  releasedAt : Nat := 0
  /-- In the key unit: the seed, and the memory and link root keys, 32 bytes each (R338, R343). -/
  seed     : List Byte := []
  rootKeys : List Byte := []
  /-- The agreement certificate it issued itself (R341). -/
  agCert   : List Byte := []
  /-- Firmware slots that BOOT.FWLOAD has written, each its manifest and image (R300, R322). -/
  fwImg    : Tab (List Byte) := []
  hbeat    : Nat := 0
  time     : Nat := 0
  refLost  : Bool := false
  slowAdj  : Nat := 0
  portErr  : BitVec 32 := 0
  irqStat  : BitVec 19 := 0
  irqMask  : BitVec 19 := 0
  irqCls   : BitVec 18 := 0x3FFFE
  irqSev   : Nat := 3
  sntSel   : Nat := 0
  strArea  : Nat := 0
  strPos   : Nat := 0
  snaps    : Tab Snap := []
  expData  : List Byte := []
  expOrigin : BitVec 64 := 0
  expSeq   : BitVec 32 := 0
  expGen   : BitVec 32 := 0
  trcLost  : BitVec 32 := 0
  trace    : TraceBuf := {}
  /-- The scrambler of each trace lane: its last 58 bits sent, the newest in bit 0 (R383). -/
  scr      : Tab (BitVec 58) := []
  pwr      : PwrFail := {}
  railLow  : Bool := false
  railFell : Bool := true
  /-- A power-fail warning was accepted during the start: the next start is cold (R319). -/
  coldNext : Bool := false
  /-- The hub's Strata power-fail area, and whether its last flush completed step 2 (R403). -/
  pfail    : List Rec := []
  pfailDone : Bool := false
  /-- The outputs cmd_irq, cmd_primary, cmd_ready and cmd_rvalid (Table 2.3, R40, R41, R450). -/
  irqPin   : Bool := false
  primaryPin : Bool := false
  readyPin : Bool := false
  rvalidPin : Bool := false
  /-- The input cmd_rready (Table 2.3). -/
  rready   : Bool := false
  /-- Reads taken whose response has not transferred, oldest first: cmd_resp, address, cmd_rdata (R40, R41). -/
  reads    : List (Nat × Nat × BitVec 64) := []
  /-- sys_rst_n is low: at reset, and from WAFER_RESET to HUB_START (Table 2.12, R70). -/
  rstLow   : Bool := true
  /-- The start under way followed an assertion of sys_rst_n and no power-on (R287). -/
  byReset  : Bool := false
  /-- The copy of the peer's certificate chain in the identity region (Table 1.5, R208). -/
  peerChain : Option (List Byte) := none
  peerHb   : Bool := false
  peerFailed : Bool := false
  leases   : Tab Nat := []
  withdrawals : Nat := 0
  mayClaim : Bool := true
  /-- Mirrored regions of its non-volatile store that are stale, numbered in the order of Table 1.5 (R19). -/
  stale    : List Nat := []
  mgmt     : Tab (List Nat) := []
  mgmtOut  : List Nat := []
deriving DecidableEq, Repr

/-! ## Command queues (R412 to R416) -/

/-- A posted reply (Table 17.2). -/
structure Reply where
  tag    : BitVec 16
  opcode : BitVec 16
  status : Nat
  queue  : Nat
  final  : Bool
  rlen   : Nat
  eoff   : Nat
  cause  : Nat
  res    : List Byte
deriving DecidableEq, Repr

/-- One command queue with its status queue. Counts are free-running 16-bit numbers. `firstAt` gives, for each taken
count not yet returned, the status count of its first reply. -/
structure Queue where
  tail     : BitVec 16 := 0
  head     : BitVec 16 := 0
  taken    : BitVec 16 := 0
  sqHead   : BitVec 16 := 0
  sqTail   : BitVec 16 := 0
  sqHeadMir : BitVec 16 := 0
  bind     : Nat := 0
  mem      : Tab Byte := []
  replies  : Tab Reply := []
  /-- The other hub's memory of this queue: the packets mirrored to it as they were taken, and their results (R412, R427). -/
  memMir   : Tab Byte := []
  firstAt  : List (BitVec 16 × BitVec 16) := []
  fullRaised : Bool := false
deriving DecidableEq, Repr

/-- An open long-running command (R424): its queue, tag, opcode, what it works on, and what its final reply will say. -/
structure OpenCmd where
  queue  : Nat
  tag    : BitVec 16
  opcode : BitVec 16
  key    : Nat
  jobs   : Nat := 0
  beganAt : Nat := 0
  role   : Nat := 0
  /-- The slot count of the packet while ACCEPTED is still to come (R349). -/
  first  : Option (BitVec 16) := none
deriving DecidableEq, Repr

/-- A pieced load in progress (R425): its target class (opcode) and index, the queue that began it, the bytes so far. -/
structure Load where
  opcode : Nat
  target : Nat
  queue  : Nat
  bytes  : List Byte
deriving DecidableEq, Repr

/-- The interpreter (R414, R424, R425, R426). -/
structure Interp where
  queues : Tab Queue := []
  opens  : List OpenCmd := []
  /-- Final replies (status, cause, results) of commands that ended while no hub served: the hub that takes the role posts them (R427). -/
  finals : List (OpenCmd × Nat × Nat × List Byte) := []
  loads  : List Load := []
  held   : List (Nat × BitVec 16 × Instr) := []
  rr     : Nat := 1
deriving DecidableEq, Repr

/-! ## Synchronisation objects (10) -/

/-- Object record (Table 10.1). -/
structure SyncObj where
  type    : Nat := 0
  state   : Nat := 0
  attempt : Nat := 0
  tenant  : Nat := 0
  job     : Nat := 0
  fail    : Bool := false
  epoch   : Nat := 0
  count   : Nat := 0
  part    : Nat := 0
  elast   : Nat := 0
  rsn     : Nat := 0
  gate    : BitVec 128 := 0
  pmap    : BitVec 128 := 0
  /-- First epoch of the armed range: no field of the record, kept for late findings (R250). -/
  efirst  : Nat := 0
deriving DecidableEq, Repr

/-- What the Primary gathers on the current epoch of a barrier beside its record (R247, R255, R260). -/
structure Gather where
  clean    : List Nat := []
  kinds    : BitVec 8 := 0
  opened   : List (Nat × Nat) := []
  cleared  : List (Nat × Nat) := []
  other    : Bool := false
  input    : Bool := false
  poisoned : Bool := false
  poisonReplayed : Bool := false
  short    : Bool := false
  tallyFull : Bool := false
  charged  : List Nat := []
  replaying : Bool := false
  /-- The RSN of a release decided and not yet in the mirror: a failure report until then prevents it (R250). -/
  releasing : Option Nat := none
deriving DecidableEq, Repr

/-- A release record (R249, R263): object, epoch, RSN, participating wardens, wardens to tally-close; and the first epoch of the
armed range, every epoch of which up to this one has been released (R250). -/
structure RelRec where
  obj   : Nat
  epoch : Nat
  rsn   : Nat
  first : Nat
  parts : List Nat
  closes : List Nat
  job   : Nat
  tenant : Nat
deriving DecidableEq, Repr

/-- A warden's report of a failure of an epoch to the Primary (R247). `again` marks the report that answers a clear order: what it
names has been reported before (R255). -/
structure FailRep where
  kinds : BitVec 8
  site  : Nat
  triage : Option Nat := none
  input : Bool := false
  attempt : Nat := 0
  again : Bool := false
deriving DecidableEq, Repr

/-- Work that became due while it could not begin (R472): the decision on a barrier, the replay swaps of a warden, the offer, the test
of a spare or the pattern run of a cluster, a directed phase, a join, the end of a probation, a failed recovery, a map batch, a held command. -/
inductive Due where
  | barrier (o : Nat)
  | swaps (p : Nat)
  | offer (p cluster : Nat)
  | spareTest (p cluster : Nat)
  | pattern (p cluster : Nat) (origin : BitVec 64) (seq : BitVec 32)
  | directed (p : Nat)
  | join (p : Nat)
  | probation (p : Nat)
  | recovery (p : Nat)
  | batch (p : Nat)
  /-- A pattern harvest from an element of a capture, a harvest's run on its core, and the test of a core that a swap freed (R329). -/
  | harvest (p src : Nat) (c : Capture) (elem : Nat)
  | harvestRun (origin : BitVec 64) (seq : BitVec 32)
  | test (p src : Nat)
  | command
deriving DecidableEq, Repr

/-- Synchronisation state of the Primary. -/
structure Sync where
  objs    : Tab SyncObj := []
  gather  : Tab Gather := []
  nextRsn : Nat := 65537
  rsnNv   : Nat := 0
  rels    : Tab RelRec := []
  relWait : List RelRec := []
  lastTo  : Tab Nat := []
  /-- Jobs that exist (R242), each with the tenant of its first SYNC.ALLOC. -/
  jobs    : Tab Nat := []
  /-- Later epochs of an armed range with a tally-full FAIL kept for them (R110): object and epoch. -/
  full    : List (Nat × Nat) := []
  waits   : List (Nat × Nat) := []
  posts   : Tab (List Nat) := []
  /-- Time of the last EV_SYNC_SEM_SATURATED of an object, and its refused posts (R251). -/
  satMs   : Tab Nat := []
  refused : Tab (List Nat) := []
  /-- Work kept due, in the order it became due (R472). -/
  due     : List Due := []
deriving DecidableEq, Repr

/-! ## Defects (09) and Quarry (08) -/

/-- Defect table working copy: entries of 64 bits by index (R214), and the commit state (R216). -/
structure Defects where
  tab     : Tab (BitVec 64) := []
  committed : Tab (BitVec 64) := []
  gen     : Bool := false
  dirty   : Bool := false
  commits : Nat := 0
  bankHits : Tab (List Nat) := []
  laneHits : Tab (List Nat) := []
deriving DecidableEq, Repr

/-- A Quarry index entry with its pattern image (R202, R203). -/
structure Pattern where
  origin : BitVec 64
  seq    : BitVec 32
  first  : Nat
  count  : Nat
  state  : Nat
  source : Nat
  image  : List Byte
  /-- The harvesting hub's chain and the bundle signature of a pattern harvested here (R208). -/
  chain  : List Byte
  sig    : List Byte
  activeAt : Nat
deriving DecidableEq, Repr

/-- In-field test settings (R191, R198): D in minutes, D as it was set last, which ages and debt are judged against from the next governor
period (R433), and the yield declaration of each job that has one. -/
structure TestCfg where
  dMin   : Nat := 20
  dNext  : Nat := 20
  yields : Tab Nat := []
deriving DecidableEq, Repr

/-- One pattern run on a spare or on the quarantined core (R207, R210). -/
structure PatRun where
  origin : BitVec 64
  seq    : BitVec 32
  part   : Nat
  src    : Nat
  sig    : Option (BitVec 64) := none
  done   : Bool := false
deriving DecidableEq, Repr

/-- A harvest in progress (R207): pattern, faulty core, and its role among the runs. -/
structure Harvest where
  origin : BitVec 64
  seq    : BitVec 32
  part   : Nat
  src    : Nat
  hub    : HubId
deriving DecidableEq, Repr

/-- A pattern of the factory set (R201): Active, of origin 0. Its sequence number, its place and its at most eight granules are the
model's (DESIGN CHOICE, log entry 22), its image is Config's. -/
def factoryPattern (i : Nat) : Pattern :=
  let im := (Config.factoryPattern i).take 2048
  { origin := 0, seq := BitVec.ofNat 32 i, first := 8 * i, count := max 1 ((im.length + 255) / 256), state := 2, source := 0, image := im
    chain := [], sig := [], activeAt := 0 }

/-- The factory set of stepping B1: 1,536 patterns. -/
def factorySet : Tab Pattern := (List.range 1536).map (fun i => (i, factoryPattern i))

/-- Quarry (R201). Slices that the table does not list are Config's. -/
structure Quarry where
  index    : Tab Pattern := factorySet
  slices   : Tab (BitVec 64) := []
  stepping : Nat := 0
  nextSeqA : Nat := 1
  nextSeqB : Nat := 1
  runs     : List PatRun := []
  harvests : List Harvest := []
deriving DecidableEq, Repr

/-! ## The governor (03) -/

/-- A screening unit's evidence and exposure (R81). -/
structure GUnit where
  n   : Rat := 0
  e   : Rat := 0
  ev  : Nat := 0
  sub : Nat := 0
deriving DecidableEq, Repr

/-- Counts of SCREEN.REPORT for the device (R431). -/
structure ScreenCnt where
  ordinary : Nat := 0
  droop    : Nat := 0
  unchecked : Nat := 0
  repeats  : Nat := 0
  replays  : Nat := 0
deriving DecidableEq, Repr

/-- A finding made while no hub was Primary or Sole, to be charged when one ingests it (R83, R95): the resource, whether it is permanent,
the layer, the event, and the capture with its worst element where a verdict found the output out of bound (R206). -/
structure HeldCharge where
  site  : Nat
  perm  : Bool
  layer : Nat
  ev    : Ev
  harv  : Option (Capture × Nat) := none
deriving DecidableEq, Repr

/-- The governor. Cluster units are keyed 640p + cluster, ring units 62720 + 6p + (kind - 1). -/
structure Governor where
  started : Bool := false
  units   : Tab GUnit := []
  gain    : Nat := 0
  unmet   : Bool := false
  floors  : Tab Nat := []
  /-- Governor values before probation, and the values last sent with the probation of the cluster and of its partition then (R87 to
  R89). -/
  fracs   : Tab Nat := []
  sent    : Tab (Nat × Bool × Bool) := []
  /-- Same-cluster shares x_i of the last period in 256ths, and each partition's mean realised fraction in steps (R131). -/
  same    : Tab Nat := []
  real    : Tab Rat := []
  uUnits  : Rat := 0
  uDebt   : Rat := 0
  uDroop  : Rat := 0
  uUnk    : Rat := 0
  sbar    : Rat := 0
  lastAt  : Nat := 0
  log     : List (Nat × Nat) := []
  /-- Busy and total cycles of each unit at the last update (R77). -/
  busy    : Tab (Nat × Nat) := []
  /-- Tiles or operations judged by audit in the period, by unit (R157). -/
  auditN  : Tab (List Nat) := []
  /-- Findings of Table 3.3 charged to a resource since governor start (R214). -/
  evid    : Tab Nat := []
  held    : List HeldCharge := []
  cnt     : ScreenCnt := {}
deriving DecidableEq, Repr

/-! ## Strata (16) -/

structure StrataB where
  circ     : List Rec := []
  perm     : List Rec := []
  nextCount : Nat := 65537
  countNv  : Nat := 0
  frozen   : Bool := false
  frozenAt : Nat := 0
  hold     : List Rec := []
  lost     : Nat := 0
  lostFirst : Nat := 0
  lostLast : Nat := 0
  lostSev  : Nat := 0
  lostCls  : BitVec 18 := 0
  lostAll  : Nat := 0
  hubHeld  : List (HubId × Ev) := []
  early    : Tab (List (Nat × Ev)) := []
  ingested : Tab Nat := []
  late     : Tab (List Nat) := []
deriving DecidableEq, Repr

/-! ## Keys and identity (14) -/

/-- Key context record (Table 14.3). -/
structure Ctx where
  state  : Nat := 0
  tenant : Nat := 0
  wsrc   : Nat := 0
  osrc   : Nat := 0
  wepoch : Nat := 1
  oepoch : Nat := 0
  wslot  : Nat := 0
  oslot  : Nat := 0
  cid    : BitVec 128 := 0
  /-- Tags retired by a zeroing not yet complete (R348). -/
  zeroTags : List Nat := []
  /-- Channels whose pass for the last change is still due, and channels still loading its key. -/
  need   : List Nat := []
  loading : List Nat := []
deriving DecidableEq, Repr

/-- A key slot (R355): filled, one-sided, owner, content ID, content key, blob. -/
structure KSlot where
  filled  : Bool := false
  oneSided : Bool := false
  owner   : Nat := 0
  cid     : BitVec 128 := 0
  keyA    : Option (BitVec 512) := none
  keyB    : Option (BitVec 512) := none
  blob    : List Byte := []
deriving DecidableEq, Repr

/-- A root installed for a tenant (R361): bit 0 kernel signing, bit 1 charging. -/
structure Root where
  tenant : Nat
  flags  : Nat
  key    : List Byte
deriving DecidableEq, Repr

/-- A scrub of a departing tenant (Table 14.6). -/
structure Scrub where
  tenant : Nat
  mask   : BitVec 128
  step   : Nat
  /-- The cluster being reset, by partition. -/
  clusters : Tab Nat := []
  resets : Nat := 0
  ctxs   : List Nat := []
  slots  : Nat := 0
  purged : Nat := 0
deriving DecidableEq, Repr

/-- The variant certificate as stored (Table 9.7). -/
structure Variant where
  member : Nat := 0x62
  step   : Nat := 0x0B01
  huba   : BitVec 64 := 0
  hubb   : BitVec 64 := 0
  parts  : BitVec 104 := 0x3FFFFFFFFFFFFFFFFFFFFFFFF
  links  : BitVec 48 := 0xFFFFFFFFFFFF
  cells  : Nat := 16
  lanes  : Nat := 4
  slots  : Nat := 256
  fail   : Nat := 0
  digest : BitVec 64 := 0
deriving DecidableEq, Repr

/-- A recorded debug session (R364). -/
structure Session where
  num    : Nat
  openAt : Nat
  closeAt : Nat := 0
  cmds   : Nat := 0
  stops  : Nat := 0
  bytes  : Nat := 0
  lastAt : Nat := 0
deriving DecidableEq, Repr

/-- Key unit, roots, variant, scrubs and debug sessions. -/
structure Keys where
  ctxs    : Tab Ctx := []
  slots   : Tab KSlot := []
  purge   : List (Nat × Nat) := []
  roots   : List Root := []
  scrubs  : List Scrub := []
  variant : Variant := {}
  staged  : Option Variant := none
  keySlots : Nat := 256
  dbg   : Option Session := none
  sessions : List Session := []
  nextSession : Nat := 1
  changes : Nat := 0
deriving DecidableEq, Repr

/-! ## Boot, profiles, device state (12) -/

/-- A profile in force (Table 3.4, Table 12.7); the defaults are Balanced. T is the binary32 number that the blob carries; thresholds are in
thousandths of T. -/
structure Profile where
  id     : Nat := 0
  target : Rat := 10995116/1099511627776
  floor  : Nat := 4
  ceil   : Nat := 32
  target_on : Bool := false
  audit  : Nat := 2
  raise  : Nat := 900
  lower  : Nat := 800
deriving DecidableEq, Repr

/-- An accepted manifest (Table 12.5). -/
structure Manifest where
  imgver : Nat
  step   : Nat
  len    : Nat
  offset : Nat
  digest : BitVec 384
deriving DecidableEq, Repr

/-- The values of the four factory profiles (Table 3.4, R155, R316). -/
def factoryProfiles : List Profile :=
  [{}, { id := 1, target := 8796093/8796093022208, floor := 16, audit := 4 }, { id := 2, target := 13743895/137438953472, floor := 1, ceil := 16, audit := 1 },
   { id := 3, floor := 8, target_on := true }]

/-- Bytes 0 to 63 of a factory blob (Table 12.7): its ID, TARGET as binary32, FLOOR, CEIL, FLAGS and AUDIT; RAISE 900, LOWER 800. -/
def factoryBlob (id : Byte) (target : List Byte) (floor ceil flags audit : Byte) : List Byte :=
  [0x45, 0x4C, 0x46, 0x50, 1, 0, id, 0] ++ target ++ [floor, ceil, flags, audit, 0x84, 0x03, 0x20, 0x03] ++ List.replicate 44 0

/-- The factory blobs of the four profiles: T is 1e-5, 1e-6, 1e-4 and 1e-5 (R316). -/
def factoryBlobs : List (List Byte) :=
  [factoryBlob 0 [0xAC, 0xC5, 0x27, 0x37] 4 32 0 2, factoryBlob 1 [0xBD, 0x37, 0x86, 0x35] 16 32 0 4,
   factoryBlob 2 [0x17, 0xB7, 0xD1, 0x38] 1 16 0 1, factoryBlob 3 [0xAC, 0xC5, 0x27, 0x37] 8 32 1 2]

structure Boot where
  profile  : Profile := {}
  /-- The profiles region: bytes 0 to 63 of its four blobs (R18, R316); CERT and SIG are Config's. -/
  profiles : List (List Byte) := factoryBlobs
  device   : Nat := 0
  /-- The certificate was refused at the start of a device that is also out of service (R234). -/
  refused  : Bool := false
  manifest : Option Manifest := none
  /-- The fast path was chosen at this start (R315, R320). -/
  fast     : Bool := false
  gather   : Option (List Nat) := none
  detour   : List Nat := []
  wafers   : List Nat := []
  wafReset : Nat := 0
  releasedAt : Nat := 0
  /-- Step 7 of Table 12.2 has run since the last wafer reset (R299). -/
  up      : Bool := false
  /-- The hub that served last (R265). -/
  lastServ : Option HubId := none
  /-- The start under way was ordered by FENCE.RESTORE (R289). -/
  restore : Bool := false
  /-- The non-volatile store holds a committed defect table (Table 12.1). -/
  nvTable  : Bool := false
deriving DecidableEq, Repr

/-! ## Links (02, 09) -/

/-- An inter-wafer link, by global number (R58). State code of Table 0.7. -/
structure Link where
  width   : BitVec 2 := 0
  /-- The last width reached (EV_LINK_OUT). -/
  lastWidth : BitVec 2 := 0
  lanesOk : BitVec 8 := 0
  trainMax : BitVec 2 := 0
  trainReq : Bool := false
  attempts : Nat := 0
  limit   : BitVec 2 := 3
  errs    : Tab Nat := []
  retrains : Nat := 0
  /-- What trains it: 0 bring-up or recovery, 1 LINK.TRAIN, 2 a lost link (R222). -/
  why     : Nat := 0
deriving DecidableEq, Repr

/-! ## Cairn (15) -/

structure Cairn where
  state   : Nat := 0
  complete : Bool := false
  issuer  : HubId := .a
  issuedAt : Nat := 0
  level   : Nat := 0
  cores   : List (BitVec 22) := []
  armed   : Bool := false
  armLevel : Nat := 0
  armCode : Nat := 0
  armMask : Nat := 0
  armCores : List (BitVec 22) := []
  halted  : List Nat := []
  outside : List Nat := []
  missing : List Nat := []
  stamps  : Tab Nat := []
  scanned : List Nat := []
  scanA   : Nat := 0
  scanB   : Nat := 0
  scanBytesA : Nat := 0
  scanBytesB : Nat := 0
  scanDoneA : Bool := false
  scanDoneB : Bool := false
  /-- RCLASS of the last scan-out record read of a partition: the records come in the order of Table 15.10 (R390). -/
  lastCls : Tab Nat := []
  /-- Records still to follow of a partition whose CUTHEAD has been read. -/
  left    : Tab Nat := []
  /-- Partitions whose wardens have asked for the channel state and the scratch of the scan-out (R387). -/
  asked : List Nat := []
  abandoned : Bool := false
  passed  : List Nat := []
  /-- Nodes that saw a further Cairn before their own stop was complete, and partitions that halted in this stop (R30, R385). -/
  further : List Nat := []
  haltedOnce : List Nat := []
deriving DecidableEq, Repr

/-! ## Vein (01) -/

/-- A Vein node: flits in the class-4 buffer of each input, inputs whose packet is being dropped, packets and bytes dropped
by source partition (R377), and the times of the flits refused at each input (R292). -/
structure VNode where
  bufs  : Tab Nat := []
  dropping : List Nat := []
  drops : Tab (Nat × Nat) := []
  /-- Flits sent again to an input and not yet received (R292). -/
  resent : List (Nat × Flit) := []
  /-- The node's buffers of each class: the flits that wait for a channel, oldest first (R28). -/
  held : Tab (List Flit) := []
  refused : Tab (List Nat) := []
deriving DecidableEq, Repr

structure Vein where
  nodes    : Tab VNode := []
  linksOut : List (Nat × Nat) := []
  nodesOut : List Nat := []
  /-- The spanning tree of the detour route table: each node's parent; the root has none (R29). -/
  tree     : Tab Nat := []
  /-- Nodes whose route table the Control flits of the last load have written (R29). -/
  loaded   : List Nat := []
deriving DecidableEq, Repr

/-! ## The mirror (R19, R263) -/

/-- What a mirror write carries. -/
inductive MItem where
  | release (rsn : Nat)
  | attempt (obj epoch n : Nat)
  | sem (obj count warden num : Nat)
  | sqHead (q : Nat) (v : BitVec 16)
  | failSet (obj epoch warden : Nat)
  | event (warden num : Nat)
deriving DecidableEq, Repr

structure Mirror where
  out   : List MItem := []
  acks  : List MItem := []
  rels  : Tab RelRec := []
  attempts : Tab (Nat × Nat) := []
  sems  : Tab Nat := []
  fails : List (Nat × Nat) := []
  events : List (Nat × Nat) := []
deriving DecidableEq, Repr

/-! ## Wardens -/

/-- An epoch tally (R110). `kinds` are the failure bits of EV_STEP_REPLAY. -/
structure Tally where
  epoch  : Nat
  out    : Nat := 0
  kinds  : BitVec 8 := 0
  first  : Nat := 0
  cores  : List Nat := []
  /-- Sites whose poison marked the epoch, and sites whose poison raised its event (R117, R108). -/
  poison : List Nat := []
  psnEv  : List Nat := []
  triFails : List (Nat × BitVec 8) := []
  attempt : Nat := 0
  /-- An input fault is among the failures (Table 10.5 row 1). -/
  input   : Bool := false
deriving DecidableEq, Repr

/-- A warden's copy of a synchronisation object (R238). -/
structure LocalObj where
  type   : Nat
  state  : Nat
  epoch  : Nat
  elast  : Nat
  parts  : Nat := 0
  arr    : Nat := 0
  /-- Arrivals of the current execution that the serving hub has been told of (R247, R265). -/
  sent   : Nat := 0
  job    : Nat := 0
  tenant : Nat := 0
  gate   : Bool := false
  query  : Bool := false
  cleanSent : Bool := false
  /-- ATTEMPT of the execution under way: of the last replay whose cores were strobed (R256 step 7, R266). -/
  acted  : Nat := 0
  /-- ATTEMPT of a replay order taken whose swaps are not all done (R256 steps 4 to 6). -/
  replay : Option Nat := none
deriving DecidableEq, Repr

/-- A failure that its replay classifies (Table 4.8): of a core's tile or an engine's operation. `row`: 0 exact checks,
1 index or metadata. -/
structure First where
  epoch  : Nat
  core   : Bool
  unit   : Nat
  id     : Nat
  rslt   : Nat
  data   : Nat
  row    : Nat
  attempt : Nat
deriving DecidableEq, Repr

/-- A pending shadow (R127). `orig` and `target` are 15-bit sources by physical position; `again` that it was placed a
second time, `first` its first target (R129). -/
structure Pend where
  tid    : Nat
  epoch  : Nat
  orig   : Nat
  target : Nat
  sig    : BitVec 64
  at_    : Nat
  forced : Bool
  /-- The original's certificate (R115). -/
  cert   : BitVec 128 := 0
  marked : Bool := false
  again  : Bool := false
  first  : Nat := 0
deriving DecidableEq, Repr

/-- One run of a triage: ordered or not, its core, and what came back (none while awaited; `some none` counts as
unequal to every other run). -/
structure Run where
  core : Nat
  ordered : Bool := true
  got  : Option (Option (BitVec 64)) := none
deriving DecidableEq, Repr

/-- A triage entry (R132). kind 0 shadow mismatch, 1 certificate failure, 2 engine invariant; `left` the cores that left
service (R136); `row1` the first captured row of an engine, `cid2` the capture of the replayed row (Table 4.8). -/
structure Triage where
  kind   : Nat
  tid    : Nat
  epoch  : Nat
  o      : Nat
  s      : Nat := 0
  sigO   : BitVec 64
  sigS   : BitVec 64 := 0
  o2     : Run
  s2     : Option Run := none
  t      : Option Run := none
  cid    : Nat := 0
  verd   : Option (List Judged) := none
  cap    : Option Capture := none
  check  : Nat := 0
  dev    : Nat := 0
  /-- The original's certificate (R115). -/
  cert   : BitVec 128 := 0
  limit  : Bool := false
  left   : List Nat := []
  row1   : List Byte := []
  cid2   : Option Nat := none
  attempt : Nat := 0
  /-- When the disagreement reached the Primary (R156). -/
  reach  : Option Nat := none
deriving DecidableEq, Repr

/-- A dispatch-queue entry of a group (R124): kind 0 shadow, 1 pattern beat, 2 release, 3 repeat. -/
structure Disp where
  kind : Nat
  dst  : Nat
  tile : Nat
deriving DecidableEq, Repr

/-- Work held back during a droop window (R328). -/
inductive HeldWork where
  | disp (g : Nat) (front : Bool) (d : Disp)
  | slice (src : Nat)
  | swap (cluster : Nat)
deriving DecidableEq, Repr

/-- A test in progress on a core (R190). `step`: 1 awaits the reset, 2 logic slices, 3 memory slices, 4 directed slices,
5 awaits the second reset, 6 the re-initialise slice, 7 waits for the directed phase. `slice` is the slice of the step,
`running` that its signature is awaited, `rep` the first signature where the slice is run again, `pats` the patterns still
to run, `dwin` that a droop window was open during the run, `nextCur` where the cursor moves. `why`: 0 freed core,
1 spare test, 2 confirmation, 3 restore, 4 pattern run on a spare, 6 pattern run on the quarantined core. -/
structure TestRun where
  step   : Nat := 1
  slice  : Nat := 0
  running : Bool := false
  rep    : Option (BitVec 64) := none
  pats   : List (BitVec 64 × BitVec 32) := []
  why    : Nat := 0
  dwin   : Bool := false
  nextCur : Option Nat := none
deriving DecidableEq, Repr

/-- What a warden keeps of one physical core beside its sentry state. -/
structure Core where
  before  : Option Nat := none
  lastTest : Int := 0
  urgent  : Bool := false
  urgentAt : Nat := 0
  cursor  : Option Nat := none
  lastRes : Nat := 0
  test    : Option TestRun := none
  job     : Option (Nat × Nat) := none
  untested : Bool := false
  quarSet : Option Nat := none
  confirm : Bool := false
  /-- A failed test held while no hub serves (R200): kind, unit, why of the test, and layer. -/
  heldFail : Option (Nat × Nat × Nat × Nat) := none
deriving DecidableEq, Repr

/-- Rotation state of a cluster (Table 8.3): 0 Ready, 1 Offered, 2 Swapping, 3 TestingFreed, 4 SpareTest, 5 Borrowed,
6 NoSpare. `map` lists logical slots whose physical position differs from their reset mapping. -/
structure Clu where
  rot    : Nat := 0
  cand   : Option Nat := none
  offerAt : Nat := 0
  passed : Bool := false
  late   : Bool := false
  /-- The 100 µs of a swap held back in a droop window are over (R328). -/
  holdOver : Bool := false
  map    : Tab Nat := []
  inDebt : Bool := false
  startDone : Bool := true
deriving DecidableEq, Repr

/-- The swap handshake of a warden (R193): cluster, source and spare positions, purpose: 0 rotation, 1 replay, 2 the slot
of a withdrawn core at its yield (R220). -/
structure Swap where
  cluster : Nat
  src_    : Nat
  dst     : Nat
  why     : Nat
  obj     : Nat := 0
deriving DecidableEq, Repr

/-- A source's counters (R371). -/
structure Ctr where
  busy  : BitVec 48 := 0
  stall : BitVec 48 := 0
  idle  : BitVec 48 := 0
  why   : Nat := 0
  seq   : Option Nat := none
  gaps  : Nat := 0
deriving DecidableEq, Repr

/-- Counts of SCREEN.REPORT for one partition (R431, R138). -/
structure PCnt where
  sel    : Nat := 0
  forced : Nat := 0
  miss   : Nat := 0
  same   : Nat := 0
  orphan : Nat := 0
  timeout : Nat := 0
  triPerm : Nat := 0
  triTran : Nat := 0
  triSub : Nat := 0
  triFalse : Nat := 0
  triNone : Nat := 0
deriving DecidableEq, Repr

/-- Sampling counts of one cluster in the period (R131, R157). -/
structure SCnt where
  sel   : Nat := 0
  miss  : Nat := 0
  placed : Nat := 0
  same  : Nat := 0
  elig  : Nat := 0
deriving DecidableEq, Repr

/-- Droop and stretch state of a partition (13). Bits 0-31 are margin sensors, 32-39 droop detectors. -/
structure Droop where
  inputs  : BitVec 40 := 0
  mask    : BitVec 40 := 0
  stuck   : BitVec 40 := 0
  open_   : Bool := false
  openAt  : Nat := 0
  closing : Bool := false
  marking : Bool := false
  targetOn : Bool := false
  order   : Bool := false
  wins    : List (Nat × Nat) := []
  opened  : BitVec 40 := 0
  /-- Tiles marked: when, and how many (POWER.STATUS). -/
  marks   : List (Nat × Nat) := []
  /-- When EV_DROOP_WINDOW was raised last, and what it stands for since (R337). -/
  evAt    : Option Nat := none
  sinceEv : Nat := 0
  longest : Nat := 0
  markEv  : Nat := 0
  req     : Bool := false
  ack     : Bool := false
  gaveUp  : Bool := false
  again   : Bool := false
deriving DecidableEq, Repr

/-- One memory channel as the warden drives it (R55, R277, R350). `drain`: 0 none, 1 awaiting fence ack, 2 draining,
3 error drain, 4 ended. -/
structure Chan where
  fenceReq : Bool := true
  fenceAck : Bool := false
  /-- The level of mch_drained_m (R57). -/
  drained  : Bool := false
  drainErr : Bool := false
  drain    : Nat := 0
  stuck    : Nat := 0
  ready    : Bool := false
  bankEn   : BitVec 64 := 0xFFFFFFFFFFFFFFFF
  bankOn   : BitVec 64 := 0xFFFFFFFFFFFFFFFF
  keyQ     : List (Nat × Nat × Nat × BitVec 512) := []
  keyBeat  : Nat := 0
  loaded   : List (Nat × Nat) := []
  wtag     : Tab Nat := []
  /-- The pass in progress: scrub orders done, contexts it serves. -/
  pass     : Option (Nat × List Nat) := none
  purgeStep : Nat := 0
  /-- Contexts being purged, each with the tag of its purge key. -/
  purgeCtx : List (Nat × Nat) := []
deriving DecidableEq, Repr

/-- A reset, recovery or bring-up of a partition (R283, R304). `step`: 0 none; else a step of Table 11.6 or 12.3, which
number the same stages. `level` is the order's, none in a bring-up, a wafer order and a hold's fence. `quiesce` and `transit`
are the waits of R277 and R281; `retry` marks the one further reset of R285; `stopped` a partition that stays Fenced;
`fwAsked`, `fwCheck`, `fwRetry` and `fwStart` the stages of Table 12.6. -/
structure Reset where
  level   : Option Nat := none
  step    : Nat := 0
  by_     : Nat := 0
  quiesce : Bool := false
  transit : Bool := false
  deepLost : Bool := false
  retry   : Bool := false
  counted : Bool := true
  startAt : Nat := 0
  stopped : Bool := false
  bringup : Bool := false
  retire  : Bool := false
  fwAsked : Bool := false
  fwCheck : Bool := false
  fwRetry : Bool := false
  fwStart : Bool := false
  /-- The manifest of the load under way (R309). -/
  fwMan   : Option Manifest := none
  linksLeft : List Nat := []
  jobs    : Nat := 0
  /-- Sites of core and cluster resets in progress. -/
  coreWait : List Nat := []
  /-- Those of them that FENCE.RESET ordered, each with the Strata time of the order. -/
  ordered : Tab Nat := []
  wafer   : Bool := false
  /-- The warden fenced its partition after its hold (R295). -/
  holdReset : Bool := false
  /-- Timer ticks of the recovery during which the warden held no lease (R284, R472). -/
  idle : Nat := 0
  /-- A joined partition's level and "deep not performed", while its entry is not yet returned at every warden (R312, R283 step 6). -/
  done : Option (Nat × Bool) := none
  /-- The step at which a recovery failed while no hub served (R285). -/
  failDue : Option Nat := none
  /-- A power-fail warning stopped the recovery: Fenced until the next start (R285, R331). -/
  barred : Bool := false
deriving DecidableEq, Repr

/-- A bank on its way to power-down (R278): index 0 to 127, whether its idle bit is awaited and since when, and whether
EV_BANK_OFF_WAIT was raised. -/
structure BankOff where
  bank : Nat
  idle : Bool := false
  since : Nat := 0
  told : Bool := false
deriving DecidableEq, Repr

/-- One warden (01) with everything its partition's Alaer state holds. -/
structure Warden where
  alive   : Bool := false
  timer   : Nat := 0
  lease   : Option HubId := none
  lapsed  : Bool := false
  lapseAt : Nat := 0
  /-- Its supply or its interior was lost: out until the next wafer reset (R335, R23). -/
  stopped : Bool := false
  linkBase : Nat := 0
  linkCount : Nat := 0
  map0    : Tab Nat := []
  map1    : Tab Nat := []
  gen     : Bool := false
  valid   : Bool := false
  /-- The output snt_pmap (Table 2.4). -/
  pmap    : BitVec 196 := 0
  batch   : Option (List (Nat × Nat)) := none
  /-- Map changes for this warden that wait at the Primary for the open batch to switch, in the order they came due: a batch, or a
  single entry (R227, R229, R472). -/
  mapDue  : List (Bool × List (Nat × Nat)) := []
  sticky  : List Nat := []
  /-- Entries that the warden itself is to change, which wait for its next lease (R24): site and state. -/
  entryDue : List (Nat × Nat) := []
  cores   : Tab Core := []
  clus    : Tab Clu := []
  swap    : Option Swap := none
  tallies : List Tally := []
  objs    : Tab LocalObj := []
  pend    : List Pend := []
  triages : List Triage := []
  triWait : List Triage := []
  prng    : Tab (BitVec 64) := []
  frac    : Tab Nat := []
  /-- Clusters whose last governor value already counts their probation (R121). -/
  valProb : List Nat := []
  floor   : Nat := 0
  auditThr : Nat := 0
  heldW   : List HeldWork := []
  /-- The inputs wcl_shd_ready_g (Table 2.6), the dispatch queue of each group (R124), whether its last transfer was a pattern beat
  (R188), the pattern buffer, and the beat that the core in the directed phase is to get next (R189). -/
  shdReady : BitVec 20 := 0xFFFFF
  shdQ    : Tab (List Disp) := []
  shdBeat : BitVec 20 := 0
  patBuf  : List Byte := []
  patNext : Option Nat := none
  caps    : List Nat := []
  auditCap : Option Nat := none
  firsts  : List First := []
  /-- Engine rows passed since the last audited row of EXP and NRM (R112). -/
  rowCnt  : Nat := 0
  kdrop   : Recent := {}
  cnt     : PCnt := {}
  scnt    : Tab SCnt := []
  overrun : Recent := {}
  lost    : Tab Lim := []
  posts   : List (Nat × Nat) := []
  nextPost : Nat := 1
  rsn     : Nat := 0
  early   : List (Nat × Nat × Nat × Nat) := []
  evNext  : Nat := 0
  evs     : List (Nat × Ev) := []
  evLost  : Nat := 0
  tfRep   : List (Nat × Nat) := []
  /-- Epochs whose tally has closed, each with a core or engine that has raised EV_POISON_CONSUMED for it (R117). -/
  psnLate : List (Nat × Nat) := []
  droop   : Droop := {}
  ch0     : Chan := {}
  ch1     : Chan := {}
  bankOff : List BankOff := []
  lnkFence : Bool := true
  reset   : Reset := {}
  probation : Bool := false
  fastJoin : Bool := false
  joinedAt : Nat := 0
  /-- The start test of R314: under way, cores tested, cores quarantined, clusters that could not rotate. -/
  startOpen : Bool := false
  /-- The Quarantined cores of the loaded table await their confirmation after the first start test (R225). -/
  confirmDue : Bool := false
  startTested : Nat := 0
  startQuar : Nat := 0
  startNoRot : Nat := 0
  stamps  : List Nat := []
  /-- Debt accrued by the partition, kept for reporting: the 8-byte count of core-hours, and the rest in core-nanoseconds (R199). -/
  debtTot : BitVec 64 := 0
  debtRem : Nat := 0
  directed : Option Nat := none
  dirWait : List Nat := []
  ctrs    : Tab Ctr := []
  cluSum  : Tab Ctr := []
  stallSum : Tab (BitVec 48) := []
  tapBad  : Nat := 0
  /-- Operations of each engine kind with RSLT 0 in the period (R157). -/
  engOps  : Tab Nat := []
  halt    : Option Nat := none
  haltReq : Bool := false
  /-- Of the stop in force: the stamp of Cairn's arrival, the snt_clk edge count of the halt edge, the samples taken there by group, and the
  captures that were incomplete (R386, R389, R390). -/
  cairnAt : Nat := 0
  haltEdge : Nat := 0
  haltPcs : Tab (List (BitVec 64)) := []
  haltCaps : List Nat := []
  pcsPeriod : Nat := 1024
  pcsWait : Tab Nat := []
  pcsNum  : BitVec 8 := 0
  /-- The timer at the last sample pulse. -/
  pcsAt   : Nat := 0
  /-- Sample sets superseded by a Cairn raise (R374). -/
  pcsOver : Nat := 0
  trcOn   : BitVec 3 := 0
  ccOn    : BitVec 4 := 0
  staging : List TRec := []
  stagOcc : Nat := 0
  losses  : List Loss := []
  failed  : Bool := false
  switches : Nat := 0
  switchRep : Bool := false
deriving DecidableEq, Repr

/-! ## Messages and outputs -/

/-- Messages in flight on the Vein or the peer link that a row of the table delivers. -/
inductive Msg where
  | arrival (p obj epoch : Nat)
  | post (p num obj : Nat)
  | wait (p obj epoch : Nat)
  | query (p obj epoch : Nat)
  | clean (p epoch attempt : Nat)
  | failure (p epoch : Nat) (r : FailRep)
  | release (p obj epoch rsn prev : Nat)
  | tclose (p epoch : Nat)
  | postAck (p num : Nat)
  | triage (p tid epoch : Nat) (clearable input : Bool) (charged : List Nat)
  | engTriage (p tid epoch : Nat)
  | clear (p epoch : Nat) (tids : List Nat)
  | replay (p obj epoch attempt : Nat)
  | sentry (p site st : Nat)
  | switched (p : Nat) (batch : Bool) (entries : List (Nat × Nat))
  | frac (p cluster s : Nat)
  | claim (h : HubId) (p : Nat)
  | renew (h : HubId) (p : Nat)
  | grant (p cid : Nat)
  | verdict (p cid : Nat)
  | tfAck (p epoch : Nat)
  | evAck (p num : Nat)
  | halted (p stamp : Nat)
  | resume (p : Nat)
  | cairn (node : Nat)
  | capture (cid : Nat)
deriving DecidableEq, Repr

/-- Transactions Alaer puts on its output channels (02). -/
inductive Out where
  | rel (p obj : Nat) (twice : Bool)
  | disp (p g kind dst tile : Nat)
  | push (p src ans : Nat)
  | answer (p ch : Nat) (ans : BitVec 2)
  | swapReq (p cluster src_ dst : Nat)
  | remap (p cluster slot pos : Nat)
  | test (p src slice : Nat)
  | rst (p cluster slot : Nat)
  | capture (p site id : Nat)
  /-- A warden orders the firmware image in its partition's shared memory over wcl_cap: `len` bytes from `off` (Table 12.6). -/
  | image (p off len : Nat)
  /-- A warden asks over wcl_cap for the channel state of every inbound border link of its halted partition (R387). -/
  | channels (p : Nat)
  /-- A warden orders the scratch of a core over wcl_cap (R387). -/
  | scratch (p site : Nat)
  | key (p m ctx tag op beat : Nat) (data : BitVec 128)
  | scrub (p m page count : Nat)
  | train (j : Nat) (max : BitVec 2)
  | retrain (j : Nat)
  | pcs (p : Nat) (held : Bool)
  | frame (h : HubId) (lane : Nat) (bytes : List Byte)
  | flit (node port : Nat) (f : Flit)
  | deliver (node : Nat) (f : Flit)
  | peerProbe (h : HubId)
  | cairn (node : Nat)
  /-- The Control flits that load the detour route table of a node (R29). -/
  | detour (node : Nat)
  /-- snt_pmap of a warden (Table 2.4). -/
  | pmap (p : Nat) (value : BitVec 196)
  /-- A read response on a command port: cmd_resp, the address and cmd_rdata (Table 2.3). -/
  | read (h : HubId) (resp addr : Nat) (data : BitVec 64)
deriving DecidableEq, Repr

/-! ## The state -/

/-- The state of the block. -/
structure State where
  /-- Commands waiting, first in first out. -/
  pending : List Instr := []
  /-- The model's own: how many open values have been read (log entry 4). -/
  free    : Nat := 0
  hubA    : Hub := {}
  hubB    : Hub := {}
  wardens : Tab Warden := []
  cmd     : Interp := {}
  sync    : Sync := {}
  defects : Defects := {}
  quarry  : Quarry := {}
  test    : TestCfg := {}
  gov     : Governor := {}
  tst     : Tstone := {}
  strata  : StrataB := {}
  keys    : Keys := {}
  boot    : Boot := {}
  links   : Tab Link := []
  cairn   : Cairn := {}
  vein    : Vein := {}
  mir     : Mirror := {}
  /-- Messages in flight. -/
  net     : List Msg := []
  /-- The model's own: every transaction put on an output channel, newest first (log entry 12). -/
  outs    : List Out := []
deriving DecidableEq, Repr

/-- The state right after reset: every field at its default. -/
def State.reset : State := {}

end Sys2Proof.Machine
end

