-- ==== Sys2Proof/Machine/Tab.lean ====
section
/-! DEFINITION. Operations on sparse tables by key: the named reads and writes every other file uses. -/

namespace Sys2Proof.Machine
open Sys2Proof

/-- The entry of a key, if listed. -/
def tfind {α : Type} : Tab α → Nat → Option α
  | [], _ => none
  | (j, v) :: t, k => if j = k then some v else tfind t k

/-- What a key reads as: its entry, or the default `d`. -/
def tget {α : Type} (d : α) (t : Tab α) (k : Nat) : α := (tfind t k).getD d

/-- The table with key `k` holding `v`, keys kept in rising order. -/
def tset {α : Type} : Tab α → Nat → α → Tab α
  | [], k, v => [(k, v)]
  | (j, w) :: t, k, v =>
    if k = j then (k, v) :: t
    else if k < j then (k, v) :: (j, w) :: t
    else (j, w) :: tset t k v

/-- The table without key `k`. -/
def tdel {α : Type} (t : Tab α) (k : Nat) : Tab α := t.filter (fun e => e.1 != k)

/-- Write in canonical form: the default removes the entry. -/
def tput {α : Type} [DecidableEq α] (d : α) (t : Tab α) (k : Nat) (v : α) : Tab α :=
  if v = d then tdel t k else tset (tdel t k) k v

/-- Change one entry by a function of what it reads as. -/
def tmod {α : Type} (d : α) (t : Tab α) (k : Nat) (f : α → α) : Tab α := tset t k (f (tget d t k))

/-- Add to a counter held in a table. -/
def tadd (t : Tab Nat) (k n : Nat) : Tab Nat := tmod 0 t k (· + n)

/-- Canonical form of a table with default `d`: rising keys, no entry equal to the default. -/
def tabWf {α : Type} [DecidableEq α] (d : α) : Tab α → Bool
  | [] => true
  | (j, v) :: t => decide (v ≠ d) && t.all (fun e => decide (j < e.1)) && tabWf d t

/-- Is any key at all listed in range? The first key from `k` for `n` keys that a predicate admits. -/
def firstKey (p : Nat → Bool) : (k n : Nat) → Option Nat
  | _, 0 => none
  | k, n + 1 => if p k then some k else firstKey p (k + 1) n

/-- Fold a state change over a list. -/
def forEach {σ α : Type} (l : List α) (f : α → σ → σ) (s : σ) : σ := l.foldl (fun s a => f a s) s

/-- Keep the newest `n` of a list that grows at its end. -/
def lastN {α : Type} (n : Nat) (l : List α) : List α := l.drop (l.length - n)

/-- Add an element once. -/
def insertOnce {α : Type} [DecidableEq α] (l : List α) (a : α) : List α := if a ∈ l then l else l ++ [a]

end Sys2Proof.Machine
end

