-- ==== Sys2Proof/Machine/Bytes.lean ====
section
/-! DEFINITION. Byte strings: little-endian fields (R417), CRC-32C (R100, R394), bit sets. -/

namespace Sys2Proof.Machine
open Sys2Proof

/-- `n` little-endian bytes of a number. -/
def leBytes : (n v : Nat) → List Byte
  | 0, _ => []
  | n + 1, v => BitVec.ofNat 8 v :: leBytes n (v / 256)

/-- The number a byte string gives, little-endian. -/
def leNat : List Byte → Nat
  | [] => 0
  | b :: t => b.toNat + 256 * leNat t

/-- The bytes from `off` for `n`; bytes past the end read 0. -/
def slice (l : List Byte) (off n : Nat) : List Byte :=
  let t := (l.drop off).take n
  t ++ List.replicate (n - t.length) 0

/-- A little-endian field of a byte string. -/
def fieldAt (l : List Byte) (off n : Nat) : Nat := leNat (slice l off n)

/-- Are the bytes from `off` for `n` all 0? -/
def zeroAt (l : List Byte) (off n : Nat) : Bool := (slice l off n).all (fun b => b == 0)

/-- One byte into a CRC-32C register, eight bit steps of the reflected polynomial. -/
def crcByte (r : BitVec 32) (b : Byte) : BitVec 32 :=
  let r0 := r ^^^ b.setWidth 32
  (List.range 8).foldl (fun r _ => if r.getLsbD 0 then (r >>> 1) ^^^ 0x82F63B78#32 else r >>> 1) r0

/-- CRC-32C: initial value 0xFFFF_FFFF and final XOR with 0xFFFF_FFFF (R100). -/
def crc32c (l : List Byte) : BitVec 32 := (l.foldl crcByte 0xFFFFFFFF#32) ^^^ 0xFFFFFFFF#32

/-- One byte through the self-synchronising scrambler x^58 + x^39 + 1, least significant bit first: the register, which
holds the last 58 bits sent with the newest in bit 0, and the byte that leaves (R383). -/
def scrambleByte (r : BitVec 58) (b : Byte) : BitVec 58 × Byte :=
  (List.range 8).foldl (fun a i =>
    let o := (b.getLsbD i ^^ a.1.getLsbD 38) ^^ a.1.getLsbD 57
    ((a.1 <<< 1) ||| (if o then 1#58 else 0#58), a.2 ||| (if o then 1#8 <<< i else 0#8))) (r, 0#8)

/-- A byte string through the scrambler (R383). -/
def scramble : BitVec 58 → List Byte → BitVec 58 × List Byte
  | r, [] => (r, [])
  | r, b :: t =>
    let x := scrambleByte r b
    let y := scramble x.1 t
    (y.1, x.2 :: y.2)

/-- A number put into an ascending list. -/
def insertNat (x : Nat) : List Nat → List Nat
  | [] => [x]
  | y :: r => if x ≤ y then x :: y :: r else y :: insertNat x r

/-- A list of numbers in ascending order. -/
def sortNat (l : List Nat) : List Nat := l.foldr insertNat []

/-- The set bits of a mask below `n`, ascending. -/
def bitsOf {w : Nat} (m : BitVec w) (n : Nat) : List Nat := (List.range n).filter (fun i => m.getLsbD i)

/-- The mask with the bits of a list set. -/
def maskOf (w : Nat) (l : List Nat) : BitVec w := l.foldl (fun m i => m ||| (1#w <<< i)) 0#w

/-- One bit of a mask set or cleared. -/
def setBit {w : Nat} (m : BitVec w) (i : Nat) (v : Bool) : BitVec w :=
  if v then m ||| (1#w <<< i) else m &&& ~~~(1#w <<< i)

/-- A number that saturates at a limit. -/
def satTo (lim n : Nat) : Nat := min lim n

/-- Pad or cut a byte string to `n` bytes. -/
def padTo (n : Nat) (l : List Byte) : List Byte := slice l 0 n

/-- A natural number as a 64-bit word. -/
def w64 (n : Nat) : BitVec 64 := BitVec.ofNat 64 n

/-- Replace the bytes of a 64-bit word that its byte enables name (R43). -/
def mergeBytes (old new : BitVec 64) (strb : BitVec 8) : BitVec 64 :=
  (List.range 8).foldl
    (fun w i => if strb.getLsbD i then (w &&& ~~~(0xFF#64 <<< (8 * i))) ||| (new &&& (0xFF#64 <<< (8 * i))) else w) old

end Sys2Proof.Machine
end

