-- ==== Sys2Proof/Machine/Identity.lean ====
section
/-! DEFINITION. Firmware manifests and slots (R300, R308), and the keys a hub derives at its start (R338 to R341). -/

namespace Sys2Proof.Machine
open Sys2Proof

/-! ### Manifests (R300, R308) -/

/-- Bytes of a manifest without an image. -/
def manifestLen (b : List Byte) : Nat := 132 + fieldAt b 128 4 + 96

/-- Fields of a manifest of a kind in range, reserved ones 0; `total` is the length of the object. -/
def manifestFields (kind total : Nat) (b : List Byte) : Bool :=
  let len := fieldAt b 16 4
  let off := fieldAt b 20 4
  decide (fieldAt b 0 4 = 0x4D465354) && decide (fieldAt b 4 2 = 1) && decide (fieldAt b 6 1 = kind) && zeroAt b 7 1 && zeroAt b 14 2 &&
  zeroAt b 72 56 && decide (1 ≤ fieldAt b 128 4) && decide (fieldAt b 128 4 ≤ 4096) &&
  (if kind = 1 then
    decide (1 ≤ len) && decide (len ≤ 4194304) && decide (off % 4096 = 0) && decide (off + len ≤ 96 * 1048576) && decide (total = manifestLen b)
   else
    decide (fieldAt b 12 2 = 0) && decide (off = 0) && decide (manifestLen b + len ≤ 1048576) && decide (total = manifestLen b + len))

/-- The first failing check of R300 on an object, 0 where all pass: 1 format, 2 signature, 3 chain. -/
def manifestFault (kind : Nat) (b : List Byte) : Nat :=
  let n := manifestLen b
  let cert := slice b 132 (fieldAt b 128 4)
  if !manifestFields kind b.length b then 1
  else if !Config.sigVerifies (b.take (n - 96)) cert (slice b (n - 96) 96) then 2
  else if !Config.chainOk cert then 3
  else 0

/-- DIGEST of a manifest as a number, first byte lowest. -/
def manifestDigest (b : List Byte) : BitVec 384 := BitVec.ofNat 384 (fieldAt b 24 48)

/-- The first failing check of R300 on a firmware slot's content, a manifest of KIND 0 followed by its image: 5 is the digest. -/
def imageFault (b : List Byte) : Nat :=
  let f := manifestFault 0 b
  if f ≠ 0 then f else if Config.sha384 (b.drop (manifestLen b)) ≠ manifestDigest b then 5 else 0

/-! ### Keys derived at start (Table 14.1, R339, R341) -/

/-- The order of P-384. -/
def p384Order : Nat := 0xFFFFFFFFFFFFFFFFFFFFFFFFFFFFFFFFFFFFFFFFFFFFFFFFC7634D81F4372DDF581A0DB248B0A77AECEC196ACCC52973

/-- The ASCII bytes of the info strings "alaer id", "alaer ka", "alaer st" and "alaer wrap". -/
def infoId : List Byte := [0x61, 0x6C, 0x61, 0x65, 0x72, 0x20, 0x69, 0x64]
def infoKa : List Byte := [0x61, 0x6C, 0x61, 0x65, 0x72, 0x20, 0x6B, 0x61]
def infoSt : List Byte := [0x61, 0x6C, 0x61, 0x65, 0x72, 0x20, 0x73, 0x74]
def infoWrap : List Byte := [0x61, 0x6C, 0x61, 0x65, 0x72, 0x20, 0x77, 0x72, 0x61, 0x70]

/-- The salt of 48 zero bytes. -/
def zeroSalt : List Byte := List.replicate 48 0

/-- The seed of a hub: its unclonable function's response, corrected with the helper data of its identity region (R338). -/
def seedOf (b : Bool) : List Byte := Config.pufCorrect (Config.pufResponse b) (Config.pufHelper b)

/-- A key derived from the seed (Table 14.1). -/
def fromSeed (b : Bool) (info : List Byte) (n : Nat) : List Byte := Config.hkdf zeroSalt (seedOf b) info n

/-- A 48-byte output read as a big-endian integer (R339). -/
def bigNat (l : List Byte) : Nat := leNat l.reverse

/-- The first output in range of a derivation with the counter bytes from `i` on, `n` of them left. -/
def scalarFrom (b : Bool) (info : List Byte) : Nat → Nat → Option Nat
  | 0, _ => none
  | n + 1, i =>
    let v := bigNat (fromSeed b (info ++ [BitVec.ofNat 8 i]) 48)
    if 0 < v ∧ v < p384Order then some v else scalarFrom b info n (i + 1)

/-- A private scalar (R339): the 48-byte output as a big-endian integer; where that is 0 or not below the order of P-384, the first
in range of the derivations with one counter byte 0x01, 0x02 and so on. A counter byte has 255 such values; none after them. -/
def privateScalar (b : Bool) (info : List Byte) : Option Nat :=
  let v := bigNat (fromSeed b info 48)
  if 0 < v ∧ v < p384Order then some v else scalarFrom b info 255 1

/-- The key ID of a public key: the first 8 bytes of its digest, whose first byte is the lowest (R202, R341). -/
def publicKeyId (key : List Byte) : BitVec 64 := (Config.sha384 key).setWidth 64

/-- The key ID of a certificate's public key. -/
def certKeyId (cert : List Byte) : BitVec 64 := publicKeyId (Config.certKey cert)

/-- The key ID of a derived key pair. -/
def scalarKeyId (b : Bool) (info : List Byte) : BitVec 64 :=
  match privateScalar b info with
  | some v => publicKeyId (Config.p384Public v)
  | none => 0

/-- A hub's identity and agreement key IDs: the same at every start (R339, R341). -/
def idKeyId (b : Bool) : BitVec 64 := scalarKeyId b infoId
def agKeyIdOf (b : Bool) : BitVec 64 := scalarKeyId b infoKa

/-- The signature of a hub's identity key over a digest (R208, R342). -/
def signAs (b : Bool) (digest : BitVec 384) : List Byte := Config.ecdsa ((privateScalar b infoId).getD 0) digest

/-- The derived identity public key is the one in the hub's own certificate, and the chain verifies (R340). -/
def identityOk (b : Bool) : Bool :=
  (privateScalar b infoId).any (fun v => decide (Config.certKey (Config.hubChain b) = Config.p384Public v)) && Config.chainOk (Config.hubChain b)

/-- The agreement certificate a hub issues itself at its start (R341): for the agreement public key, signed by the identity key, valid from
2000-01-01 to 9999-12-31. -/
def agreeCert (b : Bool) : List Byte :=
  Config.issueCert ((privateScalar b infoId).getD 0) (Config.p384Public ((privateScalar b infoKa).getD 0)) 20000101 99991231

/-- The storage key (Table 14.1). -/
def storageKey (b : Bool) : List Byte := fromSeed b infoSt 32

/-- A hub decrypts its own root-key record (R343): the memory root key, then the link root key, 32 bytes each. -/
def openRoots (b : Bool) : Option (List Byte) :=
  let r := Config.rootRecord b
  if fieldAt r 0 8 ≠ (idKeyId b).toNat then none
  else Config.gcmOpen (storageKey b) (slice r 8 12) (leBytes 2 0x0062 ++ leBytes 2 0x0B01 ++ slice r 0 8) (slice r 20 64) (slice r 84 16)

/-- A content key from a record of a wrapped-key blob (R354, R355): the ephemeral key is a point of P-384, the record's tag holds under the
key derived from Z, the CID and the recipient's key ID, and the two halves of the content key differ. -/
def unwrapRec (b : Bool) (blob rec : List Byte) : Option (BitVec 512) :=
  let z := Config.ecdhX ((privateScalar b infoKa).getD 0) (slice rec 8 97)
  let kek := Config.hkdf (slice blob 8 16) z (infoWrap ++ slice rec 0 8) 32
  if !Config.onP384 (slice rec 8 97) then none
  else match Config.gcmOpen kek (slice rec 105 12) (slice blob 0 32) (slice rec 117 64) (slice rec 181 16) with
    | some k => if slice k 0 32 = slice k 32 32 then none else some (BitVec.ofNat 512 (leNat k))
    | none => none

/-! ### Profile blobs (Table 12.7, R316, R317) -/

/-- A binary32 number that is positive and finite, as a rational. -/
def f32Value (n : Nat) : Rat :=
  let e := n / 8388608 % 256
  let m := n % 8388608
  if e = 0 then (m : Rat) / 2 ^ 149 else ((8388608 + m : Nat) : Rat) * 2 ^ e / 2 ^ 150

/-- Bytes 0 to 63 of a blob lie in range, the reserved ones 0. -/
def profileFields (id : Nat) (b : List Byte) : Bool :=
  decide (fieldAt b 0 4 = 0x50464C45) && decide (fieldAt b 4 2 = 1) && decide (fieldAt b 6 1 = id) && zeroAt b 7 1 &&
  decide (0 < fieldAt b 8 4) && decide (fieldAt b 8 4 < 0x7F800000) && decide (fieldAt b 12 1 ≤ fieldAt b 13 1) && decide (fieldAt b 13 1 ≤ 32) &&
  decide (fieldAt b 14 1 ≤ 1) && decide (fieldAt b 15 1 ≤ 8) && decide (1 ≤ fieldAt b 16 2) && decide (fieldAt b 16 2 ≤ 1000) &&
  decide (fieldAt b 18 2 < fieldAt b 16 2) && zeroAt b 20 44

/-- The profile that a blob carries. -/
def profileIn (b : List Byte) : Profile :=
  { id := fieldAt b 6 1, target := f32Value (fieldAt b 8 4), floor := fieldAt b 12 1, ceil := fieldAt b 13 1, target_on := decide (fieldAt b 14 1 % 2 = 1)
    audit := fieldAt b 15 1, raise := fieldAt b 16 2, lower := fieldAt b 18 2 }

/-- The first failing check of R300 on the blob of an ID, 0 where all pass: 1 format, 2 signature, 3 chain. -/
def profileFault (id : Nat) (head : List Byte) : Nat :=
  let cert := Config.profileCert id
  if !profileFields id head || decide (cert.length = 0) || decide (4096 < cert.length) then 1
  else if !Config.sigVerifies (head ++ leBytes 4 cert.length ++ cert) cert (Config.profileSig id) then 2
  else if !Config.chainOk cert then 3
  else 0

end Sys2Proof.Machine
end

