-- ==== Sys2Proof/Machine/Num.lean ====
section
/-! DEFINITION. Exact numbers and their rounding: powers of two, rounding of a rational to an integer, and the
binary32 and binary64 encodings. -/

namespace Sys2Proof.Machine

/-- Rounding modes: nearest even, toward zero, up, down. -/
inductive Rnd where
  | nearest | zero | up | down
deriving DecidableEq, Repr

/-- 2^k for an integer k. -/
def pow2 (k : Int) : Rat := if 0 ≤ k then ((2 ^ k.toNat : Nat) : Rat) else 1 / ((2 ^ (-k).toNat : Nat) : Rat)

def ratAbs (q : Rat) : Rat := if q < 0 then -q else q

/-- The integer k with 2^k ≤ |q| < 2^(k+1), for q other than 0. -/
def ratLog2 (q : Rat) : Int :=
  let k : Int := (Nat.log2 q.num.natAbs : Int) - (Nat.log2 q.den : Int)
  if pow2 k ≤ ratAbs q then k else k - 1

/-- An integer from a rational in a rounding mode. -/
def ratRound (m : Rnd) (q : Rat) : Int :=
  let f := q.floor
  let d := q - (f : Rat)
  if d = 0 then f
  else
    match m with
    | .down => f
    | .up => f + 1
    | .zero => if q < 0 then f + 1 else f
    | .nearest => if d < 1 / 2 then f else if 1 / 2 < d then f + 1 else if f % 2 = 0 then f else f + 1

/-- |q| in units of 2^(e - p + 1), rounded: `p` significant bits, lowest exponent `emin`. Answers the integer and the
exponent of its unit. -/
def ratToBits (m : Rnd) (p : Nat) (emin : Int) (q : Rat) : Int × Int :=
  if q = 0 then (0, emin - p + 1)
  else
    let e := max (ratLog2 q) emin
    (ratRound m (q / pow2 (e - p + 1)), e - p + 1)

/-- Round to `p` significant bits with lowest exponent `emin`, no upper limit. -/
def ratRoundP (m : Rnd) (p : Nat) (emin : Int) (q : Rat) : Rat :=
  let r := ratToBits m p emin q
  (r.1 : Rat) * pow2 r.2

/-- Integer square root, bit by bit. -/
def isqrt (n : Nat) : Nat :=
  (List.range 160).foldr (fun i r => let t := r + 2 ^ i; if t * t ≤ n then t else r) 0

/-- Square root of a rational from below, to 2^-96. -/
def ratSqrt (q : Rat) : Rat := ((isqrt ((q * pow2 192).floor.toNat) : Nat) : Rat) * pow2 (-96)

/-- A number to 192 significant bits, from below. -/
def round192 (q : Rat) : Rat := ratRoundP .down 192 (-200000) q

/-- e^t from below for 0 ≤ t ≤ 1/2: 32 terms of its series. -/
def expSmall (t : Rat) : Rat :=
  (List.range 32).foldr (fun i a => round192 (1 + t / ((i + 1 : Nat) : Rat) * a)) 1

/-- e^x from below for 0 ≤ x < 2^14: fifteen halvings, and as many squarings. -/
def expBelow (x : Rat) : Rat := (List.range 15).foldl (fun y _ => round192 (y * y)) (expSmall (x / 32768))

/-- e^x for |x| < 2^14, within a relative error of 2^-120. -/
def expOf (x : Rat) : Rat := if 0 ≤ x then expBelow x else 1 / expBelow (-x)

/-- ln 2 to 60 decimal places. -/
def ln2 : Rat := 693147180559945309417232121458176568075500134360255254120680 / 1000000000000000000000000000000000000000000000000000000000000

/-- 2^(-n / d) for d above 0, within a relative error of 2^-120; exact where d divides n. -/
def halfPow (n d : Nat) : Rat :=
  let w := pow2 (-((n / d : Nat) : Int))
  if n % d = 0 then w else w / expBelow (((n % d : Nat) : Rat) / d * ln2)

/-- A candidate where it lies within a relative error of a number, else the number. -/
def nearly (eps c w : Rat) : Rat := if ratAbs (c - w) ≤ eps * ratAbs w then c else w

/-- The bits of the magnitude of a binary format with `f` fraction bits and bias `b`, nearest even. -/
def ratMagBits (f b : Nat) (q : Rat) : Nat :=
  if q = 0 then 0
  else
    let e := max (ratLog2 q) (1 - (b : Int))
    let m := ratRound .nearest (ratAbs q / pow2 (e - f))
    min (((e + b - 1).toNat) * 2 ^ f + m.toNat) ((2 * b + 1) * 2 ^ f)

/-- binary32 of a rational (R395, R428), nearest even; beyond the range, infinity. -/
def f32 (q : Rat) : BitVec 32 :=
  BitVec.ofNat 32 ((if q < 0 then 2147483648 else 0) + ratMagBits 23 127 q)

/-- binary32 as a number for a field. -/
def f32n (q : Rat) : Nat := (f32 q).toNat

/-- binary64 of a rational, nearest even. -/
def f64 (q : Rat) : BitVec 64 :=
  BitVec.ofNat 64 ((if q < 0 then 9223372036854775808 else 0) + ratMagBits 52 1023 q)

end Sys2Proof.Machine
end

