-- ==== Sys2Proof/Machine/Float.lean ====
section
/-! DEFINITION. The number formats of Tables 4.2 and 6.4 and the extended values of R164: decoding, encoding, arithmetic. -/

namespace Sys2Proof.Machine

/-- A value of a format: finite with its sign (so that zeros keep theirs), infinite, or NaN. -/
inductive Fl where
  | fin (neg : Bool) (mag : Rat)
  | inf (neg : Bool)
  | nan
deriving DecidableEq, Repr

/-- The signed value of a finite one; 0 for the others. -/
def Fl.val (x : Fl) : Rat := match x with | .fin true m => -m | .fin false m => m | _ => 0

def Fl.isFin (x : Fl) : Bool := match x with | .fin _ _ => true | _ => false

/-- A binary format with `e` exponent bits and `f` fraction bits, IEEE infinities and NaNs. -/
def decodeIeee (e f : Nat) (b : Nat) : Fl :=
  let neg := b.testBit (e + f)
  let ex := b / 2 ^ f % 2 ^ e
  let fr := b % 2 ^ f
  let bias : Int := 2 ^ (e - 1) - 1
  if ex = 2 ^ e - 1 then (if fr = 0 then .inf neg else .nan)
  else if ex = 0 then .fin neg ((fr : Rat) * pow2 (1 - bias - f))
  else .fin neg (((2 ^ f + fr : Nat) : Rat) * pow2 ((ex : Int) - bias - f))

/-- OCP FP8 E4M3: no infinities; S.1111.111 is NaN. -/
def decodeE4m3 (b : Nat) : Fl :=
  let neg := b.testBit 7
  let ex := b / 8 % 16
  let fr := b % 8
  if ex = 15 ∧ fr = 7 then .nan
  else if ex = 0 then .fin neg ((fr : Rat) * pow2 (-9))
  else .fin neg (((8 + fr : Nat) : Rat) * pow2 ((ex : Int) - 10))

/-- A two's-complement integer of `w` bits. -/
def decodeInt (w b : Nat) : Fl :=
  let v : Int := if (b % 2 ^ w).testBit (w - 1) then (b % 2 ^ w : Int) - 2 ^ w else (b % 2 ^ w : Int)
  if v < 0 then .fin true ((-v : Int) : Rat) else .fin false ((v : Int) : Rat)

/-- Bytes of an element of a type code of Table 6.4. -/
def tySize (ty : Nat) : Nat :=
  match ty with | 0 => 4 | 1 => 2 | 2 => 2 | 3 => 1 | 4 => 1 | 5 => 1 | 6 => 2 | 7 => 4 | _ => 8

/-- An element of a type code of Table 6.4. -/
def decodeTy (ty b : Nat) : Fl :=
  match ty with
  | 0 => decodeIeee 8 23 b
  | 1 => decodeIeee 5 10 b
  | 2 => decodeIeee 8 7 b
  | 3 => decodeE4m3 b
  | 4 => decodeIeee 5 2 b
  | 5 => decodeInt 8 b
  | 6 => decodeInt 16 b
  | 7 => decodeInt 32 b
  | _ => decodeInt 48 b

/-- The largest finite magnitude of an output format of Table 6.4. -/
def tyMax (ty : Nat) : Rat :=
  match ty with
  | 0 => (2 - pow2 (-23)) * pow2 127
  | 1 => 65504
  | 2 => (2 - pow2 (-7)) * pow2 127
  | 3 => 448
  | 4 => 57344
  | 5 => 127 | 6 => 32767 | 7 => 2147483647 | _ => 140737488355327

/-! ### Extended values (R164) -/

def extInf (neg : Bool) : BitVec 80 := if neg then 0xFFFF8000000000000000#80 else 0x7FFF8000000000000000#80
def extNan : BitVec 80 := 0x7FFFC000000000000000#80
def extZero (neg : Bool) : BitVec 80 := if neg then 0x80000000000000000000#80 else 0#80

/-- An extended value's meaning. -/
def extVal (v : BitVec 80) : Fl :=
  let neg := v.getLsbD 79
  let ex : Nat := v.toNat / 2 ^ 64 % 32768
  let sg : Nat := v.toNat % 2 ^ 64
  if ex = 32767 then (if sg % 2 ^ 63 = 0 then .inf neg else .nan)
  else .fin neg ((sg : Rat) * pow2 (((max ex 1 : Nat) : Int) - 16383 - 63))

/-- The RND field (R164): 00 nearest, 01 up, 10 down. -/
def rndOf (r : BitVec 2) : Rnd := if r = 0 then .nearest else if r = 1 then .up else if r = 2 then .down else .nearest

/-- The rounding of a magnitude, for a negative value mirrored. -/
def rndMag (m : Rnd) (neg : Bool) : Rnd :=
  match m, neg with | .up, true => .down | .down, true => .up | m, _ => m

/-- Round a magnitude into an extended value. -/
def extOfMag (m : Rnd) (neg : Bool) (q : Rat) : BitVec 80 :=
  if q = 0 then extZero neg
  else
    let md := rndMag m neg
    let e := max (ratLog2 q) (-16382)
    let r := (ratRound md (q / pow2 (e - 63))).toNat
    let r' := if r = 2 ^ 64 then 2 ^ 63 else r
    let e' := if r = 2 ^ 64 then e + 1 else e
    if 16383 < e' then
      (if md = .down ∨ md = .zero then (if neg then 0xFFFEFFFFFFFFFFFFFFFF#80 else 0x7FFEFFFFFFFFFFFFFFFF#80)
       else extInf neg)
    else
      BitVec.ofNat 80 ((if neg then 2 ^ 79 else 0) + (if r' < 2 ^ 63 then 0 else (e' + 16383).toNat) * 2 ^ 64 + r')

/-- An extended value of a number in a rounding mode. -/
def extOf (m : Rnd) (x : Fl) : BitVec 80 :=
  match x with
  | .fin neg q => extOfMag m neg q
  | .inf neg => extInf neg
  | .nan => extNan

/-- An exact signed result: a zero sum takes + except when rounding down (IEEE 754). -/
def extOfRat (m : Rnd) (q : Rat) : BitVec 80 :=
  if q = 0 then extZero (decide (m = .down)) else extOfMag m (decide (q < 0)) (ratAbs q)

def extNeg (v : BitVec 80) : BitVec 80 := v ^^^ 0x80000000000000000000#80

/-- Sum under IEEE 754 rules. -/
def extAdd (m : Rnd) (a b : BitVec 80) : BitVec 80 :=
  match extVal a, extVal b with
  | .nan, _ => extNan
  | _, .nan => extNan
  | .inf x, .inf y => if x = y then extInf x else extNan
  | .inf x, _ => extInf x
  | _, .inf y => extInf y
  | .fin x p, .fin y q =>
    if p = 0 ∧ q = 0 ∧ x = y then extZero x
    else extOfRat m ((Fl.fin x p).val + (Fl.fin y q).val)

/-- Product under IEEE 754 rules. -/
def extMul (m : Rnd) (a b : BitVec 80) : BitVec 80 :=
  match extVal a, extVal b with
  | .nan, _ => extNan
  | _, .nan => extNan
  | .inf x, .inf y => extInf (x != y)
  | .inf x, .fin y q => if q = 0 then extNan else extInf (x != y)
  | .fin x p, .inf y => if p = 0 then extNan else extInf (x != y)
  | .fin x p, .fin y q => extOfMag m (x != y) (p * q)

/-- a ≤ b with neither NaN. -/
def extLe (a b : Fl) : Bool :=
  match a, b with
  | .nan, _ => false
  | _, .nan => false
  | .inf true, _ => true
  | _, .inf false => true
  | .inf false, _ => false
  | _, .inf true => false
  | x, y => decide (x.val ≤ y.val)

/-- ε_ref = 2^-58 (R139). -/
def epsRef : Rat := pow2 (-58)

/-- The unit's reciprocal: its candidate where that meets ε_ref, else the correctly rounded value (log entry 8). -/
def extRecip (v : BitVec 80) : BitVec 80 :=
  match extVal v with
  | .nan => extNan
  | .inf n => extZero n
  | .fin n q =>
    if q = 0 then extInf n
    else
      let c := Config.vRecip v
      match extVal c with
      | .fin n' r => if n' = n ∧ ratAbs (r * q - 1) ≤ epsRef then c else extOfMag .nearest n (1 / q)
      | _ => extOfMag .nearest n (1 / q)

/-- The unit's square root, in the same way. -/
def extSqrt (v : BitVec 80) : BitVec 80 :=
  match extVal v with
  | .nan => extNan
  | .inf n => if n then extNan else extInf false
  | .fin n q =>
    if q = 0 then extZero n
    else if n then extNan
    else
      let k : Int := 140 - ratLog2 q
      let k2 : Int := k + k % 2
      let root : Rat := ((isqrt ((q * pow2 k2).floor.toNat) : Nat) : Rat) * pow2 (-(k2 / 2))
      let c := Config.vSqrt v
      match extVal c with
      | .fin false r =>
        if (1 - epsRef) * (1 - epsRef) * q ≤ r * r ∧ r * r ≤ (1 + epsRef) * (1 + epsRef) * q then c
        else extOfMag .nearest false root
      | _ => extOfMag .nearest false root

/-- The unit's exponential, in the same way; beyond the range of the extended exponent, infinity or zero. -/
def extExp (v : BitVec 80) : BitVec 80 :=
  match extVal v with
  | .nan => extNan
  | .inf n => if n then extZero false else extInf false
  | .fin n q =>
    if 12000 ≤ q then (if n then extZero false else extInf false)
    else
      let w := expOf (Fl.fin n q).val
      let c := Config.vExp v
      match extVal c with
      | .fin false r => if ratAbs (r - w) ≤ (epsRef - pow2 (-110)) * w then c else extOfMag .nearest false w
      | _ => extOfMag .nearest false w

/-- binary32 of a value, nearest even, NaN as 0x7FC0_0000 (Table 7.4). -/
def f32Fl (x : Fl) : BitVec 32 :=
  match x with
  | .fin neg q => BitVec.ofNat 32 ((if neg then 2147483648 else 0) + ratMagBits 23 127 q)
  | .inf neg => if neg then 0xFF800000#32 else 0x7F800000#32
  | .nan => 0x7FC00000#32

end Sys2Proof.Machine
end

