-- ==== Sys2Proof/Machine/Site.lean ====
section
/-! DEFINITION. Site codes (R10 to R12, Tables 0.5 and 0.6), core states (R13), the Vein grid (R25). -/

namespace Sys2Proof.Machine
open Sys2Proof

/-- Compose a site code from its fields (Table 0.5). -/
def siteOf (part cluster slot unit : Nat) : Nat := part * 33554432 + cluster * 32768 + slot * 1024 + unit

def sitePart (s : Nat) : Nat := s / 33554432 % 128
def siteCluster (s : Nat) : Nat := s / 32768 % 1024
def siteSlot (s : Nat) : Nat := s / 1024 % 32
def siteUnit (s : Nat) : Nat := s % 1024
/-- The source field [24:10] of a site: cluster then slot (02). -/
def siteSrc (s : Nat) : Nat := s / 1024 % 32768
def siteKind (s : Nat) : Nat := siteUnit s / 128
def siteIdx (s : Nat) : Nat := siteUnit s % 128

/-- The whole-partition site. -/
def partSite (p : Nat) : Nat := siteOf p 0x3FF 0x1F 0x3FF
/-- The whole-cluster site. -/
def clusterSite (p c : Nat) : Nat := siteOf p c 0x1F 0x3FF
/-- The whole-core site of a physical position. -/
def coreSite (p src : Nat) : Nat := siteOf p (src / 32) (src % 32) 0x3FF
/-- A partition-level resource of a kind and index (Table 0.6). -/
def unitSite (p kind idx : Nat) : Nat := siteOf p 0x3FE 0x1F (kind * 128 + idx)
def engineSite (p idx : Nat) : Nat := unitSite p 0 idx
def chanSite (p m : Nat) : Nat := unitSite p 1 m
def bankSite (p b : Nat) : Nat := unitSite p 2 b
def linkSite (p l : Nat) : Nat := unitSite p 3 (l * 16 + 15)
def laneSite (p l n : Nat) : Nat := unitSite p 3 (l * 16 + n)
def hubPart (h : HubId) : Nat := match h with | .a => 0x7E | .b => 0x7F
/-- The recording hub's whole-hub site (Table 16.1). -/
def hubSite (h : HubId) : Nat := siteOf (hubPart h) 0x3FF 0x1F 0x3FF
def cellSite (h : HubId) (c : Nat) : Nat := siteOf (hubPart h) 0x3FE 0x1F (128 + c)
def mgmtSite (h : HubId) (c : Nat) : Nat := siteOf (hubPart h) 0x3FE 0x1F c
def laneHubSite (h : HubId) (l : Nat) : Nat := siteOf (hubPart h) 0x3FE 0x1F (256 + l)
def srcOf (cluster pos : Nat) : Nat := cluster * 32 + pos

/-- A source code names a core (R52). -/
def srcOk (src : Nat) : Bool := decide (src / 32 < 640) && decide (src % 32 ≤ 16)

/-- The source code of a control core's arrivals: the fields of a partition-level site, since the manual gives them none (DESIGN CHOICE, log
entry 158). -/
def ctlSrc : Nat := srcOf 0x3FE 0x1F

/-- A source code of an arrival that no reserved value is in (R12): a core's, or the control cores'. -/
def arrivalSrc (src : Nat) : Bool := srcOk src || decide (src = ctlSrc)

/-- The site that an arrival's event names: the core's, or the whole partition's for a control core. -/
def arrivalSite (p src : Nat) : Nat := if srcOk src then coreSite p src else partSite p

/-- Is the unit field of a partition-level resource one that Table 0.6 and R11 accept? `links` is the partition's
wdn_link_count. R429 adds the droop detectors of kind 5. -/
def unitOk (part links kind idx : Nat) : Bool :=
  match kind with
  | 0 => (Config.ringKind part idx).isSome
  | 1 => decide (idx ≤ 1)
  | 2 => true
  | 3 => decide (idx / 16 < links) && (decide (idx % 16 < 8) || decide (idx % 16 = 15))
  | 4 => decide (idx ≤ 3)
  | 5 => decide (idx ≤ 31) || (decide (0x40 ≤ idx) && decide (idx ≤ 0x47))
  | 6 => decide (idx = 0)
  | _ => false

/-- Is the unit field of a hub-level resource accepted (R11)? -/
def hubUnitOk (kind idx : Nat) : Bool :=
  match kind with
  | 0 => decide (idx ≤ 2)
  | 1 => decide (idx ≤ 15)
  | 2 => decide (idx ≤ 3)
  | 3 => decide (idx = 0)
  | 4 => decide (idx = 0)
  | _ => false

/-- A site code with no reserved value in any field (R10, R11, R12). -/
def siteOk (links : Nat → Nat) (s : Nat) : Bool :=
  let part := sitePart s; let cl := siteCluster s; let sl := siteSlot s; let u := siteUnit s
  let isPart := decide (part ≤ 97)
  let isHub := decide (part = 0x7E) || decide (part = 0x7F)
  if !(isPart || isHub) then false
  else if cl = 0x3FF then decide (sl = 0x1F) && decide (u = 0x3FF)
  else if cl = 0x3FE then
    decide (sl = 0x1F) &&
      (if isPart then unitOk part (links part) (u / 128) (u % 128) else hubUnitOk (u / 128) (u % 128))
  else if cl ≤ 0x27F then
    isPart &&
      (if sl = 0x1F then decide (u = 0x3FF)
       else decide (sl ≤ 0x10) && (decide (u ≤ 0xFF) || (decide (0x200 ≤ u) && decide (u ≤ 0x23F)) || decide (u = 0x3FF)))
  else false

/-- Is it a core site (R11)? -/
def isCoreSite (s : Nat) : Bool := decide (siteCluster s ≤ 0x27F) && decide (siteSlot s ≤ 0x10)
def isClusterSite (s : Nat) : Bool := decide (siteCluster s ≤ 0x27F) && decide (siteSlot s = 0x1F)
def isPartSite (s : Nat) : Bool := decide (sitePart s ≤ 97) && decide (siteCluster s = 0x3FF)
def isBankSite (s : Nat) : Bool := decide (sitePart s ≤ 97) && decide (siteCluster s = 0x3FE) && decide (siteKind s = 2)
def isEngineSite (s : Nat) : Bool := decide (sitePart s ≤ 97) && decide (siteCluster s = 0x3FE) && decide (siteKind s = 0)
def isLinkSite (s : Nat) : Bool :=
  decide (sitePart s ≤ 97) && decide (siteCluster s = 0x3FE) && decide (siteKind s = 3) && decide (siteIdx s % 16 = 15)
def isLaneSite (s : Nat) : Bool :=
  decide (sitePart s ≤ 97) && decide (siteCluster s = 0x3FE) && decide (siteKind s = 3) && decide (siteIdx s % 16 < 8)
def isCellSite (s : Nat) : Bool := decide (0x7E ≤ sitePart s) && decide (siteCluster s = 0x3FE) && decide (siteKind s = 1)
def isMgmtSite (s : Nat) : Bool := decide (0x7E ≤ sitePart s) && decide (siteCluster s = 0x3FE) && decide (siteKind s = 0)
def siteHub (s : Nat) : HubId := if sitePart s = 0x7F then .b else .a

/-- The part of a site that names the resource: a core is named whole whatever unit it carries (R215). -/
def siteKey (s : Nat) : Nat := if isCoreSite s then siteOf (sitePart s) (siteCluster s) (siteSlot s) 0x3FF else s

/-! ### Core states (R13, Table 0.7) -/

def stInService : Nat := 0
def stProbation : Nat := 1
def stSpare : Nat := 2
def stTesting : Nat := 3
def stQuarantined : Nat := 4
def stRetired : Nat := 5
def stFenced : Nat := 6

/-- The sentry code of a state (Table 0.7). Value 7 is reserved and answers 00. -/
def sentryCode (st : Nat) : BitVec 2 :=
  match st with
  | 0 => 1 | 1 => 2 | 2 => 3 | 3 => 3 | _ => 0

/-- Fenced, Quarantined or Retired. -/
def outOfService (st : Nat) : Bool := decide (4 ≤ st)

/-! ### The Vein grid (R25) -/

def nodeOfPart (p : Nat) : Nat := if p ≤ 43 then p else if p ≤ 53 then p + 1 else p + 2
def partOfNode (n : Nat) : Option Nat :=
  if n ≤ 43 then some n else if n = 44 then none else if n ≤ 54 then some (n - 1)
  else if n = 55 then none else if n ≤ 99 then some (n - 2) else none
def nodeOfHub (h : HubId) : Nat := match h with | .a => 44 | .b => 55
def hubOfNode (n : Nat) : Option HubId := if n = 44 then some .a else if n = 55 then some .b else none

/-- The neighbour of a node through a grid port: 0 east, 1 west, 2 south, 3 north. -/
def neighbour (n port : Nat) : Option Nat :=
  match port with
  | 0 => if n % 10 < 9 then some (n + 1) else none
  | 1 => if 0 < n % 10 then some (n - 1) else none
  | 2 => if n < 90 then some (n + 10) else none
  | 3 => if 10 ≤ n then some (n - 10) else none
  | _ => none

/-- Dimension-order routing: along the row to the destination column, then along the column (R29). None at the
destination. -/
def dimPort (n dst : Nat) : Option Nat :=
  if n % 10 < dst % 10 then some 0
  else if dst % 10 < n % 10 then some 1
  else if n / 10 < dst / 10 then some 2
  else if dst / 10 < n / 10 then some 3
  else none

end Sys2Proof.Machine
end

