-- ==== Sys2Proof/Machine/Events.lean ====
section
/-! DEFINITION. The events of Table 16.7 (R470) and the bytes of a record (R394, R395). -/

namespace Sys2Proof.Machine
open Sys2Proof

/-! ### Event codes -/

def evRefclkLost : Nat := 0x0110
def evRefclkBack : Nat := 0x0111
def evLockstepMasked : Nat := 0x0120
def evHubFailover : Nat := 0x0121
def evClaimWithdrawn : Nat := 0x0122
def evVeinLinkOut : Nat := 0x0123
def evWardenFailed : Nat := 0x0124
def evProfileSet : Nat := 0x0130
def evProfilePins : Nat := 0x0131
def evProfileInvalid : Nat := 0x0132
def evDebugOpen : Nat := 0x0140
def evDebugClose : Nat := 0x0141
def evDebugTenant : Nat := 0x0142
def evCmdInternal : Nat := 0x0150
def evStatusQueueFull : Nat := 0x0151
def evBoundUnmet : Nat := 0x0201
def evBoundMet : Nat := 0x0202
def evGovernorStart : Nat := 0x0203
def evFaultPermanent : Nat := 0x0210
def evFaultTransient : Nat := 0x0211
def evSubBoundDeviation : Nat := 0x0212
def evCertFalseAlarm : Nat := 0x0213
def evEscape : Nat := 0x0214
def evTransientLogFull : Nat := 0x0215
def evArbitrationUnresolved : Nat := 0x0216
def evCertFail : Nat := 0x0220
def evCertMalformed : Nat := 0x0221
def evPoisonConsumed : Nat := 0x0222
def evSparseMetaFault : Nat := 0x0223
def evEngineCheckFail : Nat := 0x0224
def evEngineInputFault : Nat := 0x0225
def evCertLost : Nat := 0x0226
def evTallyFull : Nat := 0x0227
def evShadowMismatch : Nat := 0x0230
def evShadowOverrun : Nat := 0x0231
def evShadowTimeout : Nat := 0x0232
def evShadowTidDuplicate : Nat := 0x0233
def evTriageWait : Nat := 0x0234
def evTstoneNoVerdict : Nat := 0x0401
def evTstoneAuditDropped : Nat := 0x0402
def evTstoneCellCheck : Nat := 0x0403
def evTstoneCellOut : Nat := 0x0404
def evTstoneSamplesLost : Nat := 0x0405
def evKernelFinding : Nat := 0x0410
def evKernelFault : Nat := 0x0411
def evKernelDropped : Nat := 0x0412
def evKernelRejected : Nat := 0x0413
def evKernelDiscarded : Nat := 0x0414
def evTestFail : Nat := 0x0501
def evTestTransient : Nat := 0x0502
def evSwapFail : Nat := 0x0503
def evTestDebt : Nat := 0x0504
def evYieldLate : Nat := 0x0505
def evQuarryHarvest : Nat := 0x0601
def evQuarryHarvestFail : Nat := 0x0602
def evQuarryImported : Nat := 0x0603
def evQuarryActive : Nat := 0x0604
def evQuarryRejected : Nat := 0x0605
def evQuarryFull : Nat := 0x0606
def evQuarantine : Nat := 0x0701
def evRetire : Nat := 0x0702
def evRestore : Nat := 0x0703
def evClusterShort : Nat := 0x0704
def evDefectFold : Nat := 0x0705
def evVariantExcluded : Nat := 0x0706
def evVariantInvalid : Nat := 0x0707
def evStepReplay : Nat := 0x0801
def evStepCleared : Nat := 0x0802
def evJobFault : Nat := 0x0803
def evSyncStray : Nat := 0x0804
def evSyncSemSaturated : Nat := 0x0805
def evSyncConfirmed : Nat := 0x0806
def evResetBegin : Nat := 0x0901
def evResetDone : Nat := 0x0902
def evRecoveryFail : Nat := 0x0903
def evDrainStuck : Nat := 0x0904
def evDetourRequest : Nat := 0x0905
def evBankOffWait : Nat := 0x0906
def evDeviceOut : Nat := 0x0907
def evDeviceRestored : Nat := 0x0908
def evWardenHoldExpired : Nat := 0x0909
def evHubStart : Nat := 0x0A01
def evFwFallback : Nat := 0x0A02
def evPartitionJoin : Nat := 0x0A03
def evLinkOut : Nat := 0x0A04
def evCorefwRequest : Nat := 0x0A05
def evCorefwRetry : Nat := 0x0A06
def evCorefwFail : Nat := 0x0A07
def evStartTestDone : Nat := 0x0A08
def evProbationEnd : Nat := 0x0A09
def evKeyRootFail : Nat := 0x0B01
def evKeyEpochRetired : Nat := 0x0B02
def evKeyZeroed : Nat := 0x0B03
def evKeyPurged : Nat := 0x0B04
def evKeySlotFilled : Nat := 0x0B05
def evKeySlotOnesided : Nat := 0x0B06
def evKeySlotMissing : Nat := 0x0B07
def evVariantStaged : Nat := 0x0B08
def evScrubBegin : Nat := 0x0C01
def evScrubDone : Nat := 0x0C02
def evTraceTrigger : Nat := 0x0D01
def evTraceHeld : Nat := 0x0D02
def evTraceDone : Nat := 0x0D03
def evTraceLoss : Nat := 0x0D04
def evCairnIssued : Nat := 0x0E01
def evCairnCut : Nat := 0x0E02
def evScanoutDone : Nat := 0x0E03
def evCairnResumed : Nat := 0x0E04
def evStrataStart : Nat := 0x0F01
def evStrataTimepair : Nat := 0x0F02
def evStrataFreeze : Nat := 0x0F03
def evStrataUnfreeze : Nat := 0x0F04
def evStrataLost : Nat := 0x0F05
def evStrataWardenGap : Nat := 0x0F06
def evDroopWindow : Nat := 0x1001
def evStretchNoAck : Nat := 0x1002
def evPowerSensorStuck : Nat := 0x1003
def evPowerSensorMasked : Nat := 0x1004
def evPowerFailWarn : Nat := 0x1010
def evPowerFlushDone : Nat := 0x1011
def evPowerRideThrough : Nat := 0x1012
def evHubRailLow : Nat := 0x1020
def evHubRailOk : Nat := 0x1021

/-- Table 16.7 in ascending code order: code and severity. The name index is the position. -/
def eventTable : List (Nat × Nat) :=
  [(0x0110, 3), (0x0111, 1), (0x0120, 2), (0x0121, 3), (0x0122, 2), (0x0123, 3), (0x0124, 4), (0x0130, 1), (0x0131, 2), (0x0132, 3), (0x0140, 1), (0x0141, 1), (0x0142, 1), (0x0150, 3), (0x0151, 2), (0x0201, 3), (0x0202, 1), (0x0203, 0), (0x0210, 3), (0x0211, 2), (0x0212, 2), (0x0213, 1), (0x0214, 4), (0x0215, 2), (0x0216, 3)] ++
  [(0x0220, 2), (0x0221, 2), (0x0222, 2), (0x0223, 2), (0x0224, 2), (0x0225, 3), (0x0226, 2), (0x0227, 2), (0x0230, 2), (0x0231, 1), (0x0232, 2), (0x0233, 2), (0x0234, 1), (0x0401, 2), (0x0402, 0), (0x0403, 2), (0x0404, 3), (0x0405, 2), (0x0410, 2), (0x0411, 2), (0x0412, 0), (0x0413, 2), (0x0414, 1), (0x0501, 3), (0x0502, 2)] ++
  [(0x0503, 3), (0x0504, 1), (0x0505, 2), (0x0601, 1), (0x0602, 2), (0x0603, 0), (0x0604, 1), (0x0605, 2), (0x0606, 2), (0x0701, 3), (0x0702, 3), (0x0703, 1), (0x0704, 3), (0x0705, 2), (0x0706, 0), (0x0707, 4), (0x0801, 2), (0x0802, 1), (0x0803, 3), (0x0804, 2), (0x0805, 2), (0x0806, 1), (0x0901, 1), (0x0902, 1), (0x0903, 3)] ++
  [(0x0904, 3), (0x0905, 1), (0x0906, 2), (0x0907, 4), (0x0908, 1), (0x0909, 4), (0x0A01, 0), (0x0A02, 3), (0x0A03, 0), (0x0A04, 3), (0x0A05, 0), (0x0A06, 2), (0x0A07, 3), (0x0A08, 0), (0x0A09, 0), (0x0B01, 4), (0x0B02, 0), (0x0B03, 0), (0x0B04, 1), (0x0B05, 0), (0x0B06, 2), (0x0B07, 3), (0x0B08, 1), (0x0C01, 1), (0x0C02, 1)] ++
  [(0x0D01, 0), (0x0D02, 0), (0x0D03, 0), (0x0D04, 1), (0x0E01, 1), (0x0E02, 1), (0x0E03, 0), (0x0E04, 1), (0x0F01, 0), (0x0F02, 0), (0x0F03, 1), (0x0F04, 1), (0x0F05, 2), (0x0F06, 2), (0x1001, 0), (0x1002, 2), (0x1003, 2), (0x1004, 1), (0x1010, 4), (0x1011, 1), (0x1012, 1), (0x1020, 3), (0x1021, 1)]

/-- The fixed severity of an event code (Table 16.7). -/
def severity (code : Nat) : Nat := ((eventTable.find? (fun e => e.1 = code)).map (·.2)).getD 0

/-- The class of an event code. -/
def evClass (code : Nat) : Nat := code / 256

/-- Alignment of a payload field (R395): 8 above 8 bytes, else its own size. -/
def alignOf (sz : Nat) : Nat := if 8 < sz then 8 else sz

/-- Payload bytes of the fields in order, each aligned (R395). -/
def payloadBytes : List (Nat × Nat) → List Byte → List Byte
  | [], acc => acc
  | (sz, v) :: r, acc =>
    let a := alignOf sz
    let pad := (a - acc.length % a) % a
    payloadBytes r (acc ++ List.replicate pad 0 ++ leBytes sz v)

/-- Does the event take two records (R395)? -/
def needsPair (e : Ev) : Bool := decide (32 < (payloadBytes e.fields []).length)

/-- The 64 bytes of a record (Table 16.1). -/
def recBytes (r : Rec) : List Byte :=
  let pay := payloadBytes r.ev.fields []
  let b :=
    leBytes 8 r.time ++ leBytes 4 r.count ++ leBytes 2 r.ev.code ++ leBytes 1 (severity r.ev.code) ++
    leBytes 1 (if r.cont then 6 else r.ev.srck) ++ leBytes 4 r.ev.site ++ leBytes 2 r.ev.job ++
    leBytes 1 r.ev.tenant ++ leBytes 1 (if r.ev.jobv then 1 else 0) ++
    (if r.cont then slice pay 32 32 else slice pay 0 32) ++ leBytes 4 0
  b ++ leBytes 4 (crc32c b).toNat

end Sys2Proof.Machine
end

