-- ==== Sys2Proof/Machine/Flags.lean ====
section
/-! DEFINITION. The hubs and their roles, the flags of IRQ_STAT, PowerWarn, and the outputs cmd_primary and cmd_irq that follow
from them (Tables 2.3, 14.2, 18.6). -/

namespace Sys2Proof.Machine
open Sys2Proof

/-! ### Hubs and roles -/

def other (h : HubId) : HubId := match h with | .a => .b | .b => .a

/-- 0 for A and 1 for B (R395). -/
def hubNum (h : HubId) : Nat := match h with | .a => 0 | .b => 1

def isB (h : HubId) : Bool := match h with | .a => false | .b => true

def hubOf (s : State) (h : HubId) : Hub := match h with | .a => s.hubA | .b => s.hubB

def withHub (h : HubId) (x : Hub) (s : State) : State :=
  match h with | .a => { s with hubA := x } | .b => { s with hubB := x }

def modHub (h : HubId) (f : Hub → Hub) (s : State) : State := withHub h (f (hubOf s h)) s

/-- Role encoding of Table 14.2. -/
def roleCode (r : Role) : Nat :=
  match r with | .down => 0 | .starting => 1 | .claiming => 2 | .secondary => 3 | .primary => 4 | .sole => 5

/-- cmd_primary: this hub's role is Primary or Sole (Table 2.3). -/
def isServing (x : Hub) : Bool := decide (x.role = .primary) || decide (x.role = .sole)

/-- The hub in role Primary or Sole, if any. -/
def serving (s : State) : Option HubId :=
  if isServing s.hubA then some .a else if isServing s.hubB then some .b else none

/-- Does the serving hub's Strata time run (R473)? While its counter is held under R67, whatever counts it stops. -/
def clockRuns (s : State) : Bool := match serving s with | some h => !(hubOf s h).refLost | none => false

/-- Is a hub in PowerWarn (R329, R426, R472)? -/
def powerWarn (s : State) : Bool := s.hubA.pwr.warn || s.hubB.pwr.warn

/-- Set bits of IRQ_STAT (Table 18.6). -/
def irqSet (h : HubId) (bits : BitVec 19) (s : State) : State :=
  modHub h (fun x => { x with irqStat := x.irqStat ||| bits }) s

def irqBit (h : HubId) (i : Nat) (s : State) : State := irqSet h (1#19 <<< i) s

/-- A role change: bit ROLE of this hub, and PEER of the other (Table 18.6). A hub that serves follows no other hub's time (R397). -/
def setRole (h : HubId) (r : Role) (s : State) : State :=
  if (hubOf s h).role = r then s
  else
    irqBit (other h) 9 (modHub (other h) (fun x => { x with peerSeen := r })
      (irqBit h 8 (modHub h (fun x => { x with role := r, slowAdj := if r = .primary ∨ r = .sole then 0 else x.slowAdj }) s)))

/-! ### The outputs of a command port -/

/-- Does a port take a request: sys_rst_n is high and fewer than 16 reads are outstanding (R41, Table 2.12)? -/
def portTakes (x : Hub) : Bool := !x.rstLow && decide (x.reads.length < 16)

/-- A request at a command port: one that finds cmd_ready at 0 does not transfer (R40). -/
def onPort (h : HubId) (f : State → State) (s : State) : State := if portTakes (hubOf s h) then f s else s

/-- The outputs of a command port that follow from its state: cmd_primary while the hub serves (Table 2.3), cmd_irq while it serves
and an enabled status bit is set (R450), cmd_ready while it takes requests (R41), cmd_rvalid while a response waits (R40). -/
def pinsOf (x : Hub) : Hub :=
  { x with primaryPin := isServing x, irqPin := isServing x && decide (x.irqStat &&& x.irqMask ≠ 0)
           readyPin := portTakes x, rvalidPin := decide (x.reads ≠ []) }

end Sys2Proof.Machine
end

