-- ==== Sys2Proof/Machine/Ops.lean ====
section
/-! DEFINITION. Named reads and writes of the state: the non-volatile store, wardens, messages, outputs, free values, the
raising and ingesting of events, the tick, and the end of every command. -/

namespace Sys2Proof.Machine
open Sys2Proof

/-! ### Time -/

/-- Strata local time of the serving hub; of hub A when none serves. -/
def now (s : State) : Nat := match serving s with | some h => (hubOf s h).time | none => s.hubA.time

/-! ### The non-volatile store (R18, R19) -/

def nvFirmware : Nat := 0
def nvVariant : Nat := 3
def nvDefects : Nat := 4
def nvPermanent : Nat := 5
def nvPowerFail : Nat := 6
def nvCounters : Nat := 7
def nvQuarry : Nat := 9

/-- A region is stale for the peer of a hub. -/
def addStale (h : HubId) (r : Nat) (s : State) : State :=
  modHub (other h) (fun x => { x with stale := if r ∈ x.stale then x.stale else x.stale ++ [r] }) s

/-- Does a hub's mirrored write complete on this hub alone: its peer is Down, or it is Sole and has declared its peer failed (R19)? -/
def writesAlone (s : State) (h : HubId) : Bool :=
  decide ((hubOf s (other h)).role = .down) || (decide ((hubOf s h).role = .sole) && (hubOf s h).peerFailed)

/-- A hub writes a region. The write completes in both hubs, in this step (DESIGN CHOICE, log entry 126); it completes on this hub
alone, and the region is stale for the peer, where the peer is Down, or where this hub is Sole and has declared it failed (R19). -/
def markStale (h : HubId) (r : Nat) (s : State) : State :=
  if writesAlone s h then addStale h r s else s

/-- A hub's own power-fail flush of a region: stale for a peer that is Down or that the hub has declared failed (R330). -/
def flushStale (h : HubId) (r : Nat) (s : State) : State :=
  if decide ((hubOf s (other h)).role = .down) || (hubOf s h).peerFailed then addStale h r s else s

/-- A byte of the Reserved region (Table 1.5). -/
def nvReserved (_ : Nat) : Byte := 0

/-- A mirrored write by the serving hub. -/
def nvWrite (r : Nat) (s : State) : State := match serving s with | some h => markStale h r s | none => s

/-! ### Wardens, messages, outputs, free values -/

def war (s : State) (p : Nat) : Warden := tget {} s.wardens p

/-- Is the partition halted by a Cairn stop? The limits that R389 names do not run meanwhile. -/
def isHalted (s : State) (p : Nat) : Bool := (war s p).halt.isSome

def modW (p : Nat) (f : Warden → Warden) (s : State) : State := { s with wardens := tmod {} s.wardens p f }

def parts : List Nat := List.range 98

/-- wdn_link_count of a partition. -/
def linksAt (s : State) (p : Nat) : Nat := (war s p).linkCount

/-- A site code acceptable in a command (R12). -/
def okSite (s : State) (site : Nat) : Bool := siteOk (linksAt s) site

def send (m : Msg) (s : State) : State := { s with net := s.net ++ [m] }

/-- Take one copy of a message out of flight. -/
def recv (m : Msg) (s : State) : State := { s with net := s.net.erase m }

/-- Take the first message in flight that a selector admits. -/
def takeMsg {α : Type} (f : Msg → Option α) (s : State) : Option (α × State) :=
  match s.net.find? (fun m => (f m).isSome) with
  | some m => (f m).map (fun a => (a, recv m s))
  | none => none

def inFlight (m : Msg) (s : State) : Bool := decide (m ∈ s.net)

/-- An input of a warden: one whose supply or interior is lost, or that has not started, takes none (R23, R69). -/
def onAlive (p : Nat) (f : State → State) (s : State) : State := if (war s p).alive then f s else s

def drive (o : Out) (s : State) : State := { s with outs := o :: s.outs }

/-- Read an open value: the next value of the free supply (log entry 4). -/
def freeRead (s : State) : BitVec 64 × State := (Config.freeValue s.free, { s with free := s.free + 1 })

/-- The link of a partition's local number: its global number (R58). -/
def globalLink (s : State) (p l : Nat) : Nat := (war s p).linkBase + l

/-- Are a warden's link straps correct (R58)? -/
def strapsOk (s : State) (p : Nat) : Bool :=
  let n := linksAt s p
  decide (n = 0) ||
    (decide (n ≤ 8) && decide ((war s p).linkBase = ((List.range p).map (linksAt s)).sum) && decide ((war s p).linkBase + n ≤ 48))

/-- Partition and local number of a global link: at the warden whose correct straps hold it (R58). -/
def linkPlace (s : State) (j : Nat) : Option (Nat × Nat) :=
  (parts.find? (fun p => decide ((war s p).linkBase ≤ j) && decide (j < (war s p).linkBase + (war s p).linkCount) && strapsOk s p)).map
    (fun p => (p, j - (war s p).linkBase))

def lnk (s : State) (j : Nat) : Link := tget {} s.links j

def modLink (j : Nat) (f : Link → Link) (s : State) : State := { s with links := tmod {} s.links j f }

/-! ### Trace triggers and ingestion of events (R381, R400 to R409) -/

def traceCap : Nat := 67108864

/-- A record put into a hub's buffer. -/
def bufPut (h : HubId) (r : TRec) (s : State) : State :=
  modHub h (fun x => { x with trace := { x.trace with recs := x.trace.recs ++ [r], occ := x.trace.occ + 8 * r.len } }) s

/-- Does an event match a code under a mask (R381)? -/
def codeMatch (code mask want : Nat) : Bool := decide (Nat.land code mask = want)

/-- The stamp of the newest record held (R397). -/
def lastStamp (s : State) : Nat :=
  match s.strata.hold.getLast?, s.strata.circ.getLast? with
  | some r, _ => r.time
  | none, some r => r.time
  | none, none => 0

/-- The records of an event from a count on (R395). -/
def recsOf (e : Ev) (count time : Nat) : List Rec :=
  if needsPair e then [{ count, time, ev := e }, { count := count + 1, time, cont := true, ev := e }]
  else [{ count, time, ev := e }]

/-- The highest multiple of 65,536 among the counts taken, else the value before (R404). -/
def persistCount (old first n : Nat) : Nat :=
  let hi := (first + n - 1) / 65536 * 65536
  if first ≤ hi then hi else old

/-- The permanent area takes the records that fit, a pair together or not at all (R395, R403; log entry 166). -/
def permFill (perm : List Rec) : List Rec → List Rec
  | [] => perm
  | [r] => if perm.length < 8192 then perm ++ [r] else perm
  | r :: c :: rest =>
    if c.cont then permFill (if perm.length + 2 ≤ 8192 then perm ++ [r, c] else perm) rest
    else permFill (if perm.length < 8192 then perm ++ [r] else perm) (c :: rest)

/-- The newest n records; a continuation whose first record is among the older ones is lost with it (R395). -/
def newestRecs (n : Nat) (l : List Rec) : List Rec :=
  let r := lastN n l
  match r.head? with | some x => if x.cont then r.drop 1 else r | none => r

/-- Append records to the circulating area and, while it is not full, to the permanent area (R403). -/
def appendRecs (rs : List Rec) (b : StrataB) : StrataB :=
  { b with circ := newestRecs 32768 (b.circ ++ rs), perm := permFill b.perm rs }

/-- The circulating and hold areas after an event is ingested at a time (R404, R408). -/
def strataPut (e : Ev) (time : Nat) (b : StrataB) : StrataB :=
  let n := if needsPair e then 2 else 1
  if b.frozen then
    if b.hold.length + n ≤ 4096 then
      { b with
        hold := b.hold ++ recsOf e b.nextCount time
        nextCount := b.nextCount + n
        countNv := persistCount b.countNv b.nextCount n }
    else
      { b with
        lost := b.lost + 1
        lostAll := b.lostAll + 1
        lostFirst := if b.lost = 0 then time else b.lostFirst
        lostLast := time
        lostSev := max b.lostSev (severity e.code)
        lostCls := setBit b.lostCls (evClass e.code) true }
  else
    appendRecs (recsOf e b.nextCount time)
      { b with nextCount := b.nextCount + n, countNv := persistCount b.countNv b.nextCount n }

/-- Interrupt bits an ingested event sets at the serving hub (Table 18.6). -/
def irqOfEvent (h : HubId) (e : Ev) (s : State) : State :=
  let x := hubOf s h
  let s1 := if x.irqCls.getLsbD (evClass e.code) && decide (x.irqSev ≤ severity e.code) then irqBit h 10 s else s
  let s2 := if e.code = evHubFailover then irqBit h 9 s1 else s1
  let s3 := if e.code = evStatusQueueFull then irqBit h 12 s2 else s2
  let s5 := if e.code = evPowerFailWarn || e.code = evPowerRideThrough then irqBit h 11 s3 else s3
  let s4 := if e.code = evCairnCut then irqBit h 14 s5 else s5
  if e.code = evBoundUnmet || e.code = evBoundMet then irqBit h 17 s4 else s4

/-- Ingest one event at the serving hub `h`: stamp, count, record, mirror, interrupt bits (R398, R404). -/
def ingestOne (h : HubId) (e : Ev) (s : State) : State :=
  let e1 := if e.site = 4294967296 then { e with site := hubSite h } else e
  let t := max (hubOf s h).time (lastStamp s)
  let s1 := { s with strata := strataPut e1 t s.strata }
  let s2 := if s1.strata.perm.length = s.strata.perm.length then s1 else markStale h nvPermanent s1
  irqOfEvent h e1 (if s2.strata.countNv = s.strata.countNv then s2 else markStale h nvCounters s2)

/-- One hub triggers (Table 15.6, R381): Armed begins Capturing; Capturing and Held count it. -/
def trigHub (ing : Ev → State → State) (cause code : Nat) (h : HubId) (s : State) : State :=
  let x := hubOf s h
  if x.role = .down then s
  else if x.trace.state = 2 then
    let s1 := modHub h (fun x => { x with trace := { x.trace with state := 3, admitted := 0, refused := 0, trigIgn := 0 } }) s
    let r : TRec := { cls := 3, len := 4, src := hubPart h, wt := x.time / 10 % 4294967296,
                      body := [w64 cause, w64 x.time, w64 code] }
    ing { code := evTraceTrigger, fields := [(1, hubNum h), (1, cause), (2, code), (4, x.trace.occ)] } (bufPut h r s1)
  else if x.trace.state = 3 || x.trace.state = 4 then
    modHub h (fun x => { x with trace := { x.trace with trigIgn := x.trace.trigIgn + 1 } }) s
  else s

/-- Is a node in service? The node of a hub that is Down, or held in reset, is idle (Table 2.12). -/
def nodeUp (s : State) (n : Nat) : Bool :=
  decide (n < 100) && decide (n ∉ s.vein.nodesOut) &&
  (match hubOfNode n with | some h => decide ((hubOf s h).role ≠ .down) && !(hubOf s h).rstLow | none => true)

/-- Is the link between two neighbours in service, with the node at its far end? -/
def linkUp (s : State) (n m : Nat) : Bool := nodeUp s m && decide ((n, m) ∉ s.vein.linksOut) && decide ((m, n) ∉ s.vein.linksOut)

/-- Neighbours of a node over links in service (R30). -/
def liveNeighbours (s : State) (n : Nat) : List Nat :=
  (List.range 4).filterMap (fun i => (neighbour n i).bind (fun m => if linkUp s n m then some m else none))

/-- Cairn leaves a node on all of its outputs (R30). -/
def cairnForward (n : Nat) (s : State) : State :=
  forEach (liveNeighbours s n) (fun m s => send (.cairn m) s) (drive (.cairn n) s)

/-- A hub originates Cairn (R385). A stop in force is left as it is. -/
def cairnIssue (ing : Ev → State → State) (h : HubId) (level : Nat) (cores : List (BitVec 22)) (cause code : Nat)
    (s : State) : State :=
  if s.cairn.state ≠ 0 then s
  else
    let c : Cairn := { armed := s.cairn.armed, armLevel := s.cairn.armLevel, armCode := s.cairn.armCode,
                       armMask := s.cairn.armMask, armCores := s.cairn.armCores,
                       state := 1, issuer := h, issuedAt := (hubOf s h).time, level, cores,
                       passed := [nodeOfHub h] }
    let s1 := { s with cairn := c,
                       keys := { s.keys with dbg := s.keys.dbg.map (fun d => { d with stops := d.stops + 1 }) } }
    let s2 := ing { code := evCairnIssued, fields := [(1, hubNum h), (1, cause), (2, code)] } s1
    cairnForward (nodeOfHub h) (trigHub ing 3 0 h s2)

/-- The hub whose node originates the Cairn of an armed match: a Secondary for an event at its own parts, else the hub that serves (Table 1.6,
R385; DEDUCED, log entry 173). -/
def matchHub (s : State) (h : HubId) (e : Ev) : HubId :=
  if (hubOf s (other h)).role = .secondary ∧ sitePart e.site = hubPart (other h) then other h else h

/-- Ingest an event and act on the matches of R381 and R385: an armed trace trigger, an armed stop. The fuel bounds
how far an event raised by a match is matched in turn. -/
def ingestN : Nat → Ev → State → State
  | 0, e, s => match serving s with | some h => ingestOne h e s | none => s
  | n + 1, e, s =>
    match serving s with
    | none => { s with strata := { s.strata with hubHeld := s.strata.hubHeld ++ [(.a, e)] } }
    | some h =>
      let s1 := ingestOne h e s
      let s2 := if (s.hubA.trace.evMatch && codeMatch e.code s.hubA.trace.evMask s.hubA.trace.evCode)
                then trigHub (ingestN n) 2 e.code .a s1 else s1
      let s3 := if (s.hubB.trace.evMatch && codeMatch e.code s.hubB.trace.evMask s.hubB.trace.evCode)
                then trigHub (ingestN n) 2 e.code .b s2 else s2
      if s.cairn.armed && s.cairn.state = 0 && codeMatch e.code s.cairn.armMask s.cairn.armCode then
        cairnIssue (ingestN n) (matchHub s h e) s.cairn.armLevel s.cairn.armCores 2 e.code
          { s3 with cairn := { s3.cairn with armed := false } }
      else s3

/-- An event of the hubs' own parts: ingested as it is raised, or held while no hub is Primary or Sole (R401). -/
def raise (e : Ev) (s : State) : State := ingestN 3 e s

/-- An event of a warden: numbered, kept until acknowledged, at most 1,024; more are counted (R400). -/
def raiseW (p : Nat) (e : Ev) (s : State) : State :=
  modW p (fun w =>
    if w.evs.length < 1024 then
      { w with evs := w.evs ++ [(w.evNext, { e with srck := if e.srck = 0 then 1 else e.srck })],
               evNext := (w.evNext + 1) % 65536 }
    else { w with evLost := w.evLost + 1 }) s

/-- An event with only a code and fields. -/
def ev (code : Nat) (fields : List (Nat × Nat)) : Ev := { code, fields }

/-- An event about a site. -/
def evAt (code site : Nat) (fields : List (Nat × Nat)) : Ev := { code, site, fields }

/-- An event of a source kind of Table 16.3: 2 a cell, 3 a Vein node, 4 a monitor. The manual does not say which events have which (DEDUCED, log
entry 172). -/
def fromSrc (k : Nat) (e : Ev) : Ev := { e with srck := k }

/-- An event with a job field (Table 16.1). -/
def evJob (code job tenant : Nat) (fields : List (Nat × Nat)) : Ev := { code, jobv := true, job, tenant, fields }

/-- A Bool as a payload flag. -/
def flag (b : Bool) : Nat := if b then 1 else 0

/-- Raise a port error (R43, R446): PORTERR saturates, and bit 18 is set. -/
def portErr (h : HubId) (s : State) : State :=
  irqBit h 18 (modHub h (fun x => { x with portErr := if x.portErr = 0xFFFFFFFF#32 then x.portErr else x.portErr + 1 }) s)

/-! ### The end of every command -/

/-- How every command ends: the outputs of both ports follow, and the commands that wait are as they were. -/
def ended (s t : State) : State := { t with hubA := pinsOf t.hubA, hubB := pinsOf t.hubB, pending := s.pending }

/-- The answer of a command that leads from `s` to `t`. -/
def nextOf (s t : State) : Host.Outcome State Fault Refusal := .next (ended s t)

/-! ### The tick -/

/-- One refclk edge at a hub (R396): 10 ns, 5 while it adjusts down to the Primary's time (R397), none while refclk is
lost (R67). -/
def hubEdge (x : Hub) : Hub :=
  if x.refLost then x
  else if x.slowAdj = 0 then { x with time := (x.time + 10) % 18446744073709551616 }
  else { x with time := (x.time + 5) % 18446744073709551616, slowAdj := x.slowAdj - 1 }

/-- The host bridge takes the oldest waiting read response of a port where cmd_rready is 1 (R40; log entry 124). -/
def takeRead (h : HubId) (s : State) : State :=
  match (hubOf s h).reads with
  | [] => s
  | r :: rest => if (hubOf s h).rready then drive (.read h r.1 r.2.1 r.2.2) (modHub h (fun x => { x with reads := rest }) s) else s

end Sys2Proof.Machine
end

