-- ==== Sys2Proof/Machine/Operands.lean ====
section
/-! DEFINITION. Operand forms: the bytes of a packet, its parameter fields (R417, R428), sites, masks and job fields,
and the answers a command gives (Tables 17.2, 17.3, 17.5). -/

namespace Sys2Proof.Machine
open Sys2Proof

/-! ### Status codes (Table 17.5) -/

def stDone : Nat := 0
def stAccepted : Nat := 1
def stBadParam : Nat := 2
def stBadOpcode : Nat := 3
def stNotPermitted : Nat := 4
def stBusy : Nat := 5
def stNotInService : Nat := 6
def stInternal : Nat := 7
def stFailover : Nat := 8

/-! ### The packet -/

/-- The PLEN payload bytes; bytes the host did not write read 0. -/
def payOf (pk : Packet) : List Byte := slice pk.payload 0 pk.plen.toNat

/-- Header bytes 0 to 59 of a packet (Table 17.1). -/
def headBytes (op : Nat) (pk : Packet) : List Byte :=
  leBytes 2 op ++ leBytes 2 pk.tag.toNat ++ leBytes 2 pk.plen.toNat ++ leBytes 1 pk.flags.toNat ++
  leBytes 9 pk.rsv1.toNat ++ leBytes 32 pk.param.toNat ++ leBytes 12 pk.rsv2.toNat

/-- The CRC a packet must carry: CRC-32C over bytes 0 to 59 and the payload. -/
def packetCrc (op : Nat) (pk : Packet) : BitVec 32 := crc32c (headBytes op pk ++ payOf pk)

/-- The bytes of a packet as it stands in its slot; a payload beyond the area is cut. -/
def packetBytes (op : Nat) (pk : Packet) : List Byte :=
  headBytes op pk ++ leBytes 4 pk.crc.toNat ++ slice pk.payload 0 (min pk.plen.toNat 4096)

/-- PARAM bytes `lo` for `n`, little-endian (R428). -/
def parN (pk : Packet) (lo n : Nat) : Nat := pk.param.toNat / 2 ^ (8 * lo) % 2 ^ (8 * n)

/-- One PARAM byte. -/
def parB (pk : Packet) (i : Nat) : Nat := parN pk i 1

/-- FLAGS bit 0. -/
def isForce (pk : Packet) : Bool := pk.flags.getLsbD 0

/-- FLAGS bit 1. -/
def isLast (pk : Packet) : Bool := pk.flags.getLsbD 1

/-- The first PARAM byte that no field of the row names and that is not 0. -/
def strayParam (pk : Packet) (named : List (Nat × Nat)) : Option Nat :=
  (List.range 32).find? (fun i =>
    !named.any (fun f => decide (f.1 ≤ i) && decide (i < f.1 + f.2)) && decide (parB pk i ≠ 0))

/-- Slot offset of PARAM byte n, for EOFF. -/
def eoffP (n : Nat) : Nat := 16 + n

/-- The first byte of a 16-byte MASK at PARAM byte `lo` that sets a reserved bit 98 to 127 (R428). -/
def maskStray (pk : Packet) (lo : Nat) : Option Nat :=
  (List.range 16).find? (fun i => decide ((if i < 12 then 0 else if i = 12 then parB pk (lo + i) / 4 else parB pk (lo + i)) ≠ 0))

/-- The partitions a MASK names. -/
def maskParts (v : Nat) : List Nat := parts.filter (fun p => v.testBit p)

/-- A MASK of a list of partitions. -/
def partsMask (l : List Nat) : BitVec 128 := maskOf 128 l

/-! ### Answers -/

/-- The caller of a command: the serving hub, its queue, role (0 operator, 1 host, 2 tenant) and tenant. -/
structure Caller where
  hub    : HubId
  queue  : Nat
  role   : Nat
  tenant : Nat
  op     : Nat
  pk     : Packet
  count  : BitVec 16

/-- What a command's row answers after its parameters are read. -/
inductive Ans where
  /-- DONE with inline results, result bytes, CAUSE, and the state with the effect committed. -/
  | done (res pay : List Byte) (cause : Nat) (s : State)
  /-- ACCEPTED: the long-running command stays open, identified by `key`. -/
  | opened (key jobs : Nat) (s : State)
  /-- The command is performed, and ACCEPTED follows when what it began has got far enough (R349). -/
  | slow (key jobs : Nat) (s : State)
  /-- ACCEPTED and then DONE, for a long-running command whose work ends within its own step (R424). -/
  | both (res : List Byte) (s : State)
  /-- A status with no effect (R422). -/
  | err (status eoff cause : Nat)
  /-- A status whose row names an effect: a pieced load given up (R175). -/
  | errWith (status eoff cause : Nat) (s : State)

/-- DONE with nothing to return. -/
def ansOk (s : State) : Ans := .done [] [] 0 s

/-- BAD_PARAM with EOFF at PARAM byte n. -/
def badAt (n : Nat) : Ans := .err stBadParam (eoffP n) 0

/-- BAD_PARAM where no single field is at fault. -/
def badAny : Ans := .err stBadParam 0xFFFF 0

/-- NOT_PERMITTED. -/
def ansDenied : Ans := .err stNotPermitted 0 0

/-- BUSY_RETRY. -/
def ansBusy : Ans := .err stBusy 0 0

/-- FENCED. -/
def ansFenced : Ans := .err stNotInService 0 0

/-- Go on only where a condition holds. -/
def need (c : Bool) (bad : Ans) (k : Ans) : Ans := if c then k else bad

/-- A SITE parameter at PARAM byte `lo` is acceptable and of the form asked for (R12). -/
def needSite (s : State) (pk : Packet) (lo : Nat) (form : Nat → Bool) (k : Nat → Ans) : Ans :=
  let site := parN pk lo 4
  if okSite s site && form site then k site else badAt lo

/-- A JOB field at PARAM byte `lo`: bits 15:12 reserved (R428). EOFF is the first byte of the field (R418). -/
def needJob (pk : Packet) (lo : Nat) (k : Nat → Ans) : Ans :=
  let j := parN pk lo 2
  if j < 4096 then k j else badAt lo

/-- A MASK at PARAM byte `lo`; EOFF is its first byte (R418). -/
def needMask (pk : Packet) (lo : Nat) (k : List Nat → Ans) : Ans :=
  match maskStray pk lo with
  | some _ => badAt lo
  | none => k (maskParts (parN pk lo 16))

/-- The row of a command in the command reference. -/
structure CmdRow where
  op    : Nat
  /-- Roles that may issue it (R421). -/
  roles : List Nat
  /-- FORCE is accepted. -/
  force : Bool := false
  /-- LAST is accepted. -/
  pieced : Bool := false
  /-- Marked long; `longAt` the forms that are, where not all of the row's are. -/
  long  : Bool := false
  longAt : Packet → Bool := fun _ => true
  /-- A report or query: it changes no table and is performed in PowerWarn (R426; log entry 17). -/
  reads : Bool := false
  /-- The forms of another row that change no table. -/
  readsAt : Packet → Bool := fun _ => false
  /-- PARAM fields the row names: first byte and length. -/
  named : List (Nat × Nat) := []
  /-- The payload length the row requires, where it requires one: none admits any length. -/
  plen  : State → Packet → Option Nat := fun _ _ => some 0
  /-- The row's own checks and effect. -/
  body  : Caller → State → Ans

/-- Does a packet of a row change no table (R426)? -/
def quiet (row : CmdRow) (pk : Packet) : Bool := row.reads || row.readsAt pk

end Sys2Proof.Machine
end

