-- ==== Sys2Proof/Machine/Cmd.lean ====
section
/-! DEFINITION. The command protocol (R412 to R427): taking a packet, the order of checks, committing the effect and
posting the reply. -/

namespace Sys2Proof.Machine
open Sys2Proof

/-! ### Queues -/

def queueOf (s : State) (q : Nat) : Queue := tget {} s.cmd.queues q

def modQueue (q : Nat) (f : Queue → Queue) (s : State) : State :=
  { s with cmd := { s.cmd with queues := tmod {} s.cmd.queues q f } }

/-- Open long-running commands of a queue. -/
def openOf (s : State) (q : Nat) : Nat := (s.cmd.opens.filter (fun o => o.queue = q)).length

/-- Free entries of the status queue. -/
def sqFree (x : Queue) : Nat := 64 - (x.sqTail - x.sqHead).toNat

/-- Does the queue have room for a taken command's replies (R415)? -/
def sqRoom (s : State) (q : Nat) : Bool := decide (openOf s q < sqFree (queueOf s q))

/-- A command of the queue that was taken and is held without a reply (R426). -/
def heldIn (s : State) (q : Nat) : Bool := s.cmd.held.any (fun h => h.1 = q)

/-- A command of the queue still waits for its first reply. -/
def slowIn (s : State) (q : Nat) : Bool := s.cmd.opens.any (fun o => decide (o.queue = q) && o.first.isSome)

/-- Could the interpreter take a packet of this queue now (R413 to R415)? -/
def takeable (s : State) (q : Nat) : Bool :=
  decide ((queueOf s q).taken ≠ (queueOf s q).tail) && sqRoom s q && !heldIn s q && !slowIn s q

/-- The queues passed in the round robin before `q`, from where it stands (R414). -/
def rrBefore (rr q : Nat) : List Nat :=
  (List.range 7).map (fun i => (rr - 1 + i) % 7 + 1) |>.takeWhile (· ≠ q)

/-- Is it this queue's turn (R414)? Queue 0 goes first; the others in rotation, skipping those with nothing to take. -/
def turnOf (s : State) (q : Nat) : Bool :=
  takeable s q &&
    (decide (q = 0) || (!takeable s 0 && !(rrBefore s.cmd.rr q).any (fun r => takeable s r)))

/-- Bytes written into queue memory from an address on, in canonical form. -/
def memWrite (t : Tab Byte) : (addr : Nat) → List Byte → Tab Byte
  | _, [] => t
  | addr, b :: r => memWrite (tput 0 t addr b) (addr + 1) r

/-- The address of a slot in a queue's memory: 4,160 bytes a slot (R412). -/
def slotAddr (count : BitVec 16) : Nat := (count.toNat % 16) * 4160

/-- Bytes read from queue memory. -/
def memRead (t : Tab Byte) (addr n : Nat) : List Byte := (List.range n).map (fun i => tget 0 t (addr + i))

/-- The packet that stands in the slot of a count, and its OPCODE (Table 17.1). -/
def packetAt (q : BitVec 3) (x : Queue) (count : BitVec 16) : Nat × Packet :=
  let a := slotAddr count
  let h := memRead x.mem a 64
  let plen := fieldAt h 4 2
  (fieldAt h 0 2,
    { queue := q, tag := BitVec.ofNat 16 (fieldAt h 2 2), plen := BitVec.ofNat 16 plen, flags := BitVec.ofNat 8 (fieldAt h 6 1)
      rsv1 := BitVec.ofNat 72 (fieldAt h 7 9), param := BitVec.ofNat 256 (fieldAt h 16 32), rsv2 := BitVec.ofNat 96 (fieldAt h 48 12)
      crc := BitVec.ofNat 32 (fieldAt h 60 4), payload := memRead x.mem (a + 64) (min plen 4096), internal := false })

/-- Does the slot of a count hold this packet? -/
def slotHolds (x : Queue) (count : BitVec 16) (op : Nat) (pk : Packet) : Bool :=
  let b := packetBytes op pk
  decide (memRead x.mem (slotAddr count) b.length = b)

/-- The packet put in the slot at the tail, and the tail moved on, where the queue holds no untaken packet and a slot
is free (R413). -/
def submit (q op : Nat) (pk : Packet) (s : State) : State :=
  let x := queueOf s q
  if x.taken = x.tail ∧ (x.tail - x.head).toNat < 16 then
    modQueue q (fun x => { x with mem := memWrite x.mem (slotAddr x.tail) (packetBytes op pk), tail := x.tail + 1 }) s
  else s

/-- Does a status count lie at or beyond a head of the status queue? -/
def atOrBeyond (head pos : BitVec 16) : Bool := decide ((pos - head).toNat < 32768)

/-- The oldest slot not yet returned (R416): of a packet whose first reply lies at or beyond the host's head, else of the last
packet taken where it has no reply yet, else none. -/
def oldestSlot (waits : Bool) (x : Queue) : BitVec 16 :=
  match x.firstAt.find? (fun e => atOrBeyond x.sqHead e.2) with
  | some e => e.1
  | none => if waits then x.taken - 1 else x.taken

/-- Slots whose first reply lies behind the host's head return (R416); what the mirror still needs to know of them is kept
(R427). -/
def returnSlots (waits : Bool) (x : Queue) : Queue :=
  { x with head := oldestSlot waits x, firstAt := x.firstAt.filter (fun e => atOrBeyond x.sqHeadMir e.2) }

/-- Does the last packet taken from a queue have no reply yet? -/
def waitsReply (s : State) (q : Nat) : Bool := heldIn s q || slowIn s q

/-- Post a reply: the entry at the tail of the status queue, the tail moved on, the interrupt bit (R418). -/
def postReply (h : HubId) (r : Reply) (s : State) : State :=
  irqBit h r.queue
    (modQueue r.queue (fun x => { x with replies := tset x.replies (x.sqTail.toNat % 64) r, sqTail := x.sqTail + 1 }) s)

/-- The first reply to the packet at a slot count. -/
def postFirst (h : HubId) (count : BitVec 16) (r : Reply) (s : State) : State :=
  postReply h r
    (modQueue r.queue (fun x => { x with firstAt := x.firstAt ++ [(count, x.sqTail)] }) s)

/-- Write result bytes into the payload area of the slot (R416), and of the mirrored one with the reply (R427). -/
def putResult (q : Nat) (count : BitVec 16) (pay : List Byte) (s : State) : State :=
  modQueue q (fun x => { x with mem := memWrite x.mem (slotAddr count + 64) pay, memMir := memWrite x.memMir (slotAddr count + 64) pay }) s

/-! ### Checks (Table 17.3) -/

/-- The header checks that ask nothing of the row: CRC, PLEN and its length where one is required, reserved bits. None where
they pass, else EOFF, the first byte of the field at fault (R418). -/
def headBad (op : Nat) (want : Option Nat) (pk : Packet) : Option Nat :=
  if pk.crc ≠ packetCrc op pk then some 60
  else if 4096 < pk.plen.toNat then some 4
  else if (match want with | some n => decide (pk.plen.toNat ≠ n) | none => false) then some 4
  else if pk.flags >>> 2 ≠ 0 then some 6
  else if pk.rsv1 ≠ 0 then some 7
  else if pk.rsv2 ≠ 0 then some 48
  else none

/-- Order 1 of Table 17.3: the packet itself, FORCE and LAST included. -/
def headFault (row : CmdRow) (pk : Packet) (s : State) : Option Nat :=
  match headBad row.op (row.plen s pk) pk with
  | some n => some n
  | none => if (isForce pk && !row.force) || (isLast pk && !row.pieced) then some 6 else none

def opClass (op : Nat) : Nat := op / 256

/-- Is a tenant under scrub (R358)? -/
def underScrub (s : State) (t : Nat) : Bool := s.keys.scrubs.any (fun x => x.tenant = t)

/-- Order 3 of Table 17.3 beside the row's ownership checks: role (R421) and device state (R423). -/
def permitted (row : CmdRow) (c : Caller) (s : State) : Bool :=
  decide (c.role ∈ row.roles) &&
  (match (if s.boot.refused then 2 else s.boot.device) with
   | 2 => decide (c.role = 0) && decide (opClass row.op ∈ [1, 0xB, 0xA, 7])
   | 1 => decide (c.role = 0) && decide (opClass row.op ∈ [1, 0xB, 0xA, 7, 9, 0xF])
   | _ => true) &&
  (if opClass row.op = 0xD ∨ opClass row.op = 0xE then s.keys.dbg.isSome else true) &&
  (if c.role = 2 then !underScrub s c.tenant else true) &&
  (if (opClass row.op = 0xB ∨ opClass row.op = 0xC) ∧ isForce c.pk then decide (c.role = 1) else true)

/-- The EOFF of a BAD_PARAM answer. -/
def badOff : Ans → Option Nat
  | .err st e _ => if st = stBadParam then some e else none
  | .errWith st e _ _ => if st = stBadParam then some e else none
  | _ => none

/-- Orders 3 to 8 for a packet that passes order 1. The TAG of R419 and the stray PARAM bytes stand in order 4 with the row's own checks, and
the first field at fault is named (R418); an ownership refusal of the row comes first all the same. -/
def answer (row : CmdRow) (c : Caller) (s : State) : Ans :=
  if !permitted row c s then ansDenied
  else
    let a := row.body c s
    let denied := match a with | .err st _ _ => decide (st = stNotPermitted) | .errWith st _ _ _ => decide (st = stNotPermitted) | _ => false
    if denied then a
    else if s.cmd.opens.any (fun o => o.queue = c.queue ∧ o.tag = c.pk.tag) then .err stBadParam 2 0
    else
      match strayParam c.pk row.named with
      | some i => if (badOff a).any (fun e => decide (e < eoffP i)) then a else badAt i
      | none =>
        let full := decide (8 ≤ openOf s c.queue)
        match a with
        | .opened key jobs s' =>
          if full then ansBusy else if c.pk.internal then .err stInternal 0 0 else .opened key jobs s'
        | .slow key jobs s' => if full then ansBusy else if c.pk.internal then .err stInternal 0 0 else .slow key jobs s'
        | .both r s' => if full then ansBusy else if c.pk.internal then .err stInternal 0 0 else .both r s'
        | .done r p cz s' => if c.pk.internal then .err stInternal 0 0 else .done r p cz s'
        | .err st e cz => if st = stNotInService ∧ row.long ∧ row.longAt c.pk ∧ full then ansBusy else .err st e cz
        | .errWith st e cz s' => .errWith st e cz s'

/-- The reply to a packet. -/
def replyOf (c : Caller) (st : Nat) (final : Bool) (rlen eoff cause : Nat) (res : List Byte) : Reply :=
  { tag := c.pk.tag, opcode := BitVec.ofNat 16 c.op, status := st, queue := c.queue, final, rlen, eoff, cause,
    res := padTo 16 res }

/-- A debug command arrives: the idle limit starts again, and a TRACE or STOP command that is performed is counted
(R363, R364). -/
def noteDebug (op : Nat) (performed : Bool) (s : State) : State :=
  if opClass op = 0xD ∨ opClass op = 0xE then
    { s with keys := { s.keys with dbg := s.keys.dbg.map (fun d =>
        { d with lastAt := now s, cmds := if performed then d.cmds + 1 else d.cmds }) } }
  else s

/-- Commit an answer in one step and post the first reply (R422). -/
def commit (row : CmdRow) (c : Caller) (a : Ans) (s : State) : State :=
  match a with
  | .done res pay cause s' =>
    postFirst c.hub c.count (replyOf c stDone true pay.length 0 cause res)
      (putResult c.queue c.count pay (noteDebug row.op true s'))
  | .opened key jobs s' =>
    postFirst c.hub c.count (replyOf c stAccepted false 0 0 0 [])
      { s' with cmd := { s'.cmd with opens := s'.cmd.opens ++
          [{ queue := c.queue, tag := c.pk.tag, opcode := BitVec.ofNat 16 c.op, key, jobs, beganAt := now s', role := c.role }] } }
  | .slow key jobs s' =>
    { s' with cmd := { s'.cmd with opens := s'.cmd.opens ++
        [{ queue := c.queue, tag := c.pk.tag, opcode := BitVec.ofNat 16 c.op, key, jobs, beganAt := now s', role := c.role, first := some c.count }] } }
  | .both res s' =>
    postReply c.hub (replyOf c stDone true 0 0 0 res)
      (postFirst c.hub c.count (replyOf c stAccepted false 0 0 0 []) (noteDebug row.op true s'))
  | .err st eoff cause =>
    let s1 := noteDebug row.op false s
    let s2 := if st = stInternal then
        raise (ev evCmdInternal [(2, c.queue), (2, c.pk.tag.toNat), (2, c.op), (4, (Config.fwLocation s.free).toNat)])
          { s1 with free := s1.free + 1 }
      else s1
    postFirst c.hub c.count (replyOf c st true 0 eoff cause []) s2
  | .errWith st eoff cause s' =>
    postFirst c.hub c.count (replyOf c st true 0 eoff cause []) (noteDebug row.op false s')

/-- Interpret a taken packet: check, perform, reply. -/
def interpret (row : CmdRow) (c : Caller) (s : State) : State :=
  match headFault row c.pk s with
  | some eoff => commit row c (.err stBadParam eoff 0) s
  | none => commit row c (answer row c s) s

/-- The role a queue gives its commands (R420). -/
def callerOf (h : HubId) (op : Nat) (pk : Packet) (count : BitVec 16) (s : State) : Caller :=
  let q := pk.queue.toNat
  let b := (queueOf s q).bind
  { hub := h, queue := q, role := if q = 0 then 0 else if b = 0 then 1 else 2, tenant := if q = 0 then 0 else b,
    op, pk, count }

/-- The slot of a count, in the other hub's memory, holds what it holds in this hub's. -/
def mirSlot (count : BitVec 16) (x : Queue) : Queue :=
  let a := slotAddr count
  { x with memMir := x.memMir.filter (fun e => e.1 < a) ++ x.mem.filter (fun e => decide (a ≤ e.1) && decide (e.1 < a + 4160)) ++
                       x.memMir.filter (fun e => a + 4160 ≤ e.1) }

/-- Take the next packet of a queue: it is mirrored, its slot is no longer the host's, and the rotation moves on (R414, R427). -/
def take (q : Nat) (s : State) : State :=
  let s1 := modQueue q (fun x => { mirSlot x.taken x with taken := x.taken + 1 }) s
  if q = 0 then s1 else { s1 with cmd := { s1.cmd with rr := q % 7 + 1 } }

/-- The opcodes of the command reference. -/
def knownOps : List Nat :=
  [0x0101, 0x0102, 0x0103, 0x0104, 0x0105, 0x0106, 0x0201, 0x0301, 0x0302, 0x0401, 0x0402, 0x0403,
   0x0410, 0x0411, 0x0412, 0x0413, 0x0414, 0x0501, 0x0502, 0x0503, 0x0504, 0x0601, 0x0602, 0x0603,
   0x0604, 0x0701, 0x0702, 0x0703, 0x0704, 0x0801, 0x0802, 0x0803, 0x0804, 0x0805, 0x0806, 0x0807,
   0x0901, 0x0902, 0x0903, 0x0904, 0x0A01, 0x0A02, 0x0A03, 0x0A04, 0x0B01, 0x0B02, 0x0B03, 0x0B04, 0x0B05,
   0x0B06, 0x0B07, 0x0B08, 0x0B09, 0x0B0A, 0x0B0B, 0x0C01, 0x0C02, 0x0D01, 0x0D02, 0x0D03, 0x0D04,
   0x0E01, 0x0E02, 0x0E03, 0x0E04, 0x0F01, 0x0F02, 0x0F03, 0x0F04, 0x0F05, 0x0F06, 0x1001, 0x1002,
   0x1003, 0x1101, 0x1102]

/-- The queue whose turn it is, where its next packet carries an opcode outside the command reference. -/
def unknownTurn (s : State) : Option (BitVec 3) :=
  ([0, 1, 2, 3, 4, 5, 6, 7] : List (BitVec 3)).find? (fun q =>
    let x := queueOf s q.toNat
    turnOf s q.toNat && decide ((packetAt q x x.taken).1 ∉ knownOps))

/-- Packets whose turn it is and whose opcode is outside the command reference are taken and answered BAD_OPCODE, after the
checks of order 1 (Table 17.3). The fuel bounds the packets that can wait. -/
def rejectUnknown : Nat → State → State
  | 0, s => s
  | n + 1, s =>
    match serving s, unknownTurn s with
    | some h, some q =>
      let x := queueOf s q.toNat
      let k := packetAt q x x.taken
      let s1 := take q.toNat s
      let c := callerOf h k.1 k.2 x.taken s1
      let r := match headBad k.1 none k.2 with
        | some e => replyOf c stBadParam true 0 e 0 []
        | none => replyOf c stBadOpcode true 0 0 0 []
      rejectUnknown n (postFirst h x.taken r s1)
    | _, _ => s

/-- The most packets that can wait: 16 in each of 8 queues. -/
def maxWaiting : Nat := 128

/-- A packet that PowerWarn holds waits in the order in which work came due (R472). -/
def holdCmd (q : Nat) (count : BitVec 16) (i : Instr) (s : State) : State :=
  { s with cmd := { s.cmd with held := s.cmd.held ++ [(q, count, i)] }, sync := { s.sync with due := s.sync.due ++ [.command] } }

/-- A command packet: submitted where nothing waits in its queue, and taken and interpreted when it is its queue's turn and it is the packet that
stands there (R413 to R415, R422); packets of no known opcode that come before it are answered first. In PowerWarn a command that changes a table is
taken and held without a reply (R426). -/
def runCmd (row : CmdRow) (i : Instr) (pk : Packet) (s : State) : State :=
  match serving s with
  | none => s
  | some h =>
    let q := pk.queue.toNat
    let s1 := rejectUnknown maxWaiting (submit q row.op pk s)
    if turnOf s1 q && slotHolds (queueOf s1 q) (queueOf s1 q).taken row.op pk then
      let count := (queueOf s1 q).taken
      let s2 := take q s1
      if powerWarn s2 && !quiet row pk then
        holdCmd q count i s2
      else interpret row (callerOf h row.op pk count s2) s2
    else s1

/-! ### Long-running commands and pieced loads -/

/-- The final reply of an open command (R424): results inline, RLEN 0. -/
def finalReply (o : OpenCmd) (st cause : Nat) (res : List Byte) : Reply :=
  { tag := o.tag, opcode := o.opcode, status := st, queue := o.queue, final := true, rlen := 0, eoff := 0, cause,
    res := padTo 16 res }

/-- Close every open command that a predicate names, posting its final reply; while no hub serves the reply waits for the one that
takes the role (R427). -/
def finishOpen (sel : OpenCmd → Bool) (st cause : Nat) (res : OpenCmd → List Byte) (s : State) : State :=
  let fin := s.cmd.opens.filter sel
  let s1 := { s with cmd := { s.cmd with opens := s.cmd.opens.filter (fun o => !sel o) } }
  match serving s with
  | some h => forEach fin (fun o s =>
      match o.first with
      | some n => postFirst h n (finalReply o st cause (res o)) s
      | none => postReply h (finalReply o st cause (res o)) s) s1
  | none => { s1 with cmd := { s1.cmd with finals := s1.cmd.finals ++ fin.map (fun o => (o, st, cause, res o)) } }

/-- Close the open commands of an opcode and key. -/
def finish (op key st : Nat) (res : List Byte) (s : State) : State :=
  finishOpen (fun o => o.opcode.toNat = op && o.key = key) st 0 (fun _ => res) s

/-- ACCEPTED for the open commands of an opcode and key that still wait for it. -/
def acceptOpen (op key : Nat) (s : State) : State :=
  let sel := fun (o : OpenCmd) => o.opcode.toNat = op && o.key = key && o.first.isSome
  let l := s.cmd.opens.filter sel
  let s1 := { s with cmd := { s.cmd with opens := s.cmd.opens.map (fun o => if sel o then { o with first := none } else o) } }
  match serving s with
  | some h => forEach l (fun o s => postFirst h (o.first.getD 0) { finalReply o stAccepted 0 [] with final := false } s) s1
  | none => s

def isOpen (op key : Nat) (s : State) : Bool := s.cmd.opens.any (fun o => o.opcode.toNat = op && o.key = key)

def loadOf (s : State) (op target : Nat) : Option Load := s.cmd.loads.find? (fun l => l.opcode = op && l.target = target)

def dropLoad (op target : Nat) (s : State) : State :=
  { s with cmd := { s.cmd with loads := s.cmd.loads.filter (fun l => !(l.opcode = op && l.target = target)) } }

/-- One piece of a pieced load (R175, R425). `lim` is the largest object; `fin` answers the last piece with the whole
object. A piece out of place, or past the limit, discards the load. -/
def piece (c : Caller) (s : State) (op target lim : Nat) (fin : List Byte → State → Ans) : Ans :=
  let off := parN c.pk 4 4
  let have_ := loadOf s op target
  let foreign := match have_ with | some l => decide (l.queue ≠ c.queue) | none => false
  if foreign then ansDenied
  else
    let bytes := match have_ with | some l => l.bytes | none => []
    let all := bytes ++ payOf c.pk
    if off ≠ bytes.length ∨ lim < all.length then .errWith stBadParam (eoffP 4) 0 (dropLoad op target s)
    else if isLast c.pk then fin all (dropLoad op target s)
    else
      let s1 := dropLoad op target s
      ansOk { s1 with cmd := { s1.cmd with loads := s1.cmd.loads ++ [{ opcode := op, target, queue := c.queue, bytes := all }] } }

end Sys2Proof.Machine
end

