-- ==== Sys2Proof/Machine/Sentry.lean ====
section
/-! DEFINITION. The sentry map of a warden (R226 to R229), the answers it gives (R45 to R51) and the core push. -/

namespace Sys2Proof.Machine
open Sys2Proof

/-- What a site's entry holds where nothing was written: the position 16 of a cluster is the spare (R185). -/
def defState (site : Nat) : Nat := if isCoreSite site && siteSlot site == 16 then stSpare else stInService

/-- The generation in force (R45). -/
def mapNow (w : Warden) : Tab Nat := if w.gen then w.map1 else w.map0

/-- The entry of a site in a map. -/
def mapGet (m : Tab Nat) (site : Nat) : Nat := tget (defState site) m (siteKey site)

/-- Write an entry of a map, in canonical form. -/
def mapPut (m : Tab Nat) (site st : Nat) : Tab Nat := tput (defState site) m (siteKey site) st

/-- The state a warden's map in force holds for a site. -/
def heldState (s : State) (p site : Nat) : Nat := mapGet (mapNow (war s p)) site

/-- The state of a physical core in its warden's map. -/
def coreState (s : State) (p src : Nat) : Nat := heldState s p (coreSite p src)

/-- Is a whole-cluster entry out of service? -/
def clusterOut (s : State) (p c : Nat) : Bool := outOfService (heldState s p (clusterSite p c))

/-- Is a core fenced for a reset of its own or of its cluster (R277)? -/
def coreFenced (s : State) (p src : Nat) : Bool :=
  decide (coreState s p src = stFenced) || decide (heldState s p (clusterSite p (src / 32)) = stFenced)

/-- The state of a partition in its own warden's map. -/
def partState (s : State) (p : Nat) : Nat := heldState s p (partSite p)

/-- A partition in service: its warden works (R23), its first generation is in force and its entry is InService or Probation. -/
def partInService (s : State) (p : Nat) : Bool := (war s p).alive && (war s p).valid && decide (partState s p ≤ 1)

/-- The whole-link entry that a lane site belongs to. -/
def linkOfLane (site : Nat) : Nat := site / 16 * 16 + 15

/-- Does a warden's map hold the site (R226)? Control cores are kind 4; sensors and other kinds are not held. -/
def mapHolds (p site : Nat) : Bool :=
  if sitePart site = p then
    if siteCluster site = 0x3FE then decide (siteKind site ≤ 4) else true
  else isPartSite site || isLinkSite site

/-- The answer of R226 from a map. -/
def answerMap (m : Tab Nat) (p site : Nat) : BitVec 2 :=
  if sitePart site ≠ p then
    if isPartSite site || isLinkSite site then sentryCode (mapGet m site) else 0
  else if isPartSite site then sentryCode (mapGet m site)
  else if outOfService (mapGet m (partSite p)) then 0
  else if siteCluster site = 0x3FE then
    if isLaneSite site && outOfService (mapGet m (linkOfLane site)) then 0 else sentryCode (mapGet m site)
  else if siteSlot site = 0x1F then sentryCode (mapGet m site)
  else if outOfService (mapGet m (clusterSite p (siteCluster site))) then 0
  else if mapGet m site = stInService ∧ mapGet m (partSite p) = stProbation then 2
  else sentryCode (mapGet m site)

/-- The answer a lookup at a warden receives (R46, R50): 00 before the first generation, for a dead warden (R69), for a
reserved site and for a site the map does not hold. -/
def answerAt (s : State) (p site : Nat) : BitVec 2 :=
  let w := war s p
  if w.alive && w.valid && okSite s site && mapHolds p site then answerMap (mapNow w) p site else 0

/-- What is pushed for a core (R51): 00 while its cluster is out of service, else its own state's code. -/
def pushAns (m : Tab Nat) (p src : Nat) : BitVec 2 :=
  if outOfService (mapGet m (clusterSite p (src / 32))) then 0 else sentryCode (mapGet m (coreSite p src))

/-- Cores whose pushed answer a changed site can change, ascending. -/
def pushSrcs (site : Nat) : List Nat :=
  if isCoreSite site then [siteSrc site]
  else if isClusterSite site then (List.range 17).map (fun i => siteCluster site * 32 + i)
  else []

/-- Push the cores of a list whose answer differs between two maps. -/
def pushDiff (p : Nat) (old new : Tab Nat) (srcs : List Nat) (s : State) : State :=
  forEach srcs (fun src s =>
    if pushAns old p src = pushAns new p src then s else drive (.push p src (pushAns new p src).toNat) s) s

/-- Every core of a partition, ascending. -/
def allSrcs : List Nat := (List.range 640).flatMap (fun c => (List.range 17).map (fun i => c * 32 + i))

/-- Push every core once (R51). -/
def pushAll (p : Nat) (s : State) : State :=
  forEach allSrcs (fun src s => drive (.push p src (pushAns (mapNow (war s p)) p src).toNat) s) s

/-- The field of a partition in snt_pmap, from a map (Table 2.4). -/
def pmapField (m : Tab Nat) (v : BitVec 196) (q : Nat) : BitVec 196 :=
  (v &&& ~~~(3#196 <<< (2 * q))) ||| ((sentryCode (mapGet m (partSite q))).setWidth 196 <<< (2 * q))

/-- snt_pmap follows the map in force, at the edges at which entries of a list change (R51); all fields at the first generation. -/
def drivePmap (p : Nat) (first : Bool) (sites : List Nat) (s : State) : State :=
  let w := war s p
  let qs := if first then parts else ((sites.filter isPartSite).map sitePart).filter (fun q => decide (q < 98))
  let v := if w.valid then qs.foldl (pmapField (mapNow w)) w.pmap else w.pmap
  if v = w.pmap then s else drive (.pmap p v) (modW p (fun w => { w with pmap := v }) s)

/-- A single-entry update: both generations at one edge, and the push of the answers it changes (R227, R51). -/
def setEntry (p site st : Nat) (s : State) : State :=
  let old := mapNow (war s p)
  let s1 := drivePmap p false [site] (modW p (fun w =>
    { w with map0 := mapPut w.map0 site st, map1 := mapPut w.map1 site st,
             sticky := w.sticky.filter (· ≠ siteKey site) }) s)
  if (war s p).valid then pushDiff p old (mapNow (war s1 p)) (pushSrcs site) s1 else s1

/-- A change of an entry that the warden makes itself, as its own decision ends: not while it has no hub contact, when it waits for the next
lease (R24). -/
def ownEntry (p site st : Nat) (s : State) : State :=
  if (war s p).lease.isNone then modW p (fun w => { w with entryDue := w.entryDue ++ [(site, st)] }) s else setEntry p site st s

/-- The entries that waited for a lease (R24). -/
def settleEntries (p : Nat) (s : State) : State :=
  forEach (war s p).entryDue (fun e s => setEntry p e.1 e.2 s) (modW p (fun w => { w with entryDue := [] }) s)

/-- An entry the warden itself fences (R24, R227): both generations, the open batch, and held across the switch. -/
def fenceEntry (p site : Nat) (s : State) : State :=
  let s1 := setEntry p site stFenced s
  modW p (fun w =>
    { w with batch := w.batch.map (fun b => b ++ [(siteKey site, stFenced)]),
             sticky := if w.batch.isSome then insertOnce w.sticky (siteKey site) else w.sticky }) s1

/-- Has the Primary a batch open at a warden: sent, and its switch not yet acknowledged (R227)? -/
def batchOpen (s : State) (p : Nat) : Bool :=
  (war s p).batch.isSome || s.net.any (fun m => match m with | .switched q b _ => decide (q = p) && b | _ => false)

/-- Must a map change wait at the Primary for what is open or due at a warden before it? -/
def mapWaits (s : State) (p : Nat) : Bool := batchOpen s p || decide ((war s p).mapDue ≠ [])

/-- The Primary's decision on an entry, sent to a warden (R228); not while a batch of its is open, when it waits (R227, R229). -/
def sendEntry (p site st : Nat) (s : State) : State :=
  if mapWaits s p then modW p (fun w => { w with mapDue := w.mapDue ++ [(false, [(siteKey site, st)])] }) s
  else send (.sentry p site st) s

/-- The state the map holds beneath a fence: what the resource returns to. -/
def beneath (s : State) (p src : Nat) : Nat :=
  let st := coreState s p src
  if st = stFenced then (((tget {} (war s p).cores src).before).getD (defState (coreSite p src))) else st

/-- The generation switch: the batch's entries, except those the warden fenced itself, take effect at one edge, snt_gen
toggles, and both generations are equal after it (R227, R49). The first generation in force, and a join, push every core
(R51). -/
def switchBatch (p : Nat) (all : Bool) (s : State) : State :=
  match (war s p).batch with
  | none => s
  | some es =>
    let w0 := war s p
    let old := mapNow w0
    let new := es.foldl (fun m e => if e.1 ∈ w0.sticky then m else mapPut m e.1 e.2) old
    let s1 := drivePmap p (!w0.valid) (es.map (·.1)) (modW p (fun w =>
      { w with map0 := new, map1 := new, gen := !w.gen, valid := true, batch := none, sticky := [] }) s)
    let s2 := if all || !w0.valid then pushAll p s1
              else pushDiff p old new (sortNat ((es.flatMap (fun e => pushSrcs e.1)).eraseDups)) s1
    send (.switched p true es) s2

end Sys2Proof.Machine
end

