-- ==== Sys2Proof/Machine/Tally.lean ====
section
/-! DEFINITION. Epoch tallies of a warden (R110, R247): opening, outstanding counts, failures, the reports they send. -/

namespace Sys2Proof.Machine
open Sys2Proof

/-! ### Failure kinds, in the bits of EV_STEP_REPLAY (Table 10.7) -/

def fkShadow : BitVec 8 := 0x01
def fkCert : BitVec 8 := 0x02
def fkLoss : BitVec 8 := 0x04
def fkPoison : BitVec 8 := 0x08
def fkTimeout : BitVec 8 := 0x10
def fkDup : BitVec 8 := 0x20
def fkWithdrawn : BitVec 8 := 0x40
def fkTallyFull : BitVec 8 := 0x80

/-- The tally of an epoch, if one is open. -/
def tallyOf (w : Warden) (e : Nat) : Option Tally := w.tallies.find? (fun t => t.epoch = e)

/-- Replace the tally of an epoch. -/
def setTally (w : Warden) (t : Tally) : Warden :=
  { w with tallies := w.tallies.map (fun x => if x.epoch = t.epoch then t else x) }

/-- Change the tally of an epoch at a warden. -/
def modTally (p e : Nat) (f : Tally → Tally) (s : State) : State :=
  modW p (fun w => { w with tallies := w.tallies.map (fun x => if x.epoch = e then f x else x) }) s

/-- Every failure kind recorded in a tally, those of its triages included. -/
def tallyKinds (t : Tally) : BitVec 8 := t.triFails.foldl (fun k x => k ||| x.2) t.kinds

/-- The local object whose barrier is armed over an epoch at a warden (R238, R239). -/
def objOfEpoch (w : Warden) (e : Nat) : Option (Nat × LocalObj) :=
  w.objs.find? (fun o => o.2.type = 1 ∧ (o.2.state = 2 ∨ o.2.state = 3) ∧ o.2.epoch ≤ e ∧ e ≤ o.2.elast)

/-- Does a failure of the epoch hold a barrier at this warden? An epoch of no armed barrier is reported all the same and
is a late finding (R243, R250). -/
def gatesEpoch (w : Warden) (e : Nat) : Bool :=
  match objOfEpoch w e with | some (_, o) => o.gate | none => true

/-- A failure report of an epoch is sent to the Primary (R247); it names the triage it opens, or says input fault. -/
def sendFailure (p e : Nat) (tri : Option Nat) (inp : Bool) (s : State) : State :=
  let w := war s p
  match tallyOf w e with
  | none => s
  | some t =>
    if gatesEpoch w e then
      send (.failure p e { kinds := tallyKinds t, site := if t.first = 0 then partSite p else t.first, triage := tri,
                           input := inp || t.input, attempt := match objOfEpoch w e with | some (_, o) => o.acted | none => 0 }) s
    else s

/-- The failure report that answers a clear order: failures of the epoch that remain, reported before (R255). -/
def sendAgain (p e : Nat) (s : State) : State :=
  let w := war s p
  match tallyOf w e with
  | none => s
  | some t =>
    if gatesEpoch w e then
      send (.failure p e { kinds := tallyKinds t, site := if t.first = 0 then partSite p else t.first, again := true,
                           attempt := match objOfEpoch w e with | some (_, o) => o.acted | none => 0 }) s
    else s

/-- Open the tally of an epoch if it is not open and one is free (R110). -/
def openTally (p e : Nat) (s : State) : State :=
  let w := war s p
  match tallyOf w e with
  | some _ => s
  | none =>
    if w.tallies.length < 256 then
      modW p (fun w => { w with
        tallies := w.tallies ++ [{ epoch := e, psnEv := (w.psnLate.filter (fun x => x.1 = e)).map (·.2) }]
        psnLate := w.psnLate.filter (fun x => x.1 ≠ e) }) s
    else s

/-- Is a report of the epoch refused because every tally is in use (R110)? -/
def tallyFull (s : State) (p e : Nat) : Bool :=
  (tallyOf (war s p) e).isNone && decide (256 ≤ (war s p).tallies.length)

/-- The refusal: EV_TALLY_FULL, and one failure report with cause tally full, repeated until the Primary acknowledges
(R110). -/
def refuseTally (p e : Nat) (s : State) : State :=
  let s1 := raiseW p (ev evTallyFull [(2, p), (4, e), (4, (war s p).tallies.length)]) s
  if (war s p).tfRep.any (fun r => r.1 = e) then s1
  else
    send (.failure p e { kinds := fkTallyFull, site := partSite p })
      (modW p (fun w => { w with tfRep := w.tfRep ++ [(e, 0)] }) s1)

/-- Report handling on an epoch: refused where no tally is free, else done with the tally open. -/
def withTally (p e : Nat) (f : State → State) (s : State) : State :=
  if tallyFull s p e then refuseTally p e s else f (openTally p e s)

/-- Record a failure that is no triage's, with the site that failed first, and report it (R247). -/
def failTally (p e : Nat) (k : BitVec 8) (site : Nat) (s : State) : State :=
  sendFailure p e none false (modTally p e (fun t => { t with kinds := t.kinds ||| k, first := if t.first = 0 then site else t.first }) s)

/-- Record a failure held by a triage of a tile (R255). -/
def failTriage (p e tid : Nat) (k : BitVec 8) (site : Nat) (s : State) : State :=
  sendFailure p e (some tid) false (modTally p e (fun t =>
    { t with triFails := t.triFails ++ [(tid, k)], first := if t.first = 0 then site else t.first }) s)

/-- The outstanding count rises or falls (R107, R127). -/
def outUp (p e : Nat) (s : State) : State := modTally p e (fun t => { t with out := t.out + 1 }) s
def outDown (p e : Nat) (s : State) : State := modTally p e (fun t => { t with out := t.out - 1 }) s

/-- A core or engine reported to the epoch as an original (R220). -/
def noteCore (p e src : Nat) (s : State) : State := modTally p e (fun t => { t with cores := insertOnce t.cores src }) s

/-- Is the record of an operation still to come in the execution under way: one that failed before and has not reported again, or the
replayed row of an engine triage? A missing record counts as outstanding (R113). -/
def recordMissing (w : Warden) (o : LocalObj) : Bool :=
  w.firsts.any (fun f => !f.core && decide (f.epoch = o.epoch) && decide (f.attempt < o.acted)) ||
  w.triages.any (fun t => decide (t.kind = 2) && decide (t.epoch = o.epoch) && t.cid2.isNone && decide (t.attempt < o.acted))

/-- Does a gating warden now owe epoch-clean (R247)? All local arrivals in, nothing outstanding, no failure recorded, and no replay of
the epoch ordered that its cores have not begun; a
warden with no participants answers only a close query. -/
def cleanDue (w : Warden) (o : LocalObj) : Bool :=
  !recordMissing w o &&
  o.gate && !o.cleanSent && o.replay.isNone && decide (o.arr = o.parts) && (decide (0 < o.parts) || o.query) &&
  (match tallyOf w o.epoch with
   | some t => decide (t.out = 0) && decide (tallyKinds t = 0)
   | none => true)

/-- Change a warden's copy of an object, where it holds one. -/
def modLobj (p o : Nat) (f : LocalObj → LocalObj) (s : State) : State :=
  modW p (fun w => { w with objs := w.objs.map (fun e => if e.1 = o then (e.1, f e.2) else e) }) s

/-- Send epoch-clean for every local barrier that owes it. -/
def sendClean (p : Nat) (s : State) : State :=
  let w := war s p
  if w.lease.isNone then s else
  forEach (w.objs.filter (fun o => o.2.type = 1 ∧ cleanDue w o.2)) (fun o s =>
    send (.clean p o.2.epoch o.2.acted)
      (modLobj p o.1 (fun x => { x with cleanSent := true }) s)) s

/-- A withdrawn core: every open tally to which it had reported is marked not clean (R220). -/
def markWithdrawn (p src : Nat) (s : State) : State :=
  forEach ((war s p).tallies.filter (fun t => src ∈ t.cores)) (fun t s => failTally p t.epoch fkWithdrawn (coreSite p src) s) s

/-- Has EV_POISON_CONSUMED been raised for a core or engine and an epoch, whose tally is open or has closed (R117, R108)? -/
def psnRaised (w : Warden) (e site : Nat) : Bool :=
  match tallyOf w e with
  | some t => decide (site ∈ t.psnEv)
  | none => decide ((e, site) ∈ w.psnLate)

/-- EV_POISON_CONSUMED, once for a consuming core or engine and epoch (R117), after the epoch's release too (R108). -/
def poisonEvent (p e site id source : Nat) (s : State) : State :=
  if psnRaised (war s p) e site then s
  else
    raiseW p (evAt evPoisonConsumed site [(4, site), (4, e), (4, id), (1, source)])
      (if (tallyOf (war s p) e).isSome then modTally p e (fun t => { t with psnEv := t.psnEv ++ [site] }) s
       else modW p (fun w => { w with psnLate := w.psnLate ++ [(e, site)] }) s)

/-- Poison of an epoch by one core or engine (R117): its first report raises the event and marks the epoch. -/
def poisonEpoch (p e site id source : Nat) (s : State) : State :=
  match tallyOf (war s p) e with
  | none => s
  | some t =>
    if site ∈ t.poison then s
    else
      failTally p e fkPoison site
        (poisonEvent p e site id source (modTally p e (fun t => { t with poison := t.poison ++ [site] }) s))

/-- A loss strobe of an epoch, for every cluster of a group (R53). -/
def lossEpoch (p e : Nat) (s : State) : State := failTally p e fkLoss (partSite p) s

/-- Is the epoch's execution a replay (R128, R255)? -/
def inReplay (w : Warden) (e : Nat) : Bool := w.objs.any (fun o => o.2.type = 1 ∧ o.2.epoch = e ∧ 0 < o.2.acted)

end Sys2Proof.Machine
end

