-- ==== Sys2Proof/Machine/Defects.lean ====
section
/-! DEFINITION. The defect table (R214 to R217), the transient log and evidence (R83, R84, R95, R96), and withdrawal and
return of resources (R218 to R222). -/

namespace Sys2Proof.Machine
open Sys2Proof

/-! ### Entries (Table 9.1) -/

def defEntry (site kind layer st evid time : Nat) : BitVec 64 :=
  BitVec.ofNat 64 (site * 4294967296 + kind % 16 * 268435456 + layer % 8 * 33554432 + st % 8 * 4194304 + evid % 64 * 65536 + time % 65536)

def defSite (e : BitVec 64) : Nat := e.toNat / 4294967296
def defKind (e : BitVec 64) : Nat := e.toNat / 268435456 % 16
def defLayer (e : BitVec 64) : Nat := e.toNat / 33554432 % 8
def defSt (e : BitVec 64) : Nat := e.toNat / 4194304 % 8
def defEvid (e : BitVec 64) : Nat := e.toNat / 65536 % 64

/-- The index and entry of a resource (R215). -/
def defFind (s : State) (site : Nat) : Option (Nat × BitVec 64) :=
  s.defects.tab.find? (fun e => siteKey (defSite e.2) = siteKey site)

def hasEntry (s : State) (site : Nat) : Bool := (defFind s site).isSome

/-- The state an entry gives a resource: 4, 5, or none. -/
def defState? (s : State) (site : Nat) : Option Nat := (defFind s site).map (fun e => defSt e.2)

def modDefects (f : Defects → Defects) (s : State) : State := { s with defects := f s.defects }

/-- Write an entry; the change is to be committed (R216). -/
def defWrite (i : Nat) (e : BitVec 64) (s : State) : State :=
  modDefects (fun d => { d with tab := tset d.tab i e, dirty := true }) s

def defErase (i : Nat) (s : State) : State := modDefects (fun d => { d with tab := tdel d.tab i, dirty := true }) s

/-- The lowest free index. -/
def defFree (s : State) : Option Nat := firstKey (fun i => (tfind s.defects.tab i).isNone) 0 32768

/-! ### Evidence -/

/-- The screening unit of a resource: cluster units first, then ring units (chapter 3). -/
def unitOf (site : Nat) : Option Nat :=
  if isCoreSite site then some (640 * sitePart site + siteCluster site)
  else if isEngineSite site then
    (Config.ringKind (sitePart site) (siteIdx site)).map (fun k => 62720 + 6 * sitePart site + (k - 1))
  else none

def modUnit (u : Nat) (f : GUnit → GUnit) (s : State) : State := { s with gov := { s.gov with units := tmod {} s.gov.units u f } }

/-- A finding of Table 3.3 is charged: its unit's new evidence, and the resource's own count (R83, R214). -/
def charge (site : Nat) (s : State) : State :=
  match unitOf site with
  | some u => modUnit u (fun g => { g with ev := g.ev + 1 })
      { s with gov := { s.gov with evid := tadd s.gov.evid (siteKey site) 1 } }
  | none => s

/-- The governor takes a withdrawn resource's evidence count out of its unit (R84). -/
def uncharge (site n : Nat) (s : State) : State :=
  match unitOf site with
  | some u => modUnit u (fun g => { g with sub := g.sub + n }) s
  | none => s

/-! ### Sentry entries of a resource -/

/-- The warden that owns a site's entry. Hub-level resources have none. -/
def ownerOf (site : Nat) : Option Nat := if sitePart site ≤ 97 then some (sitePart site) else none

/-- Send a resource's new state to its owner's map (R228: others follow its acknowledgement). A core, cluster or partition
beneath a fence keeps the fence (Table 9.4). -/
def sentryTo (site st : Nat) (s : State) : State :=
  match ownerOf site with
  | some p => sendEntry p (siteKey site) st s
  | none => s

/-! ### Adding, folding, retiring, removing -/

/-- Retire causes of EV_RETIRE (Table 9.9). -/
def rcConfirm : Nat := 1
def rcRestore : Nat := 2
def rcOperator : Nat := 3
def rcEscalation : Nat := 4
def rcFold : Nat := 5

def retireCause (kind : Nat) : Nat := if kind = 12 then rcOperator else if kind = 8 then rcEscalation else if kind = 15 then rcFold else rcConfirm

/-- Entries of the table in a cluster or partition. -/
def entriesIn (s : State) (f : Nat → Bool) : List (Nat × BitVec 64) := s.defects.tab.filter (fun e => f (defSite e.2))

def inCluster (cs site : Nat) : Bool :=
  decide (sitePart site = sitePart cs) && decide (siteCluster site = siteCluster cs)

/-- The key with the highest count, the lowest key on a tie. -/
def topCount (l : List Nat) : Option (Nat × Nat) :=
  l.eraseDups.foldl (fun b k =>
    let n := (l.filter (· = k)).length
    match b with
    | none => some (k, n)
    | some (k0, n0) => if n0 < n ∨ (n0 = n ∧ k < k0) then some (k, n) else b) none

/-- Make room in a full table: fold the cluster with most core entries, else the partition with most entries (R217). -/
def fold (s : State) : State :=
  let sites := s.defects.tab.map (fun e => defSite e.2)
  let cl : Option (Nat × Nat) := topCount ((sites.filter isCoreSite).map (fun x => clusterSite (sitePart x) (siteCluster x)))
  let pa : Option (Nat × Nat) := topCount ((sites.filter (fun x => decide (sitePart x ≤ 97))).map (fun x => partSite (sitePart x)))
  let pa2 : Option Nat := match pa with | some (k, n) => if 2 ≤ n then some k else none | none => none
  let target : Option Nat := match cl with | some (k, n) => if 2 ≤ n then some k else pa2 | none => pa2
  match target with
  | none => s
  | some t =>
    let inside : Nat → Bool := fun x => if isPartSite t then decide (sitePart x = sitePart t) else inCluster t x
    let mem := entriesIn s inside
    let evid := satTo 63 (mem.foldl (fun n (e : Nat × BitVec 64) => n + defEvid e.2) 0)
    let s1 := modDefects (fun d => { d with tab := d.tab.filter (fun e => !inside (defSite e.2)), dirty := true }) s
    match defFree s1 with
    | none => s
    | some i =>
      let s2 := defWrite i (defEntry t 15 7 5 evid (now s / 1099511627776)) s1
      let s3 := raise (evAt evRetire t [(4, t), (1, 15), (1, rcFold)])
        (raise (evAt evDefectFold t [(4, t), (4, mem.length), (4, s2.defects.tab.length)]) s2)
      sentryTo t stRetired s3

/-- A finding that withdraws nothing names a resource: the EVID of its entry, if it has one, rises by one (R215). -/
def moreEvid (site : Nat) (s : State) : State :=
  match defFind s site with
  | some (i, e) => defWrite i (defEntry (defSite e) (defKind e) (defLayer e) (defSt e) (satTo 63 (defEvid e + 1)) (e.toNat % 65536)) s
  | none => s

/-- A withdrawing finding names a resource that has an entry: EVID rises, and a retiring finding sets it to Retired (R215). -/
def evidOn (kind st i : Nat) (e : BitVec 64) (s : State) : State :=
  let st' := if st = 5 then 5 else defSt e
  let s1 := defWrite i (defEntry (defSite e) (defKind e) (defLayer e) st' (satTo 63 (defEvid e + 1)) (e.toNat % 65536)) s
  if st = 5 ∧ defSt e = 4 then
    sentryTo (defSite e) stRetired
      (raise (evAt evRetire (defSite e) [(4, defSite e), (1, defKind e), (1, retireCause kind)]) s1)
  else s1

/-- A finding withdraws a resource: a new entry with its event, or EVID of the one it has, which a retiring finding also sets to Retired (R215). A
full table is folded first, which may itself make the resource's entry (R217). The site may name a unit of a core. `quiet` raises no event of its
own. The evidence is taken out of the unit (R84) when the entry is made, and not again when the resource is Retired later (DEDUCED, log entry 136).
-/
def addEntry (site kind layer st : Nat) (quiet : Bool) (s : State) : State :=
  let s0 := if (defFind s site).isNone ∧ 32768 ≤ s.defects.tab.length then fold s else s
  match defFind s0 site with
  | some (i, e) => evidOn kind st i e s0
  | none =>
    match defFree s0 with
    | none => s0
    | some i =>
      let n := satTo 63 (tget 0 s0.gov.evid (siteKey site))
      let s1 := uncharge site n (defWrite i (defEntry site kind layer st n (now s / 1099511627776)) s0)
      let s2 :=
        if quiet then s1
        else if st = 4 then raise (evAt evQuarantine site [(4, site), (1, kind), (1, layer), (4, n)]) s1
        else raise (evAt evRetire site [(4, site), (1, kind), (1, retireCause kind)]) s1
      sentryTo site st s2

/-- An entry is set to Retired: a failed confirmation or restore test, or the operator (Table 9.4, R224). -/
def retireEntry (site cause : Nat) (s : State) : State :=
  match defFind s site with
  | none => s
  | some (i, e) =>
    sentryTo (defSite e) stRetired
      (raise (evAt evRetire (defSite e) [(4, defSite e), (1, defKind e), (1, cause)])
        (defWrite i (defEntry (defSite e) (defKind e) (defLayer e) 5 (defEvid e) (e.toNat % 65536)) s))

/-- The entry of a resource is removed. -/
def removeEntry (site : Nat) (s : State) : State :=
  match defFind s site with
  | some (i, _) => defErase i s
  | none => s

/-! ### Slots of a cluster (R185) -/

def cluOf (s : State) (p c : Nat) : Clu := tget {} (war s p).clus c

def modClu (p c : Nat) (f : Clu → Clu) (s : State) : State := modW p (fun w => { w with clus := tmod {} w.clus c f }) s

def coreOf (s : State) (p src : Nat) : Core := tget {} (war s p).cores src

def modCore (p src : Nat) (f : Core → Core) (s : State) : State := modW p (fun w => { w with cores := tmod {} w.cores src f }) s

/-- The physical position that holds a logical slot. -/
def posOfSlot (s : State) (p c slot : Nat) : Nat := tget slot (cluOf s p c).map slot

/-- The logical slot a physical position holds, if any. -/
def slotOfPos (s : State) (p c pos : Nat) : Option Nat := (List.range 16).find? (fun k => posOfSlot s p c k = pos)

/-- The cluster's spare: the lowest position whose state is Spare. -/
def spareOf (s : State) (p c : Nat) : Option Nat :=
  (List.range 17).find? (fun i => beneath s p (srcOf c i) = stSpare)

/-- Has the cluster a spare that no entry has withdrawn, though the entry's update may be on its way (R220)? -/
def goodSpare (s : State) (p c : Nat) : Bool :=
  (List.range 17).any (fun i => decide (beneath s p (srcOf c i) = stSpare) && !hasEntry s (coreSite p (srcOf c i)))

/-- Withdrawn for good or quarantined: the entry or the map says so. -/
def coreGone (s : State) (p src : Nat) : Bool :=
  hasEntry s (coreSite p src) || decide (beneath s p src = stQuarantined) || decide (beneath s p src = stRetired)

/-- Cores of a cluster with no entry. -/
def usable (s : State) (p c : Nat) : List Nat := (List.range 17).filter (fun i => !hasEntry s (coreSite p (srcOf c i)))

/-- Is the cluster short: a whole-cluster entry of KIND 10? -/
def isShort (s : State) (p c : Nat) : Bool :=
  match defFind s (clusterSite p c) with | some (_, e) => decide (defKind e = 10) | none => false

/-- The cluster becomes short (R221). -/
def makeShort (p c : Nat) (s : State) : State :=
  if isShort s p c then s
  else
    raise (evAt evClusterShort (clusterSite p c) [(4, clusterSite p c), (4, (usable s p c).length)])
      (modClu p c (fun k => { k with rot := 6, cand := none }) (addEntry (clusterSite p c) 10 7 4 false s))

/-- A core's withdrawal vacates its slot: with no spare, and none under a test that R471 waits for, the cluster is
short (R220, R221). The operator's withdrawal does not wait (R224). -/
def vacate (p src : Nat) (operator : Bool) (s : State) : State :=
  let c := src / 32
  match slotOfPos s p c (src % 32) with
  | none => s
  | some _ =>
    if goodSpare s p c then s
    else if !operator && decide ((cluOf s p c).rot = 3) then s
    else makeShort p c s

/-- Is a core O, S or T of an open or waiting triage (R134)? -/
def inTriage (w : Warden) (src : Nat) : Bool :=
  (w.triages ++ w.triWait).any (fun t =>
    t.kind ≠ 2 && (t.o = src || (t.kind = 0 && (t.s = src || (match t.t with | some r => r.core = src | none => false)))))

/-- May a core be the candidate of its cluster: it is active, holds a slot, has no entry, and is no core of an open triage (R195)? -/
def candOk (s : State) (p c i : Nat) : Bool :=
  decide (coreState s p (srcOf c i) ≤ 1) && !coreFenced s p (srcOf c i) && !coreGone s p (srcOf c i) && (slotOfPos s p c i).isSome && !inTriage (war s p) (srcOf c i)

/-- The oldest of a list of positions by a key, the first on a tie. -/
def oldestOf (l : List Nat) (key : Nat → Int) : Option Nat :=
  l.foldl (fun b i => match b with | none => some i | some j => if key i < key j then some i else b) none

/-- The candidate of a rotation (R195): the subject of an open QUAR.SET, else the oldest urgent core, else the core with the oldest
last-test time, lowest position on a tie. -/
def chooseCand (s : State) (p c : Nat) : Option Nat :=
  let act := (List.range 17).filter (candOk s p c)
  let age := fun i => (coreOf s p (srcOf c i)).lastTest
  (act.find? (fun i => (coreOf s p (srcOf c i)).quarSet.isSome)).orElse (fun _ =>
    (oldestOf (act.filter (fun i => (coreOf s p (srcOf c i)).urgent)) age).orElse (fun _ => oldestOf act age))

/-- The candidate of a cluster: during its start test a core that QUAR.SET names or the oldest urgent core, else the lowest
start-untested active core (R314). -/
def candidateOf (s : State) (p c : Nat) : Option Nat :=
  if (cluOf s p c).startDone || (List.range 17).any (fun i => candOk s p c i && ((coreOf s p (srcOf c i)).urgent || (coreOf s p (srcOf c i)).quarSet.isSome)) then
    chooseCand s p c
  else (List.range 17).find? (fun i => candOk s p c i && (coreOf s p (srcOf c i)).untested)

/-- The candidate of an open offer left service, or became a core of a triage: another is chosen (R194, R195). -/
def chooseAgain (p c : Nat) (s : State) : State :=
  let k := cluOf s p c
  if decide (k.rot = 1) && k.cand.all (fun i => !candOk s p c i) then
    modClu p c (fun k => { k with cand := candidateOf s p c }) s
  else s

/-- A run whose core left service counts as never ordered, whatever it gave (R136). -/
def endRun (src : Nat) (r : Run) : Run := if r.core = src then { r with got := some none } else r

/-- A core leaves service: no run of a triage awaits it, and the triage charges nothing to it (R136). -/
def leaveTriage (src : Nat) (t : Triage) : Triage :=
  if t.kind ≠ 2 ∧ (t.o = src ∨ (t.kind = 0 ∧ (t.s = src ∨ t.t.map (·.core) = some src))) then
    { t with left := insertOnce t.left src, o2 := endRun src t.o2, s2 := t.s2.map (endRun src), t := t.t.map (endRun src) }
  else t

/-- A repeat order for a core. -/
def isRepeat (src : Nat) (d : Disp) : Bool := decide (d.kind = 3) && decide (d.dst = src)

/-- Its repeats that are not dispatched yet are not dispatched (R136). -/
def leaveTriages (p src : Nat) (s : State) : State :=
  modW p (fun w => { w with
    triages := w.triages.map (leaveTriage src), triWait := w.triWait.map (leaveTriage src)
    shdQ := (w.shdQ.map (fun e => (e.1, e.2.filter (fun d => !isRepeat src d)))).filter (fun e => decide (e.2 ≠ []))
    heldW := w.heldW.filter (fun x => match x with | .disp _ _ d => !isRepeat src d | _ => true) }) s

/-! ### Debt (R196, R197) -/

/-- Warden-timer units: ticks of 10 ns. -/
def secTicks : Nat := 100000000

/-- D in timer units (R191). -/
def dTicks (s : State) : Nat := s.test.dMin * 60 * secTicks

/-- The age of a core: timer units since its last-test time (R196). -/
def ageOf (s : State) (p src : Nat) : Nat := (((war s p).timer : Int) - (coreOf s p src).lastTest).toNat

/-- Debt of a core in hours. -/
def debtHours (s : State) (p src : Nat) : Rat :=
  if coreGone s p src then 0
  else
    ((ageOf s p src - dTicks s : Nat) : Rat) / (3600 * secTicks)

/-- h_i of a cluster. -/
def clusterDebt (s : State) (p c : Nat) : Rat :=
  ((List.range 17).map (fun i => debtHours s p (srcOf c i))).foldl (· + ·) 0

/-- A cluster free of debt may enter it again (R197). -/
def clearDebt (p c : Nat) (s : State) : State :=
  if (cluOf s p c).inDebt && decide (clusterDebt s p c = 0) then modClu p c (fun k => { k with inDebt := false }) s else s

/-- Every cluster that was in debt is looked at: D has changed. -/
def clearDebts (s : State) : State :=
  forEach (s.wardens.flatMap (fun w => (w.2.clus.filter (fun k => k.2.inDebt)).map (fun k => (w.1, k.1)))) (fun x s => clearDebt x.1 x.2 s) s

/-- An order of QUAR.SET that awaited the core's yield is done by a withdrawal of another cause; it may still ask for
Retired (R224). -/
def settleOrder (p src : Nat) (s : State) : State :=
  match (coreOf s p src).quarSet with
  | none => s
  | some st =>
    let s1 := modCore p src (fun c => { c with quarSet := none }) s
    finish 0x0703 (coreSite p src) stDone []
      (if st = 5 ∧ defState? s (coreSite p src) = some 4 then retireEntry (coreSite p src) rcOperator s1 else s1)

/-- Withdraw a core (R218, R220): its entry and event, the marking of its open epochs, its confirmation (R219), its slot, the offer it
was the candidate of (R194) and the debt it takes with it (R197). `unit` names the failing unit or 0x3FF. -/
def withdrawCore (p src unit kind layer st : Nat) (s : State) : State :=
  let fresh := !hasEntry s (coreSite p src)
  let s1 := addEntry (siteOf p (src / 32) (src % 32) unit) kind layer st false s
  if fresh then
    let s2 := modCore p src (fun c => { c with confirm := decide (st = 4), urgent := false }) (markWithdrawn p src (leaveTriages p src (settleOrder p src s1)))
    clearDebt p (src / 32) (chooseAgain p (src / 32) (vacate p src (decide (kind = 12)) s2))
  else s1

/-- An engine is withdrawn (Table 9.5). -/
def withdrawEngine (p idx kind layer st : Nat) (s : State) : State := addEntry (engineSite p idx) kind layer st false s

/-- Withdraw a core or an engine by its site. -/
def withdrawSite (site kind layer : Nat) (s : State) : State :=
  if isCoreSite site then withdrawCore (sitePart site) (siteSrc site) (siteUnit site) kind layer 4 s
  else if isEngineSite site then withdrawEngine (sitePart site) (siteIdx site) kind layer 4 s
  else s

/-! ### Transients (R95, R96) -/

def dayNs : Nat := 86400000000000

/-- Log entries of a resource within the half-open day that ends at t. -/
def inWindow (s : State) (site t : Nat) : Nat :=
  (s.gov.log.filter (fun e => siteKey e.1 = siteKey site ∧ e.2 ≤ t ∧ t < e.2 + dayNs)).length

/-- A transient is logged, stamped at ingestion; a full log drops its oldest entry with an event (R95, R96). -/
def logTransient (site : Nat) (s : State) : State :=
  let t := now s
  let s1 :=
    match s.gov.log with
    | e :: rest => if 2048 ≤ s.gov.log.length then
        raise (evAt evTransientLogFull e.1 [(4, e.1), (8, e.2)]) { s with gov := { s.gov with log := rest } }
        else s
    | [] => s
  nvWrite nvCounters { s1 with gov := { s1.gov with log := s1.gov.log ++ [(siteKey site, t)] } }

/-- A transient is ingested: evidence, the log, and at three entries in the window a quarantine of KIND 2 (R95). -/
def ingestTransient (site layer : Nat) (event : Nat → Ev) (s : State) : State :=
  let s1 := logTransient site (charge site s)
  let k := inWindow s1 site (now s)
  let s2 := raise (event k) s1
  if 3 ≤ k then withdrawSite site 2 layer s2 else moreEvid site s2

/-- A finding made while no hub is Primary or Sole waits until one ingests it (R83, R95). -/
def holdCharge (x : HeldCharge) (s : State) : State := { s with gov := { s.gov with held := s.gov.held ++ [x] } }

/-- A transient is charged, at the ingestion time of the serving hub (R95). -/
def transientOn (site layer : Nat) (event : Nat → Ev) (s : State) : State :=
  if (serving s).isNone then holdCharge { site, perm := false, layer, ev := event 0 } s
  else ingestTransient site layer event s

/-- The event of a held transient, with the entries in the window as its last field. -/
def eventWith (e : Ev) (k : Nat) : Ev := { e with fields := e.fields.dropLast ++ [(4, k)] }

/-! ### What a warden hears (Table 11.4) -/

/-- Group inputs of a partition are taken: its warden lives, its first generation is in force, and the partition is not
fenced or withdrawn. -/
def hearsPart (s : State) (p : Nat) : Bool :=
  (war s p).alive && (war s p).valid && !outOfService (partState s p)

/-- Reports of a core are taken: neither it nor its cluster is fenced for a reset. -/
def hearsCore (s : State) (p src : Nat) : Bool :=
  hearsPart s p && !coreFenced s p src

/-- A core withdrawn, so that its reports mark their epochs not clean (R220). -/
def isWithdrawn (s : State) (p src : Nat) : Bool := decide (src / 32 < 640) && coreGone s p src

end Sys2Proof.Machine
end

