-- ==== Sys2Proof/Machine/SyncOps.lean ====
section
/-! DEFINITION. Synchronisation objects as the Primary holds them (chapter 10): releases, the replay rule, job faults. -/

namespace Sys2Proof.Machine
open Sys2Proof

/-! ### Records -/

def objOf (s : State) (o : Nat) : SyncObj := tget {} s.sync.objs o

def modObj (o : Nat) (f : SyncObj → SyncObj) (s : State) : State :=
  { s with sync := { s.sync with objs := tput {} s.sync.objs o (f (objOf s o)) } }

def gatherOf (s : State) (o : Nat) : Gather := tget {} s.sync.gather o

def modGather (o : Nat) (f : Gather → Gather) (s : State) : State :=
  { s with sync := { s.sync with gather := tput {} s.sync.gather o (f (gatherOf s o)) } }

/-- The 64 bytes of a record (Table 10.1). -/
def objBytes (x : SyncObj) : List Byte :=
  leBytes 1 x.type ++ leBytes 1 x.state ++ leBytes 1 x.attempt ++ leBytes 1 x.tenant ++ leBytes 2 x.job ++
  leBytes 1 (flag x.fail) ++ leBytes 1 0 ++ leBytes 4 x.epoch ++ leBytes 4 x.count ++ leBytes 4 x.part ++
  leBytes 4 x.elast ++ leBytes 8 x.rsn ++ leBytes 16 x.gate.toNat ++ leBytes 16 x.pmap.toNat

/-- A barrier in Collecting or Closing. -/
def isLive (x : SyncObj) : Bool := decide (x.type = 1) && (decide (x.state = 2) || decide (x.state = 3))

/-- The barrier whose remaining range holds an epoch at the Primary (R239). -/
def objAt (s : State) (e : Nat) : Option (Nat × SyncObj) :=
  s.sync.objs.find? (fun o => isLive o.2 && decide (o.2.epoch ≤ e) && decide (e ≤ o.2.elast))

/-- Wardens that hold participants, and gating wardens. -/
def pmapParts (x : SyncObj) : List Nat := maskParts x.pmap.toNat
def gateParts (x : SyncObj) : List Nat := maskParts x.gate.toNat

/-! ### When the Primary may begin work (R472) -/

/-- Partitions not Retired. -/
def notRetired (s : State) : List Nat := parts.filter (fun p => defState? s (partSite p) ≠ some 5)

/-- Wardens whose leases a hub counts as held (R22). -/
def leased (s : State) (h : HubId) : List Nat := (hubOf s h).leases.map (·.1)

/-- A quorum: more than half of the wardens of partitions not Retired (R21). -/
def hasQuorum (s : State) (h : HubId) : Bool :=
  decide ((notRetired s).length < 2 * ((leased s h).filter (fun p => p ∈ notRetired s)).length)

/-- May a release, replay order, tally-close, swap, test start or pattern run begin (R329, R472)? None does once a wafer reset is ordered
(R286). -/
def mayBegin (s : State) : Bool :=
  match serving s with
  | some h => hasQuorum s h && !powerWarn s && decide (s.boot.wafReset = 0)
  | none => false

/-- A Secondary that takes mirror writes: the peer of a Primary. -/
def hasSecondary (s : State) : Bool :=
  match serving s with
  | some h => decide ((hubOf s h).role = .primary) && decide ((hubOf s (other h)).role = .secondary)
  | none => false

/-! ### Closing tallies -/

/-- Close a warden's tally of an epoch without release; a tally that is not open is passed over. What waited for a replay of
the epoch to be classified (Table 4.8) goes with it. -/
def closeTally (p e : Nat) (s : State) : State :=
  modW p (fun w => { w with
    psnLate := w.psnLate ++ (w.tallies.filter (fun t => t.epoch = e)).flatMap (fun t => t.psnEv.map (fun x => (e, x)))
    tallies := w.tallies.filter (fun t => t.epoch ≠ e), tfRep := w.tfRep.filter (fun r => r.1 ≠ e)
    firsts := w.firsts.filter (fun f => f.epoch ≠ e)
    triages := w.triages.filter (fun t => !(t.kind = 2 && t.epoch = e))
    triWait := w.triWait.filter (fun t => !(t.kind = 2 && t.epoch = e)) }) s

/-- Wardens that hold a copy of the object or gate it. -/
def objWardens (x : SyncObj) : List Nat := parts.filter (fun p => x.pmap.getLsbD p || x.gate.getLsbD p)

/-! ### Job faults (R261) -/

def jfInput : Nat := 1
def jfPoison : Nat := 2
def jfShort : Nat := 3
def jfLimit : Nat := 4
def jfEpoch : Nat := 5
def jfOver : Nat := 6

/-- Work is kept due, once (R472). -/
def keepDue (d : Due) (s : State) : State :=
  { s with sync := { s.sync with due := if d ∈ s.sync.due then s.sync.due else s.sync.due ++ [d] } }

def dropDue (d : Due) (s : State) : State := { s with sync := { s.sync with due := s.sync.due.filter (· ≠ d) } }

/-- A batch is opened at a warden (R227): entries are written at the switch. A warden has at most one, so a further one waits, as one does
that may not begin yet (R472). -/
def openBatch (p : Nat) (entries : List (Nat × Nat)) (s : State) : State :=
  if mapWaits s p then modW p (fun w => { w with mapDue := w.mapDue ++ [(true, entries)] }) s
  else if mayBegin s then modW p (fun w => { w with batch := some entries }) s
  else keepDue (.batch p) (modW p (fun w => { w with mapDue := [(true, entries)] }) s)

/-- The changes due at a warden go out in their order, up to and with the next batch, which waits where it may not begin (R472). -/
def sendDue (p : Nat) : List (Bool × List (Nat × Nat)) → State → State
  | [], s => modW p (fun w => { w with mapDue := [] }) s
  | (true, es) :: r, s =>
    if mayBegin s then modW p (fun w => { w with batch := some es, mapDue := r }) s
    else keepDue (.batch p) (modW p (fun w => { w with mapDue := (true, es) :: r }) s)
  | (false, es) :: r, s => sendDue p r (forEach es (fun e s => send (.sentry p e.1 e.2) s) s)

/-- A batch that was kept due goes out, unless another is open at its warden: its switch lets it go (R227, R472). -/
def batchDue (p : Nat) (s : State) : State := if batchOpen s p then s else sendDue p (war s p).mapDue s

def modMir (f : Mirror → Mirror) (s : State) : State := { s with mir := f s.mir }

/-- A release that is decided and not yet in the mirror does not happen (R250). Its RSN was assigned last or stays unused (DESIGN
CHOICE, log entry 132). -/
def cancelRelease (o : Nat) (s : State) : State :=
  match (gatherOf s o).releasing with
  | none => s
  | some rsn =>
    let s1 := modGather o (fun g => { g with releasing := none }) (modMir (fun m => { m with out := m.out.filter (· ≠ .release rsn) }) s)
    { s1 with sync := { s1.sync with
        relWait := s1.sync.relWait.filter (fun r => r.rsn ≠ rsn), nextRsn := if s1.sync.nextRsn = rsn + 1 then rsn else s1.sync.nextRsn } }

/-- Objects of a job. -/
def objsOfJob (s : State) (j : Nat) : List (Nat × SyncObj) := s.sync.objs.filter (fun o => o.2.state ≠ 0 ∧ o.2.job = j)

/-- What is kept of FAILs of an object for its epochs, in the mirror too, is gone (R110). -/
def dropFails (o : Nat) (s : State) : State :=
  modMir (fun m => { m with fails := m.fails.filter (fun f => f.1 ≠ o) })
    { s with sync := { s.sync with full := s.sync.full.filter (fun f => f.1 ≠ o) } }

/-- One object becomes Faulted: its arrivals and posts go, its wardens' copies are Faulted; a live barrier's epoch names its own tallies,
which close, and its clear orders. A release not yet in the mirror, a replay and orders on their way go with it: its cores see no release
and no replay. -/
def faultObj (o : Nat) (s0 : State) : State :=
  let s := dropFails o (cancelRelease o s0)
  let x := objOf s o
  let s1 := forEach (objWardens x) (fun p s =>
    (if isLive x then closeTally p x.epoch else id)
      (modLobj p o (fun l => { l with state := 4, arr := 0, sent := 0, replay := none, query := false }) s)) s
  let s2 := modObj o (fun x => { x with state := 4 }) s1
  let s3 := { s2 with
    net := s2.net.filter (fun m => match m with
      | .arrival _ b _ => b ≠ o | .post _ _ b => b ≠ o | .wait _ b _ => b ≠ o | .replay _ b _ _ => b ≠ o | .query _ b _ => b ≠ o
      | .clear _ e _ => !isLive x || decide (e ≠ x.epoch) | _ => true),
    sync := { s2.sync with gather := tdel s2.sync.gather o, waits := s2.sync.waits.filter (fun w => w.2 ≠ o),
                           due := s2.sync.due.filter (· ≠ .barrier o) } }
  forEach parts (fun p s => modW p (fun w => { w with posts := w.posts.filter (fun x => x.2 ≠ o) }) s)
    s3

/-- A job faults: every object of the job, and the event (R261). -/
def jobFault (o e cause : Nat) (s : State) : State :=
  let x := objOf s o
  raise (evJob evJobFault x.job x.tenant [(2, x.job), (1, x.tenant), (2, o), (4, e), (1, cause)])
    (forEach (objsOfJob s x.job) (fun b s => faultObj b.1 s) s)

/-! ### Releases (R249, R264, R34) -/

/-- Send a release record's releases and tally-closes (R249 steps 3 and 4, R264). -/
def sendReleases (r : RelRec) (s : State) : State :=
  let s1 := forEach r.parts (fun p s =>
    send (.release p r.obj r.epoch r.rsn (tget 0 s.sync.lastTo p))
      { s with sync := { s.sync with lastTo := tset s.sync.lastTo p r.rsn } }) s
  forEach r.closes (fun p s => send (.tclose p r.epoch) s) s1

/-- The release record that a barrier's release writes (R249). -/
def relOf (o rsn : Nat) (x : SyncObj) : RelRec :=
  { obj := o, epoch := x.epoch, rsn, first := x.efirst, parts := pmapParts x, closes := (gateParts x).filter (fun p => !x.pmap.getLsbD p)
    job := x.job, tenant := x.tenant }

/-- A FAIL that the mirror holds for an epoch is over with its release or replay (R110). -/
def dropFail (o e : Nat) (m : Mirror) : Mirror := { m with fails := m.fails.filter (· ≠ (o, e)) }

/-- A release stands once its record is written to the mirror, or at once where there is none: the barrier moves on (Table 10.3). A FAIL
kept for the next epoch (R110) is set with it. -/
def commitRelease (r : RelRec) (s : State) : State :=
  let o := r.obj
  let kept := decide ((o, r.epoch + 1) ∈ s.sync.full)
  modObj o (fun x => { x with
      epoch := (x.epoch + 1) % 4294967296, count := 0, attempt := 0, rsn := r.rsn, fail := kept, state := if x.epoch = x.elast then 1 else 2 })
    { s with sync := { s.sync with
        full := s.sync.full.filter (fun f => f ≠ (o, r.epoch + 1)), rels := tset s.sync.rels o r
        gather := if kept then tset s.sync.gather o { tallyFull := true, kinds := fkTallyFull } else tdel s.sync.gather o }
             mir := dropFail o r.epoch s.mir }

/-- The next RSN is taken; one that is a multiple of 65,536 is written to the persistent counters (R249, R267). -/
def takeRsn (s : State) : State :=
  let rsn := s.sync.nextRsn
  (if rsn % 65536 = 0 then nvWrite nvCounters else id)
    { s with sync := { s.sync with nextRsn := rsn + 1, rsnNv := if rsn % 65536 = 0 then rsn else s.sync.rsnNv } }

/-- Release a barrier: its RSN, the record to the mirror, and the record's messages once the Secondary acknowledges; a Sole hub sends
them at once (R249, R267). Until the record is in the mirror the barrier stays Closing, and a failure report prevents the release
(R250). -/
def releaseObj (o : Nat) (s : State) : State :=
  let r := relOf o s.sync.nextRsn (objOf s o)
  let s1 := takeRsn s
  if hasSecondary s then
    modMir (fun m => { m with out := m.out ++ [.release r.rsn] })
      (modGather o (fun g => { g with releasing := some r.rsn }) { s1 with sync := { s1.sync with relWait := s1.sync.relWait ++ [r] } })
  else sendReleases r (commitRelease r s1)

/-! ### The replay rule (R255, R256, R260) -/

/-- Does a step need the slot of a withdrawn core: the core waits at the step's barrier, its last arrival having been there (R256 step
4; DEDUCED, log entry 133)? -/
def needsSlot (s : State) (o site : Nat) : Bool :=
  isCoreSite site && ((coreOf s (sitePart site) (siteSrc site)).job.any (fun j => j.1 = o)) &&
  (slotOfPos s (sitePart site) (siteCluster site) (siteSlot site)).isSome

/-- Cores withdrawn whose slots a replay of the object's step swaps, by site ascending (EV_STEP_REPLAY, R256 step 4). -/
def vacatedOf (s : State) (o : Nat) : List Nat :=
  sortNat ((s.defects.tab.map (fun e => siteKey (defSite e.2))).filter (needsSlot s o))

/-- The replay orders of an object go out (R256 step 2), with EV_STEP_REPLAY. -/
def sendReplays (o : Nat) (s : State) : State :=
  let x := objOf s o
  let g := gatherOf s o
  let v := vacatedOf s o
  let s1 := raise (evJob evStepReplay x.job x.tenant
    ([(2, o), (4, x.epoch), (4, x.attempt), (1, g.kinds.toNat), (4, v.length)] ++
      (List.range 8).map (fun i => (4, (v[i]?).getD 0)))) s
  let s2 := { s1 with gov := { s1.gov with cnt := { s1.gov.cnt with replays := s1.gov.cnt.replays + 1 } } }
  modGather o (fun g => { g with kinds := 0, replaying := false })
    (forEach (objWardens x) (fun p s => send (.replay p o x.epoch x.attempt) s) s2)

/-- Row 6 of Table 10.5: ATTEMPT + 1 in the mirror first; orders once it is acknowledged (R256). -/
def orderReplay (o : Nat) (s : State) : State :=
  let x := objOf s o
  let g := gatherOf s o
  let s1 := modObj o (fun x => { x with attempt := x.attempt + 1, count := 0, fail := false, state := 2 }) s
  let s2 := modGather o (fun _ => { kinds := g.kinds, charged := g.charged, replaying := true,
                                    poisonReplayed := g.poisonReplayed || g.poisoned }) s1
  if hasSecondary s then
    { s2 with mir := { s2.mir with out := s2.mir.out ++ [.attempt o x.epoch (x.attempt + 1)] } }
  else sendReplays o (modMir (dropFail o x.epoch) s2)

/-- The replay limit ends the job: cores charged in any execution and still in service are quarantined (R260). -/
def limitCharged (o : Nat) (s : State) : State :=
  forEach (gatherOf s o).charged (fun site s => if hasEntry s site then s else withdrawSite site 2 7 s) s

/-- A vacated slot in a short cluster among those the step needs (R221). -/
def shortAmong (s : State) (o : Nat) : Bool := (vacatedOf s o).any (fun c => isShort s (sitePart c) (siteCluster c))

/-- The first row of Table 10.5 that matches (R255). -/
def replayRule (o : Nat) (s : State) : State :=
  let x := objOf s o
  let g := gatherOf s o
  if g.input then jobFault o x.epoch jfInput s
  else if g.poisonReplayed && g.poisoned then jobFault o x.epoch jfPoison s
  else if g.short || (g.kinds.getLsbD 6 && shortAmong s o) then jobFault o x.epoch jfShort s
  else if 3 ≤ x.attempt then jobFault o x.epoch jfLimit (limitCharged o s)
  else if !g.other && !g.tallyFull && decide (g.cleared ≠ []) then
    let s1 := modGather o (fun g => { g with cleared := [], kinds := 0 }) (modObj o (fun x => { x with fail := false }) s)
    let s2 := raise (ev evStepCleared [(2, o), (4, x.epoch), (4, g.cleared.length)]) s1
    forEach ((g.cleared.map (·.1)).eraseDups) (fun p s =>
      send (.clear p x.epoch ((g.cleared.filter (fun c => c.1 = p)).map (·.2))) s) s2
  else orderReplay o s

/-- Act on a barrier that is Closing, and whose release is not on its way to the mirror (Table 10.3): release it when every gating warden is clean,
or apply the replay rule once no triage of the epoch is open. What may not begin is kept due (R472). -/
def settle (o : Nat) (s : State) : State :=
  let x := objOf s o
  let g := gatherOf s o
  if x.type ≠ 1 ∨ x.state ≠ 3 ∨ g.releasing.isSome then s
  else
    let ready := if x.fail then decide (g.opened = []) else (gateParts x).all (fun p => p ∈ g.clean)
    if !ready then s
    else if !mayBegin s then keepDue (.barrier o) s
    else if x.fail then replayRule o (dropDue (.barrier o) s)
    else releaseObj o (dropDue (.barrier o) s)

/-! ### Arming and freeing -/

/-- The Primary sends an arming to a warden (R238, R242): its epochs name another interval from now on (R239). -/
def armLocal (p o : Nat) (l : LocalObj) (s : State) : State :=
  modW p (fun w => { w with objs := tset w.objs o l, psnLate := w.psnLate.filter (fun x => x.1 < l.epoch || l.elast < x.1) }) s

/-- Posts on their way to the mirror for an object that is gone are acknowledged, and count for nothing (R251). -/
def dropSems (o : Nat) (s : State) : State :=
  let mine := fun (i : MItem) => match i with | .sem b _ _ _ => decide (b = o) | _ => false
  let s1 := forEach ((s.mir.acks ++ s.mir.out).filter mine) (fun i s => match i with | .sem _ _ p n => send (.postAck p n) s | _ => s) s
  modMir (fun m => { m with out := m.out.filter (fun i => !mine i), acks := m.acks.filter (fun i => !mine i), sems := tdel m.sems o }) s1

/-- Does an object's epoch name its own tallies: a live barrier's, and a Faulted one's where no live barrier has taken the epoch (R239)? -/
def ownsEpoch (s : State) (x : SyncObj) : Bool :=
  isLive x || (decide (x.type = 1) && decide (x.state = 4) && (objAt s x.epoch).isNone)

/-- An object returns to Free; its wardens' tallies for its epoch close without release (R241). -/
def freeObj (o : Nat) (s0 : State) : State :=
  let s := dropFails o (dropSems o (cancelRelease o s0))
  let x := objOf s o
  let s1 := forEach parts (fun p s => modW p (fun w => { w with objs := tdel w.objs o }) s)
    (if ownsEpoch s x then forEach (objWardens x) (fun p s => closeTally p x.epoch s) s else s)
  { s1 with sync := { s1.sync with
      objs := tdel s1.sync.objs o, gather := tdel s1.sync.gather o,
      waits := s1.sync.waits.filter (fun w => w.2 ≠ o), due := s1.sync.due.filter (· ≠ .barrier o) } }

/-- Posts of a semaphore that the mirror holds and that have not acted yet (R263). -/
def mirroredPosts (s : State) (o : Nat) : Nat := (s.mir.acks.filter (fun i => match i with | .sem b _ _ _ => decide (b = o) | _ => false)).length

/-- The mirror's COUNT of a semaphore or flag follows the commands, which are mirrored as packets, and the posts mirrored (R263). -/
def mirCount (o : Nat) (s : State) : State :=
  if hasSecondary s then modMir (fun m => { m with sems := tset m.sems o ((objOf s o).count + mirroredPosts s o) }) s else s

/-- COUNT of a semaphore or flag is written: one more write (Table 10.1, EPOCH). -/
def writeCount (o n : Nat) (s : State) : State :=
  mirCount o (modObj o (fun x => { x with count := n, epoch := (x.epoch + 1) % 4294967296 }) s)

/-- A post is refused at saturation: kept for the millisecond in which the event counts it (R251). -/
def refusePost (o : Nat) (s : State) : State :=
  { s with sync := { s.sync with refused := tmod [] s.sync.refused o (fun l => l.filter (fun t => decide (now s < t + 1000000)) ++ [now s]) } }

/-- EV_SYNC_SEM_SATURATED with the posts refused in the last 1 ms, at most once per object per millisecond (R251). -/
def semSaturated (o : Nat) (s : State) : State :=
  let t := now s
  let again := match tfind s.sync.satMs o with | some m => decide (m + 1000000 ≤ t) | none => true
  if again then
    raise (ev evSyncSemSaturated [(2, o), (4, ((tget [] s.sync.refused o).filter (fun x => t < x + 1000000)).length)])
      { s with sync := { s.sync with satMs := tset s.sync.satMs o t } }
  else s

/-- Jobs that have a live object, with those objects (R242). -/
def liveJobs (s : State) (f : SyncObj → Bool) : List Nat :=
  ((s.sync.objs.filter (fun o => isLive o.2 && f o.2)).map (fun o => o.2.job)).eraseDups

end Sys2Proof.Machine
end

