-- ==== Sys2Proof/Machine/TouchOps.lean ====
section
/-! DEFINITION. Touchstone (chapter 6): cells, captures, descriptors, the tolerance bound and the judge. -/

namespace Sys2Proof.Machine
open Sys2Proof

/-! ### Cells and captures -/

/-- The key of a cell: hub A 0 to 15, hub B 16 to 31. -/
def cellKey (h : HubId) (c : Nat) : Nat := 16 * hubNum h + c

def cellHub (k : Nat) : HubId := if k < 16 then .a else .b

def cellOf (s : State) (k : Nat) : Cell := tget {} s.tst.cells k

def modTst (f : Tstone → Tstone) (s : State) : State := { s with tst := f s.tst }

def modCell (k : Nat) (f : Cell → Cell) (s : State) : State := modTst (fun t => { t with cells := tmod {} t.cells k f }) s

def capOf (s : State) (cid : Nat) : Option Capture := tfind s.tst.caps cid

def modCap (cid : Nat) (f : Capture → Capture) (s : State) : State :=
  modTst (fun t => { t with caps := t.caps.map (fun e => if e.1 = cid then (e.1, f e.2) else e) }) s

/-- Work class of a capture kind (R154): 0 arbitration, 1 audit, 2 kernel. -/
def classOf (kind : Nat) : Nat := if kind ≤ 2 then 0 else if kind ≤ 4 then 1 else 2

def cntOf (s : State) (h : HubId) : TCounts := match h with | .a => s.tst.cntA | .b => s.tst.cntB

def modCnt (h : HubId) (f : TCounts → TCounts) (s : State) : State :=
  modTst (fun t => match h with | .a => { t with cntA := f t.cntA } | .b => { t with cntB := f t.cntB }) s

/-! ### The header (Table 6.5) -/

/-- Job field of a capture, as bytes 20 to 23 of a record. -/
def capJob (c : Capture) : List Byte := leBytes 2 c.job ++ leBytes 1 c.tenant ++ leBytes 1 (flag c.jobv)

/-- Header bytes 0 to 59. -/
def capHead (cid : Nat) (c : Capture) : List Byte :=
  leBytes 4 cid ++ leBytes 1 c.kind ++ leBytes 1 c.flags ++ leBytes 1 c.ndi ++ leBytes 1 0 ++ leBytes 4 c.site ++
  capJob c ++ leBytes 4 c.epoch ++ leBytes 4 c.id ++ leBytes 2 c.rows ++ leBytes 2 c.cols ++ leBytes 4 c.k ++
  leBytes 1 c.fmta ++ leBytes 1 c.fmtb ++ leBytes 1 c.out ++ leBytes 1 0 ++ leBytes 4 c.lena ++ leBytes 4 c.lenb ++
  leBytes 4 c.leno ++ leBytes 8 c.time ++ leBytes 4 c.site2

/-- The CRC of a capture's header bytes and a copy of its body (Table 6.5). -/
def capCrc (cid : Nat) (c : Capture) (body : List Byte) : BitVec 32 := crc32c (capHead cid c ++ body)

/-- The capture as it stands in a cell's buffer: header with its CRC, and body. -/
def capBytes (cid : Nat) (c : Capture) : List Byte := capHead cid c ++ leBytes 4 c.crc.toNat ++ c.body

/-- Pages of an allocation: header, body and the 8 KiB context area (R152). -/
def capPages (len : Nat) : Nat := (64 + len + 8192 + 4095) / 4096

/-! ### Numerics descriptors (R145, R146) -/

/-- The key of a job's descriptor. -/
def descKey (job ndi : Nat) : Nat := 256 * job + ndi

def descOf (s : State) (job ndi : Nat) : Option Desc := tfind s.tst.descs (descKey job ndi)

/-- A descriptor of 64 bytes, where every field is in range (R145, R146). -/
def parseDesc (b : List Byte) : Option Desc :=
  let f := fun o n => fieldAt b o n
  let fl := f 5 1
  let ok :=
    decide (f 0 1 ≤ 5) && decide (f 1 1 ≤ 7) && decide (f 3 1 ≤ 8) && decide (f 4 1 ≤ 2) && decide (fl < 32) &&
    decide (f 8 1 ≤ 1) && decide (f 9 1 ≤ 15) && decide (f 12 1 ≤ 47) && decide (f 13 1 ≤ 3) &&
    decide (f 14 1 ∈ [0, 8, 16, 32]) && zeroAt b 15 1 && zeroAt b 20 40 &&
    (if f 0 1 = 0 then decide (f 2 1 ≤ 7) else zeroAt b 2 1) &&
    (if 1 ≤ f 0 1 ∧ f 0 1 ≤ 4 then true else zeroAt b 10 2) &&
    (if f 0 1 = 3 ∨ f 0 1 = 4 then true else zeroAt b 16 4) &&
    (if f 4 1 = 0 then zeroAt b 12 1 else true) &&
    decide ((f 4 1 ≠ 0) = (f 1 1 ≤ 1)) && decide ((f 4 1 ≠ 0) = (5 ≤ f 3 1)) &&
    decide (f 60 4 = (crc32c (slice b 0 60)).toNat)
  if ok then
    some { kind := f 0 1, fmta := f 1 1, fmtb := f 2 1, out := f 3 1, acc := f 4 1, prd := fl.testBit 0,
           ftzi := fl.testBit 1, ftz := fl.testBit 2, bias := fl.testBit 3, sat := fl.testBit 4, l := f 6 2,
           tree := f 8 1, xr := f 9 1, ef := f 10 2, rqs := f 12 1, rqr := f 13 1, rqw := f 14 1,
           eps := BitVec.ofNat 32 (f 16 4) }
  else none

/-! ### The tolerance bound (R149) -/

/-- binary64 rounded towards +∞. -/
def up64 (q : Rat) : Rat := ratRoundP .up 53 (-1022) q

/-- u_o of an output format (Table 6.4). -/
def uOut (out : Nat) : Rat :=
  match out with | 0 => pow2 (-24) | 1 => pow2 (-11) | 2 => pow2 (-8) | 3 => pow2 (-4) | 4 => pow2 (-3) | _ => 0

/-- ceil(log2 n), 0 for n ≤ 1. -/
def clog2 (n : Nat) : Nat := if n ≤ 1 then 0 else Nat.log2 (n - 1) + 1

/-- m of R149 for n terms. -/
def boundM (d : Desc) (n : Nat) : Nat :=
  let l := if d.l = 0 ∨ n < d.l then n else d.l
  let c := (n + l - 1) / l
  let depth := if d.tree = 0 then clog2 c else c - 1
  (l - 1) + depth + flag d.prd + flag d.bias + d.xr

/-- g of R149, or none where it is UNDEFINED. -/
def boundG (d : Desc) (n : Nat) : Option Rat :=
  let m := boundM d n
  let mu := up64 ((m : Rat) * pow2 (-24))
  if 1 / 16 ≤ mu then none else some (up64 (mu / up64 (1 - mu)))

/-- The tolerance bound, none where it is UNDEFINED. -/
def toleranceBound (d : Desc) (n : Nat) (r mag beta : Rat) : Option Rat :=
  if d.acc ≠ 0 then some 0
  else
    match boundG d n with
    | none => none
    | some g =>
      let uo := uOut d.out
      let eta := up64 (((boundM d n + 1 : Nat) : Rat) * pow2 (if d.ftz then -126 else -149))
      let e := up64 (up64 ((d.ef : Rat) / 16) * uo)
      some (match d.kind with
        | 0 => up64 (up64 (up64 (up64 (g * up64 (1 + uo)) + uo) * mag) + eta)
        | 5 => up64 (up64 (up64 (up64 (g * up64 (1 + uo)) + uo) * mag) + eta)
        | 1 => up64 (up64 (up64 (e + epsRef) * ratAbs r) + eta)
        | 2 => up64 (up64 (up64 (up64 (up64 (e + g) + up64 (2 * pow2 (-24))) + epsRef) * ratAbs r) + eta)
        | _ => up64 (up64 (up64 (up64 (up64 (e + up64 (2 * g)) + epsRef) * ratAbs (up64 (r - beta))) + up64 (uo * ratAbs r)) + eta))

/-- Deviation class with the tolerance bound as b (Table 4.4, R158). -/
def devClass (e b : Rat) : Nat :=
  if e = 0 then 1
  else if e ≤ b * pow2 (-6) then 2
  else
    match (List.range 12).find? (fun (i : Nat) => decide (e ≤ b * pow2 ((i : Int) - 5))) with
    | some i => i + 3
    | none => 15

/-! ### Inputs (R142) -/

/-- Bytes of an element of an operand format of Table 4.2. -/
def fmtSize (fmt : Nat) : Nat := match fmt with | 0 => 1 | 1 => 2 | 2 => 4 | 3 => 2 | 4 => 2 | _ => 1

/-- Bytes of a section of `n` elements; block-scaled operands carry one scale for each 32, after all the elements of the section
(as R203 lays a pattern out; log entry 18). -/
def sectLen (fmt n : Nat) : Nat := if fmt = 7 then n + (n + 31) / 32 else fmtSize fmt * n

/-- Elements of a section of a length; none where no number of them has that length. -/
def elemsIn (fmt len : Nat) : Option Nat :=
  if fmt = 7 then (if len % 33 = 1 then none else some (32 * (len / 33) + (len % 33 - 1)))
  else if len % fmtSize fmt = 0 then some (len / fmtSize fmt) else none

/-- The smallest normal magnitude of an operand format, for FTZI; 0 where it has no subnormals. -/
def minNormal (fmt : Nat) : Rat :=
  match fmt with
  | 2 => pow2 (-126) | 3 => pow2 (-14) | 4 => pow2 (-126) | 5 => pow2 (-6) | 6 => pow2 (-14) | _ => 0

/-- FTZI: a subnormal input becomes a zero of its sign. -/
def flushIn (ftzi : Bool) (fmt : Nat) (x : Fl) : Fl :=
  match x with
  | .fin neg q => if ftzi && decide (q < minNormal fmt) then .fin neg 0 else x
  | y => y

/-- Element `i` of a section of `n` elements as Gemer used it: a subnormal one flushed under FTZI, that of a block-scaled operand
before its scale (R142, R148). -/
def operand (ftzi : Bool) (ndi fmt : Nat) (sec : List Byte) (n i : Nat) : Fl :=
  let b := fieldAt sec (fmtSize fmt * i) (fmtSize fmt)
  match fmt with
  | 0 => decodeInt 8 b
  | 1 => decodeInt 16 b
  | 2 => flushIn ftzi 2 (decodeIeee 8 23 b)
  | 3 => flushIn ftzi 3 (decodeIeee 5 10 b)
  | 4 => flushIn ftzi 4 (decodeIeee 8 7 b)
  | 5 => flushIn ftzi 5 (decodeE4m3 b)
  | 6 => flushIn ftzi 6 (decodeIeee 5 2 b)
  | _ =>
    let sc := fieldAt sec (n + i / 32) 1
    if sc = 255 then .nan
    else
      match (if Config.mxIsE5m2 ndi then flushIn ftzi 6 (decodeIeee 5 2 b) else flushIn ftzi 5 (decodeE4m3 b)) with
      | .fin neg q => .fin neg (q * pow2 ((sc : Int) - 127))
      | x => x

/-- Product of two inputs by class. -/
def flMul (x y : Fl) : Fl :=
  match x, y with
  | .nan, _ => .nan
  | _, .nan => .nan
  | .fin a p, .fin b q => .fin (a != b) (p * q)
  | .inf a, .inf b => .inf (a != b)
  | .inf a, .fin b q => if q = 0 then .nan else .inf (a != b)
  | .fin a p, .inf b => if p = 0 then .nan else .inf (a != b)

/-- Exact sum with sticky classes (R140, R143). -/
def flSum (l : List Fl) : Fl :=
  if l.any (· == .nan) then .nan
  else if l.any (· == .inf false) && l.any (· == .inf true) then .nan
  else if l.any (· == .inf false) then .inf false
  else if l.any (· == .inf true) then .inf true
  else
    let t := l.foldl (fun a x => a + x.val) 0
    .fin (decide (t < 0)) (ratAbs t)

/-- Sum of the magnitudes of the finite terms. -/
def flMag (l : List Fl) : Rat := l.foldl (fun a x => a + ratAbs x.val) 0

/-! ### Sections of a capture's body (R151) -/

def accSize (acc : Nat) : Nat := if acc = 2 then 8 else 4

/-- Is the capture an engine row? -/
def isRow (c : Capture) (d : Desc) : Bool := decide (d.kind ≠ 0) || decide (c.kind = 4) || decide (c.kind = 2)

/-- Output elements: M × N for a tile, K for an engine row (R180). -/
def outCount (c : Capture) (d : Desc) : Nat := if isRow c d then c.k else c.rows * c.cols

def secA (c : Capture) : List Byte :=
  let raw := slice c.body 0 c.lena
  if c.flags.testBit 1 && !c.flags.testBit 0 then Config.sparseDense raw (c.rows * c.k) else raw

def secB (c : Capture) : List Byte := slice c.body c.lena c.lenb

def biasLen (c : Capture) (d : Desc) : Nat := if c.flags.testBit 4 then outCount c d * accSize d.acc else 0

def secBias (c : Capture) (d : Desc) : List Byte := slice c.body (c.lena + c.lenb) (biasLen c d)

/-- Output section 0 or 1. -/
def secOut (c : Capture) (d : Desc) (i : Nat) : List Byte :=
  slice c.body (c.lena + c.lenb + biasLen c d + i * c.leno) c.leno

/-- Inputs of a RED row: rows of K elements in the first section. -/
def rowInputs (c : Capture) : Nat := match elemsIn c.fmta c.lena with | some e => e / max 1 c.k | none => 0

/-- Terms of element j: the products of its row and column (the second operand stands column by column; log entry 18),
or its inputs for RED, and the bias. -/
def termsOf (c : Capture) (d : Desc) (j : Nat) : List Fl :=
  let a := secA c
  let b := secB c
  let bias : List Fl :=
    if d.bias && c.flags.testBit 4 then
      let v := fieldAt (secBias c d) (accSize d.acc * j) (accSize d.acc)
      [if d.acc = 0 then decodeIeee 8 23 v else if d.acc = 1 then decodeInt 32 v else decodeInt 48 v]
    else []
  if isRow c d then
    let n := rowInputs c
    (List.range n).map (fun i => operand d.ftzi c.ndi c.fmta a (n * c.k) (i * c.k + j)) ++ bias
  else
    let r := j / max 1 c.cols
    let q := j % max 1 c.cols
    (List.range c.k).map (fun t =>
      flMul (operand d.ftzi c.ndi c.fmta a (c.rows * c.k) (r * c.k + t))
        (operand d.ftzi c.ndi c.fmtb b (c.cols * c.k) (q * c.k + t))) ++ bias

/-- Number of terms n of R149. -/
def termCount (c : Capture) (d : Desc) : Nat := if d.kind = 5 then rowInputs c else c.k

/-- The inputs of an EXP or NRM row in extended form; every operand format converts exactly (R164). -/
def rowExt (c : Capture) (d : Desc) : List (BitVec 80) :=
  (List.range c.k).map (fun i => extOf .nearest (operand d.ftzi c.ndi c.fmta (secA c) c.k i))

/-- The reference of an element of kinds 1 to 4: the function unit's, and NaN wherever an input that it depends on is NaN (R143): its
own input in exponent mode, any input of the row in the other kinds. -/
def specialRef (d : Desc) (row : List (BitVec 80)) (j : Nat) : Fl :=
  let bad := fun (v : BitVec 80) => decide (extVal v = .nan)
  if (if d.kind = 1 then (row[j]?).any bad else row.any bad) then .nan else extVal (Config.fnRef d.kind d.eps row j)

/-- Requantisation of an exact sum (R148): a fraction where one input is floating point. -/
def requant (d : Desc) (v : Rat) : Int :=
  let q : Rat := v / pow2 d.rqs
  let r := match d.rqr with
    | 0 => ratRound .nearest q
    | 1 => if q < 0 then -(((-q) + 1 / 2).floor) else (q + 1 / 2).floor
    | 2 => ratRound .zero q
    | _ => q.floor
  if d.rqw = 0 then r
  else
    let hi : Int := 2 ^ (d.rqw - 1) - 1
    if hi < r then hi else if r < -hi - 1 then -hi - 1 else r

/-- Output element j of a section, as its bits. -/
def outBits (c : Capture) (sec : List Byte) (j : Nat) : Nat := fieldAt sec (tySize c.out * j) (tySize c.out)

/-- Judge one element: its class, or none where the bound is UNDEFINED (R143, R148, R149). Classes above 8 are out of
bound. Integer work is judged on every stored bit; against a non-finite reference, which a floating-point second input can make, every
integer is of another class (R143). -/
def judgeElem (c : Capture) (d : Desc) (sec : List Byte) (j : Nat) : Option Nat :=
  let y := outBits c sec j
  if d.acc ≠ 0 then
    match flSum (termsOf c d j) with
    | .fin neg q => some (if (decodeInt (8 * tySize c.out) y).val = ((requant d (Fl.fin neg q).val : Int) : Rat) then 1 else 15)
    | _ => some 15
  else
    let terms := termsOf c d j
    let row := rowExt c d
    let special := 1 ≤ d.kind && decide (d.kind ≤ 4)
    let ref : Fl := if special then specialRef d row j else flSum terms
    let ref' : Fl := match ref with
      | .fin neg q => if tyMax c.out < q then (if d.sat then .fin neg (tyMax c.out) else .inf neg) else ref
      | x => x
    match ref', decodeTy c.out y with
    | .nan, .nan => some 0
    | .inf a, .inf b => some (if a = b then 0 else 15)
    | .fin a p, .fin b q =>
      let r := (Fl.fin a p).val
      let beta := if special then Config.nrmBeta row j else 0
      match toleranceBound d (termCount c d) r (flMag terms) beta with
      | none => none
      | some bd => some (devClass (ratAbs ((Fl.fin b q).val - r)) bd)
    | _, _ => some 15

/-- The judged set of R158. -/
def judgedSet (cid : Nat) (c : Capture) (d : Desc) : List Nat :=
  let all := List.range (outCount c d)
  if c.kind = 0 then
    let diff := all.filter (fun j => outBits c (secOut c d 0) j ≠ outBits c (secOut c d 1) j)
    let rest := all.filter (fun j => j ∉ diff)
    if rest.length ≤ 64 then all
    else
      diff ++ ((List.range 64).foldl (fun (acc : List Nat × List Nat) i =>
        match acc.2[Config.judgePick cid i acc.2.length % max 1 acc.2.length]? with
        | some j => (acc.1 ++ [j], acc.2.filter (· ≠ j))
        | none => acc) ([], rest)).1
  else all

/-- The verdict on one output section. -/
def judgeOut (c : Capture) (d : Desc) (js : List Nat) (sec : List Byte) : Judged :=
  let rs := js.map (fun j => (j, judgeElem c d sec j))
  if rs.any (fun r => r.2 = none) then { code := 2, cause := 3 }
  else
    let cl := rs.map (fun r => (r.1, r.2.getD 0))
    let bad := (cl.filter (fun r => 9 ≤ r.2)).length
    let w := cl.foldl (fun (b : Nat × Nat) r => if b.2 < r.2 then r else b) (0, 0)
    { code := if bad = 0 then 0 else 1, bad, worst := w.1, cls := w.2 }

/-- The verdict of an arbitration or audit sample (R156, R158). -/
def judgeCapture (desc : Option Desc) (cid : Nat) (c : Capture) : List Judged :=
  let two := c.flags.testBit 3
  let no := fun k => (if two then [({ code := 2, cause := k } : Judged), { code := 2, cause := k }] else [{ code := 2, cause := k }])
  match desc with
  | none => no 1
  | some d =>
    if 7 < c.fmta ∨ (d.kind = 0 ∧ 7 < c.fmtb) then no 2
    else
      let js := judgedSet cid c d
      let a := judgeOut c d js (secOut c d 0)
      if two then
        let b := judgeOut c d js (secOut c d 1)
        if a.code = 2 ∨ b.code = 2 then no 3 else [a, b]
      else [a]

end Sys2Proof.Machine
end

