-- ==== Sys2Proof/Machine/Kernel.lean ====
section
/-! DEFINITION. The check-kernel instructions of a Touchstone cell (chapter 7, Table 7.3). Each acts on the kernel sample
that its cell is running; where the cell runs none, or a field is one that R173 keeps out of every loaded image, nothing
changes (log entries 3 and 14). -/

namespace Sys2Proof.Machine
open Sys2Proof

/-- What an instruction reads beside the kernel state: the capture's bytes, the descriptor its NDI names, and how many
open values have been read. -/
structure KCtx where
  buf  : List Byte
  desc : Option Desc
  free : Nat

/-- What an instruction does: a new kernel state, the steps it costs and whether it read an open value; a trap; or
nothing, for a field no loaded image can hold. -/
inductive KRes where
  | ok (k : KState) (cost : Nat) (open_ : Bool)
  | trap (cause : Nat)
  | bad

/-! ### Registers (Table 7.1) -/

/-- X0 reads 0. -/
def xRead (k : KState) (i : BitVec 4) : BitVec 64 := if i = 0 then 0 else tget 0 k.x i.toNat

/-- Writes to X0 are ignored. -/
def xWrite (i : BitVec 4) (v : BitVec 64) (k : KState) : KState := if i = 0 then k else { k with x := tput 0 k.x i.toNat v }

def mRead (k : KState) (i : BitVec 4) : MReg := tget {} k.m i.toNat
def mWrite (i : BitVec 4) (v : MReg) (k : KState) : KState := { k with m := tput {} k.m i.toNat v }
def vRead (k : KState) (i : BitVec 4) : BitVec 80 := tget 0 k.v i.toNat
def vWrite (i : BitVec 4) (v : BitVec 80) (k : KState) : KState := { k with v := tput 0 k.v i.toNat v }

/-- The next instruction. -/
def kAdv (k : KState) : KState := { k with pc := k.pc + 1 }

/-- A branch to IMM[9:0]. -/
def kGo (imm : BitVec 32) (k : KState) : KState := { k with pc := imm.setWidth 10 }

/-- One step, and the next instruction. -/
def kOne (k : KState) : KRes := .ok (kAdv k) 1 false

/-! ### Reads of the capture (R165) -/

/-- May `n` elements of `size` bytes be read from an address? -/
def kReadable (c : KCtx) (addr size n : Nat) : Bool := decide (addr % size = 0) && decide (addr + size * n ≤ c.buf.length)

/-- The address X[A] + IMM. -/
def kAddr (k : KState) (a : BitVec 4) (imm : BitVec 32) : Nat := (xRead k a + imm.signExtend 64).toNat

/-! ### Exact values (R140) -/

/-- An integer of units 2^-300 as 640 bits, where it fits; else an open value (log entry 14). -/
def wideOf (c : KCtx) (v : Int) : BitVec 640 × Bool :=
  if -(2 : Int) ^ 639 ≤ v ∧ v < (2 : Int) ^ 639 then (BitVec.ofInt 640 v, false) else (Config.freeWide c.free, true)

/-- Put an exact result in M[D]. -/
def mPut (c : KCtx) (d : BitVec 4) (v : Int) (flags : MReg) (cost : Nat) (k : KState) : KRes :=
  let r := wideOf c v
  .ok (kAdv (mWrite d { flags with val := r.1 } k)) cost r.2

/-- A value as units of 2^-300. -/
def wideUnits (q : Rat) : Int := (q * pow2 300).floor

/-- An element into a lane: finite ones are added, the others set a sticky flag (R168). -/
def laneAdd (l : MReg) (x : Fl) : MReg :=
  match x with
  | .fin _ _ => { l with val := l.val + BitVec.ofInt 640 (wideUnits x.val) }
  | .inf false => { l with pinf := true }
  | .inf true => { l with ninf := true }
  | .nan => { l with nan := true }

/-- W of R167. -/
def laneCount (ty : Nat) : Nat := if ty = 3 ∨ ty = 4 ∨ ty = 5 then 256 else 64

/-- The physical lane of element i. -/
def laneOf (ty i : Nat) : Nat := if laneCount ty = 256 then i % 256 / 4 else i % 64

/-- Steps of a lane instruction over n elements. -/
def laneSteps (ty n : Nat) : Nat := max 1 ((n + laneCount ty - 1) / laneCount ty)

/-- Element i of a type at an address. -/
def elemAt (c : KCtx) (ty addr i : Nat) : Fl := decodeTy ty (fieldAt c.buf (addr + tySize ty * i) (tySize ty))

/-- Add n terms into the lanes. -/
def lanesAdd (ty n : Nat) (term : Nat → Fl) (k : KState) : KState :=
  { k with lanes := (List.range n).foldl (fun t i => tmod {} t (laneOf ty i) (fun l => laneAdd l (term i))) k.lanes }

def flAbs (x : Fl) : Fl := match x with | .fin _ q => .fin false q | .inf _ => .inf false | .nan => .nan

/-- LSUM, LASUM and LSQSUM: a function of each element is added. -/
def laneSum (f : Fl → Fl) (a b ty : BitVec 4) (c : KCtx) (k : KState) : KRes :=
  let n := (xRead k b).toNat
  let addr := (xRead k a).toNat
  if 8 < ty.toNat then .bad
  else if n = 0 then kOne k
  else if !kReadable c addr (tySize ty.toNat) n then .trap 2
  else .ok (kAdv (lanesAdd ty.toNat n (fun i => f (elemAt c ty.toNat addr i)) k)) (laneSteps ty.toNat n) false

/-! ### Findings (R169) -/

def addFinding (f : Finding) (k : KState) : KState :=
  if k.finds.length < 64 then { k with finds := k.finds ++ [f] } else { k with lost := min 65535 (k.lost + 1) }

/-! ### Instruction words (R166, Table 7.2) -/

/-- Fields an opcode of Table 7.3 uses: D, A, B, C, TY, RND and IMM as bits 0 to 6; none for no opcode. -/
def opUses (op : Nat) : Option Nat :=
  match op with
  | 0x00 => some 0 | 0x01 => some 0 | 0x02 => some 64 | 0x03 => some 66 | 0x04 => some 70 | 0x05 => some 65
  | 0x10 => some 65 | 0x11 => some 7 | 0x12 => some 67 | 0x13 => some 7 | 0x14 => some 83
  | 0x20 => some 0 | 0x21 => some 22 | 0x22 => some 22 | 0x23 => some 22 | 0x24 => some 30 | 0x25 => some 1 | 0x26 => some 95
  | 0x30 => some 65 | 0x31 => some 7 | 0x32 => some 7 | 0x33 => some 3 | 0x34 => some 35
  | 0x40 => some 65 | 0x41 => some 83 | 0x42 => some 39 | 0x43 => some 39 | 0x44 => some 39 | 0x45 => some 3 | 0x46 => some 67
  | 0x47 => some 3
  | 0x50 => some 78 | 0x51 => some 72
  | _ => none

/-- M fields of an opcode: D, A and B as bits 0 to 2. -/
def opMFields (op : Nat) : Nat :=
  match op with | 0x25 => 1 | 0x30 => 1 | 0x31 => 7 | 0x32 => 7 | 0x33 => 3 | 0x34 => 2 | _ => 0

/-- Is an instruction one that R173 accepts in an image of `nins` instructions? -/
def insOk (nins : Nat) (w : BitVec 64) : Bool :=
  let op := (w.extractLsb' 56 8).toNat
  let d := (w.extractLsb' 52 4).toNat
  let a := (w.extractLsb' 48 4).toNat
  let b := (w.extractLsb' 44 4).toNat
  let c := (w.extractLsb' 40 4).toNat
  let ty := (w.extractLsb' 36 4).toNat
  let rnd := (w.extractLsb' 34 2).toNat
  let imm := (w.extractLsb' 0 32).toNat
  match opUses op with
  | none => false
  | some u =>
    let field := fun (i v : Nat) => u.testBit i || decide (v = 0)
    let m := opMFields op
    let mreg := fun (i v : Nat) => !m.testBit i || decide (v ≤ 3)
    field 0 d && field 1 a && field 2 b && field 3 c && field 4 ty && field 5 rnd && field 6 imm &&
    decide ((w.extractLsb' 32 2).toNat = 0) && mreg 0 d && mreg 1 a && mreg 2 b &&
    decide (ty ≤ (if op = 0x14 then 3 else 8)) && decide (rnd ≠ 3) &&
    (if op = 0x46 then decide (imm % 4 ≠ 3) else true) &&
    (if 2 ≤ op ∧ op ≤ 5 then decide (imm % 1024 < nins) else true)

/-- The instruction that a word picks for a cell (Tables 7.2, 7.3); none for a word that R173 accepts in no image. -/
def kDecode (k : CellId) (w : BitVec 64) : Option Instr :=
  let d := w.extractLsb' 52 4
  let a := w.extractLsb' 48 4
  let b := w.extractLsb' 44 4
  let c := w.extractLsb' 40 4
  let ty := w.extractLsb' 36 4
  let rnd := w.extractLsb' 34 2
  let imm := w.extractLsb' 0 32
  if !insOk 1024 w then none
  else
    match (w.extractLsb' 56 8).toNat with
    | 0x00 => some (.nop k) | 0x01 => some (.halt k) | 0x02 => some (.jmp k imm) | 0x03 => some (.bnz k a imm)
    | 0x04 => some (.blt k a b imm) | 0x05 => some (.djnz k d imm)
    | 0x10 => some (.li k d imm) | 0x11 => some (.add k d a b) | 0x12 => some (.addi k d a imm) | 0x13 => some (.mul k d a b)
    | 0x14 => some (.ldx k d a ty imm)
    | 0x20 => some (.lclr k) | 0x21 => some (.lsum k a b ty) | 0x22 => some (.lasum k a b ty) | 0x23 => some (.lsqsum k a b ty)
    | 0x24 => some (.ldot k a b c ty) | 0x25 => some (.merge k d) | 0x26 => some (.lscan k d a b c ty imm)
    | 0x30 => some (.mli k d imm) | 0x31 => some (.madd k d a b) | 0x32 => some (.msub k d a b) | 0x33 => some (.mabs k d a)
    | 0x34 => some (.mtov k d a rnd)
    | 0x40 => some (.vli k d imm) | 0x41 => some (.vld k d a ty imm) | 0x42 => some (.vadd k d a b rnd)
    | 0x43 => some (.vsub k d a b rnd) | 0x44 => some (.vmul k d a b rnd) | 0x45 => some (.vfx k d a) | 0x46 => some (.vfn k d a imm)
    | 0x47 => some (.vgam k d a)
    | 0x50 => some (.ckle k a b c imm) | 0x51 => some (.find k c imm)
    | _ => none

/-! ### Running one instruction -/

/-- The word of a loaded kernel at a program counter. -/
def kWord (s : State) (slot : Nat) (pc : BitVec 10) : Option (BitVec 64) := (tfind s.tst.kernels slot).bind (fun x => x.code[pc.toNat]?)

/-- The kernel sample a cell runs whose next instruction is `i`: its CID, capture, kernel state and the kernel's budget. An instruction
that the word at PC does not pick is not executed (R166). -/
def kRunning (s : State) (k : CellId) (i : Instr) : Option (Nat × Capture × KState × Nat) :=
  match (cellOf s (cellKey k.hub k.cell)).work with
  | none => none
  | some w =>
    if k.cell < 16 ∧ w.cls = 2 ∧ w.k.status = .running then
      match capOf s w.cid with
      | some c =>
        if (kWord s c.slot w.k.pc).bind (kDecode k) = some i then
          some (w.cid, c, w.k, ((tfind s.tst.kernels c.slot).map (·.budget)).getD 0)
        else none
      | none => none
    else none

/-- The kernel state of a cell's sample is replaced. -/
def kPut (k : CellId) (ks : KState) (s : State) : State :=
  modCell (cellKey k.hub k.cell) (fun x => { x with work := x.work.map (fun w => { w with k := ks }) }) s

/-- The step count after an instruction. -/
def kSteps (ks : KState) (cost : Nat) : BitVec 24 := BitVec.ofNat 24 (min 16777215 (ks.steps.toNat + cost))

/-- Run one instruction on a cell: its effect, its steps, and the budget trap (R171). HALT ends the sample before the
budget is looked at. -/
def kRun (k : CellId) (i : Instr) (f : KCtx → KState → KRes) (s : State) : State :=
  match kRunning s k i with
  | none => s
  | some (cid, c, ks, budget) =>
    match f { buf := capBytes cid c, desc := ((cellOf s (cellKey k.hub k.cell)).work).bind (·.desc), free := s.free } ks with
    | .bad => s
    | .trap cause => kPut k { ks with status := .trapped cause } s
    | .ok ks1 cost op =>
      let ks2 := { ks1 with steps := kSteps ks cost }
      let ks3 := if ks2.status = .running ∧ budget ≤ ks2.steps.toNat then { ks2 with status := .trapped 1 } else ks2
      kPut k ks3 (if op then { s with free := s.free + 1 } else s)

/-! ### Table 7.3 -/

def kNop (_ : KCtx) (k : KState) : KRes := kOne k
def kHalt (_ : KCtx) (k : KState) : KRes := .ok { k with status := .halted } 1 false
def kJmp (imm : BitVec 32) (_ : KCtx) (k : KState) : KRes := .ok (kGo imm k) 1 false
def kBnz (a : BitVec 4) (imm : BitVec 32) (_ : KCtx) (k : KState) : KRes :=
  .ok (if xRead k a ≠ 0 then kGo imm k else kAdv k) 1 false
def kBlt (a b : BitVec 4) (imm : BitVec 32) (_ : KCtx) (k : KState) : KRes :=
  .ok (if (xRead k a).slt (xRead k b) then kGo imm k else kAdv k) 1 false
/-- DJNZ on X0 writes nothing; its result, X[D] − 1, is not 0. -/
def kDjnz (d : BitVec 4) (imm : BitVec 32) (_ : KCtx) (k : KState) : KRes :=
  let v := xRead k d - 1
  .ok (if v ≠ 0 then kGo imm (xWrite d v k) else kAdv (xWrite d v k)) 1 false
def kLi (d : BitVec 4) (imm : BitVec 32) (_ : KCtx) (k : KState) : KRes := kOne (xWrite d (imm.signExtend 64) k)
def kAdd (d a b : BitVec 4) (_ : KCtx) (k : KState) : KRes := kOne (xWrite d (xRead k a + xRead k b) k)
def kAddi (d a : BitVec 4) (imm : BitVec 32) (_ : KCtx) (k : KState) : KRes :=
  kOne (xWrite d (xRead k a + imm.signExtend 64) k)
def kMul (d a b : BitVec 4) (_ : KCtx) (k : KState) : KRes := kOne (xWrite d (xRead k a * xRead k b) k)
def kLdx (d a ty : BitVec 4) (imm : BitVec 32) (c : KCtx) (k : KState) : KRes :=
  let size := 2 ^ ty.toNat
  let addr := kAddr k a imm
  if 3 < ty.toNat then .bad
  else if !kReadable c addr size 1 then .trap 2
  else kOne (xWrite d (w64 (fieldAt c.buf addr size)) k)

def kLclr (_ : KCtx) (k : KState) : KRes := kOne { k with lanes := [] }
def kLdot (a b c' ty : BitVec 4) (c : KCtx) (k : KState) : KRes :=
  let n := (xRead k b).toNat
  let x := (xRead k a).toNat
  let y := (xRead k c').toNat
  if 8 < ty.toNat then .bad
  else if n = 0 then kOne k
  else if !kReadable c x (tySize ty.toNat) n || !kReadable c y (tySize ty.toNat) n then .trap 2
  else .ok (kAdv (lanesAdd ty.toNat n (fun i => flMul (elemAt c ty.toNat x i) (elemAt c ty.toNat y i)) k))
    (laneSteps ty.toNat n) false

/-- The merged value and flags of all lanes. -/
def laneTotal (k : KState) : Int := k.lanes.foldl (fun t l => t + l.2.val.toInt) 0
def laneFlags (k : KState) : MReg :=
  { pinf := k.lanes.any (·.2.pinf), ninf := k.lanes.any (·.2.ninf), nan := k.lanes.any (·.2.nan) }

def kMerge (d : BitVec 4) (c : KCtx) (k : KState) : KRes :=
  if 3 < d.toNat then .bad else mPut c d (laneTotal k) (laneFlags k) 24 k

/-- Does LSCAN fail an element: non-finite, or |x| above the limit? -/
def scanFails (x lim : Fl) : Bool := !x.isFin || (!extLe (flAbs x) lim && decide (lim ≠ .nan))

def kLscan (d a b c' ty : BitVec 4) (imm : BitVec 32) (c : KCtx) (k : KState) : KRes :=
  let n := (xRead k b).toNat
  let addr := (xRead k a).toNat
  let t := ty.toNat
  let lim := extVal (vRead k c')
  if 8 < t then .bad
  else if n = 0 then kOne (xWrite d 0 k)
  else if !kReadable c addr (tySize t) n then .trap 2
  else
    let bad := (List.range n).filter (fun i => scanFails (elemAt c t addr i) lim)
    let k1 := bad.foldl (fun k i => addFinding
      { code := imm.setWidth 16, index := BitVec.ofNat 32 (addr + tySize t * i),
        value := f32Fl (elemAt c t addr i), limit := f32Fl lim } k) k
    .ok (kAdv (xWrite d (w64 bad.length) k1)) (laneSteps t n) false

def kMli (d : BitVec 4) (imm : BitVec 32) (c : KCtx) (k : KState) : KRes :=
  let m := (imm.setWidth 24).toInt
  let e := (imm.extractLsb' 24 8).toInt
  if 3 < d.toNat then .bad else mPut c d (m * 2 ^ (e + 300).toNat) {} 1 k

/-- Sticky flags ORed. -/
def flagsOr (x y : MReg) : MReg := { pinf := x.pinf || y.pinf, ninf := x.ninf || y.ninf, nan := x.nan || y.nan }
def flagsSwap (x : MReg) : MReg := { x with pinf := x.ninf, ninf := x.pinf }

def kMadd (d a b : BitVec 4) (c : KCtx) (k : KState) : KRes :=
  if 3 < d.toNat ∨ 3 < a.toNat ∨ 3 < b.toNat then .bad
  else mPut c d ((mRead k a).val.toInt + (mRead k b).val.toInt) (flagsOr (mRead k a) (mRead k b)) 1 k
def kMsub (d a b : BitVec 4) (c : KCtx) (k : KState) : KRes :=
  if 3 < d.toNat ∨ 3 < a.toNat ∨ 3 < b.toNat then .bad
  else mPut c d ((mRead k a).val.toInt - (mRead k b).val.toInt) (flagsOr (mRead k a) (flagsSwap (mRead k b))) 1 k
def kMabs (d a : BitVec 4) (c : KCtx) (k : KState) : KRes :=
  let x := mRead k a
  if 3 < d.toNat ∨ 3 < a.toNat then .bad
  else mPut c d (x.val.toInt.natAbs : Int) { pinf := x.pinf || x.ninf, ninf := false, nan := x.nan } 1 k

/-- The value of an M register, its sticky flags first. -/
def mVal (x : MReg) : Fl :=
  if x.nan || (x.pinf && x.ninf) then .nan
  else if x.pinf then .inf false
  else if x.ninf then .inf true
  else
    let q : Rat := (x.val.toInt : Rat) / pow2 300
    .fin (decide (q < 0)) (ratAbs q)

def kMtov (d a : BitVec 4) (rnd : BitVec 2) (_ : KCtx) (k : KState) : KRes :=
  if 3 < a.toNat ∨ rnd = 3 then .bad
  else .ok (kAdv (vWrite d (extOf (rndOf rnd) (mVal (mRead k a))) k)) 2 false

def kVli (d : BitVec 4) (imm : BitVec 32) (_ : KCtx) (k : KState) : KRes :=
  kOne (vWrite d (extOf .nearest (decodeIeee 8 23 imm.toNat)) k)
def kVld (d a ty : BitVec 4) (imm : BitVec 32) (c : KCtx) (k : KState) : KRes :=
  let t := ty.toNat
  let addr := kAddr k a imm
  if 8 < t then .bad
  else if !kReadable c addr (tySize t) 1 then .trap 2
  else kOne (vWrite d (extOf .nearest (elemAt c t addr 0)) k)
def kVadd (d a b : BitVec 4) (rnd : BitVec 2) (_ : KCtx) (k : KState) : KRes :=
  if rnd = 3 then .bad else kOne (vWrite d (extAdd (rndOf rnd) (vRead k a) (vRead k b)) k)
def kVsub (d a b : BitVec 4) (rnd : BitVec 2) (_ : KCtx) (k : KState) : KRes :=
  if rnd = 3 then .bad else kOne (vWrite d (extAdd (rndOf rnd) (vRead k a) (extNeg (vRead k b))) k)
def kVmul (d a b : BitVec 4) (rnd : BitVec 2) (_ : KCtx) (k : KState) : KRes :=
  if rnd = 3 then .bad else kOne (vWrite d (extMul (rndOf rnd) (vRead k a) (vRead k b)) k)
def kVfx (d a : BitVec 4) (_ : KCtx) (k : KState) : KRes :=
  let q : Rat := ((xRead k a).toInt : Rat)
  kOne (vWrite d (extOfRat .nearest q) k)
def kVfn (d a : BitVec 4) (imm : BitVec 32) (_ : KCtx) (k : KState) : KRes :=
  let f := imm.toNat % 4
  let v := vRead k a
  if f = 3 then .bad
  else .ok (kAdv (vWrite d (if f = 0 then extExp v else if f = 1 then extRecip v else extSqrt v) k)) 8 false

/-- VGAM: g of R149, trap 3 without a descriptor or a bound. For n = 0 the manual gives no value: an open one. -/
def kVgam (d a : BitVec 4) (c : KCtx) (k : KState) : KRes :=
  let n := (xRead k a).toNat
  match c.desc with
  | none => .trap 3
  | some ds =>
    if n = 0 then .ok (kAdv (vWrite d ((Config.freeWide c.free).setWidth 80) k)) 4 true
    else
      match boundG ds n with
      | none => .trap 3
      | some g => .ok (kAdv (vWrite d (extOf .up (.fin false g)) k)) 4 false

def kCkle (a b c' : BitVec 4) (imm : BitVec 32) (_ : KCtx) (k : KState) : KRes :=
  let x := extVal (vRead k a)
  let y := extVal (vRead k b)
  if extLe x y then kOne k
  else kOne (addFinding { code := imm.setWidth 16, index := (xRead k c').setWidth 32, value := f32Fl x, limit := f32Fl y } k)
def kFind (c' : BitVec 4) (imm : BitVec 32) (_ : KCtx) (k : KState) : KRes :=
  kOne (addFinding { code := imm.setWidth 16, index := (xRead k c').setWidth 32, value := 0, limit := 0 } k)

/-! ### The rows -/

abbrev Res := Host.Outcome State Fault Refusal

def execNop (k : CellId) (s : State) : Res := nextOf s (kRun k (.nop k) kNop s)
def execHalt (k : CellId) (s : State) : Res := nextOf s (kRun k (.halt k) kHalt s)
def execJmp (k : CellId) (imm : BitVec 32) (s : State) : Res := nextOf s (kRun k (.jmp k imm) (kJmp imm) s)
def execBnz (k : CellId) (a : BitVec 4) (imm : BitVec 32) (s : State) : Res := nextOf s (kRun k (.bnz k a imm) (kBnz a imm) s)
def execBlt (k : CellId) (a b : BitVec 4) (imm : BitVec 32) (s : State) : Res := nextOf s (kRun k (.blt k a b imm) (kBlt a b imm) s)
def execDjnz (k : CellId) (d : BitVec 4) (imm : BitVec 32) (s : State) : Res := nextOf s (kRun k (.djnz k d imm) (kDjnz d imm) s)
def execLi (k : CellId) (d : BitVec 4) (imm : BitVec 32) (s : State) : Res := nextOf s (kRun k (.li k d imm) (kLi d imm) s)
def execAdd (k : CellId) (d a b : BitVec 4) (s : State) : Res := nextOf s (kRun k (.add k d a b) (kAdd d a b) s)
def execAddi (k : CellId) (d a : BitVec 4) (imm : BitVec 32) (s : State) : Res := nextOf s (kRun k (.addi k d a imm) (kAddi d a imm) s)
def execMul (k : CellId) (d a b : BitVec 4) (s : State) : Res := nextOf s (kRun k (.mul k d a b) (kMul d a b) s)
def execLdx (k : CellId) (d a ty : BitVec 4) (imm : BitVec 32) (s : State) : Res := nextOf s (kRun k (.ldx k d a ty imm) (kLdx d a ty imm) s)
def execLclr (k : CellId) (s : State) : Res := nextOf s (kRun k (.lclr k) kLclr s)
def execLsum (k : CellId) (a b ty : BitVec 4) (s : State) : Res := nextOf s (kRun k (.lsum k a b ty) (laneSum (fun x => x) a b ty) s)
def execLasum (k : CellId) (a b ty : BitVec 4) (s : State) : Res := nextOf s (kRun k (.lasum k a b ty) (laneSum flAbs a b ty) s)
def execLsqsum (k : CellId) (a b ty : BitVec 4) (s : State) : Res := nextOf s (kRun k (.lsqsum k a b ty) (laneSum (fun x => flMul x x) a b ty) s)
def execLdot (k : CellId) (a b c ty : BitVec 4) (s : State) : Res := nextOf s (kRun k (.ldot k a b c ty) (kLdot a b c ty) s)
def execMerge (k : CellId) (d : BitVec 4) (s : State) : Res := nextOf s (kRun k (.merge k d) (kMerge d) s)
def execLscan (k : CellId) (d a b c ty : BitVec 4) (imm : BitVec 32) (s : State) : Res := nextOf s (kRun k (.lscan k d a b c ty imm) (kLscan d a b c ty imm) s)
def execMli (k : CellId) (d : BitVec 4) (imm : BitVec 32) (s : State) : Res := nextOf s (kRun k (.mli k d imm) (kMli d imm) s)
def execMadd (k : CellId) (d a b : BitVec 4) (s : State) : Res := nextOf s (kRun k (.madd k d a b) (kMadd d a b) s)
def execMsub (k : CellId) (d a b : BitVec 4) (s : State) : Res := nextOf s (kRun k (.msub k d a b) (kMsub d a b) s)
def execMabs (k : CellId) (d a : BitVec 4) (s : State) : Res := nextOf s (kRun k (.mabs k d a) (kMabs d a) s)
def execMtov (k : CellId) (d a : BitVec 4) (rnd : BitVec 2) (s : State) : Res := nextOf s (kRun k (.mtov k d a rnd) (kMtov d a rnd) s)
def execVli (k : CellId) (d : BitVec 4) (imm : BitVec 32) (s : State) : Res := nextOf s (kRun k (.vli k d imm) (kVli d imm) s)
def execVld (k : CellId) (d a ty : BitVec 4) (imm : BitVec 32) (s : State) : Res := nextOf s (kRun k (.vld k d a ty imm) (kVld d a ty imm) s)
def execVadd (k : CellId) (d a b : BitVec 4) (rnd : BitVec 2) (s : State) : Res := nextOf s (kRun k (.vadd k d a b rnd) (kVadd d a b rnd) s)
def execVsub (k : CellId) (d a b : BitVec 4) (rnd : BitVec 2) (s : State) : Res := nextOf s (kRun k (.vsub k d a b rnd) (kVsub d a b rnd) s)
def execVmul (k : CellId) (d a b : BitVec 4) (rnd : BitVec 2) (s : State) : Res := nextOf s (kRun k (.vmul k d a b rnd) (kVmul d a b rnd) s)
def execVfx (k : CellId) (d a : BitVec 4) (s : State) : Res := nextOf s (kRun k (.vfx k d a) (kVfx d a) s)
def execVfn (k : CellId) (d a : BitVec 4) (imm : BitVec 32) (s : State) : Res := nextOf s (kRun k (.vfn k d a imm) (kVfn d a imm) s)
def execVgam (k : CellId) (d a : BitVec 4) (s : State) : Res := nextOf s (kRun k (.vgam k d a) (kVgam d a) s)
def execCkle (k : CellId) (a b c : BitVec 4) (imm : BitVec 32) (s : State) : Res := nextOf s (kRun k (.ckle k a b c imm) (kCkle a b c imm) s)
def execFind (k : CellId) (c : BitVec 4) (imm : BitVec 32) (s : State) : Res := nextOf s (kRun k (.find k c imm) (kFind c imm) s)

end Sys2Proof.Machine
end

