-- ==== Sys2Proof/Machine/SyncCmd.lean ====
section
/-! DEFINITION. The commands of class SYNC (R240 to R244, R251, R252, R435) and the end of a job. -/

namespace Sys2Proof.Machine
open Sys2Proof

abbrev Res0 := Host.Outcome State Fault Refusal

/-! ### The end of a job (R244) -/

/-- A kernel attachment is removed (R182). -/
def dropAttach (i : Nat) (s : State) : State := modTst (fun t => { t with attaches := tdel t.attaches i }) s

/-- End a job: free its objects, remove its descriptors and attachments, end its yield declaration (R244). -/
def jobEnd (j : Nat) (s : State) : State :=
  let s1 := forEach (objsOfJob s j) (fun b s => freeObj b.1 s) s
  let s2 := modTst (fun t => { t with
    descs := t.descs.filter (fun d => d.1 / 256 ≠ j), attaches := t.attaches.filter (fun a => a.2.job ≠ j) }) s1
  { s2 with test := { s2.test with yields := tdel s2.test.yields j }, sync := { s2.sync with jobs := tdel s2.sync.jobs j } }

/-- End jobs as FORCE does (R273). -/
def endJobs (js : List Nat) (s : State) : State := forEach js jobEnd s

/-- Jobs with a live object that names a partition in PMAP or GATE. -/
def jobsOn (s : State) (p : Nat) : List Nat := liveJobs s (fun x => x.pmap.getLsbD p || x.gate.getLsbD p)

/-- Does a caller own a job: any caller but a tenant, and a tenant a job that exists as its own (R240)? -/
def ownsJob (c : Caller) (s : State) (j : Nat) : Bool := decide (c.role ≠ 2) || decide (tfind s.sync.jobs j = some c.tenant)

/-! ### Indices and ownership -/

/-- The object index at P0: in range, and the caller's (R240). A tenant owns no free object. -/
def needObj (c : Caller) (s : State) (k : Nat → SyncObj → Ans) : Ans :=
  let o := parN c.pk 0 2
  if 32768 ≤ o then badAt 0
  else if c.role = 2 ∧ (objOf s o).tenant ≠ c.tenant then ansDenied
  else k o (objOf s o)

/-! ### SYNC.ALLOC -/

def syncAllocRow : CmdRow :=
  { op := 0x0801, roles := [1, 2], named := [(0, 1), (2, 2), (4, 1)]
    body := fun c s =>
      let ty := parB c.pk 0
      let j := parN c.pk 2 2
      let ten := parB c.pk 4
      if c.role = 2 ∧ (tfind s.sync.jobs j).isSome ∧ tfind s.sync.jobs j ≠ some c.tenant then ansDenied
      else
        need (decide (1 ≤ ty) && decide (ty ≤ 3)) (badAt 0) <|
        need (decide (j < 4096)) (badAt 2) <|
        need (decide (c.role ≠ 2) || decide (ten = 0)) (badAt 4) <|
        match firstKey (fun i => decide ((objOf s i).state = 0)) 0 32768 with
        | none => ansBusy
        | some o =>
          let t := if c.role = 2 then c.tenant else ten
          let s1 := modObj o (fun _ => { type := ty, state := 1, tenant := t, job := j }) s
          let s2 := if (tfind s1.sync.jobs j).isSome then s1
            else { s1 with sync := { s1.sync with jobs := tset s1.sync.jobs j t } }
          .done (leBytes 2 o) [] 0 s2 }

/-! ### SYNC.ARM -/

/-- Participants of partition p in the payload. -/
def armCount (pay : List Byte) (p : Nat) : Nat := fieldAt pay (16 + 4 * p) 4

/-- Does a range meet the remaining range of another live barrier (R239)? -/
def rangeMeets (s : State) (o first last : Nat) : Bool :=
  s.sync.objs.any (fun b => decide (b.1 ≠ o) && isLive b.2 && decide (first ≤ b.2.elast) && decide (b.2.epoch ≤ last))

/-- Arm a barrier: the record, and the local counts at each warden in PMAP or GATE (R238, Table 10.3). -/
def armBarrier (o first last gate : Nat) (pay : List Byte) (s : State) : State :=
  let x := objOf s o
  let ps := parts.filter (fun p => decide (armCount pay p ≠ 0))
  let total := (parts.map (armCount pay)).sum
  let s0 := dropFails o <| modObj o (fun x =>
    { x with state := 2, attempt := 0, fail := false, epoch := first, elast := last, efirst := first, count := 0, part := total,
             gate := BitVec.ofNat 128 gate, pmap := partsMask ps }) s
  let s1 := { s0 with sync := { s0.sync with gather := tdel s0.sync.gather o } }
  let s2 := forEach (objWardens x) (fun p s => modW p (fun w => { w with objs := tdel w.objs o }) s) s1
  forEach (objWardens (objOf s0 o)) (fun p s => armLocal p o
    { type := 1, state := 2, epoch := first, elast := last, parts := armCount pay p, job := x.job, tenant := x.tenant,
      gate := gate.testBit p } s) s2

def syncArmRow : CmdRow :=
  { op := 0x0802, roles := [1, 2], named := [(0, 2), (4, 4), (8, 4), (12, 4)]
    plen := fun s pk =>
      let x := objOf s (parN pk 0 2)
      if x.type = 1 then some 408 else if x.type = 0 then (if pk.plen = 408 then some 408 else some 0) else some 0
    body := fun c s => needObj c s (fun o x =>
      let first := parN c.pk 4 4
      let last := parN c.pk 8 4
      let pay := payOf c.pk
      let gate := fieldAt pay 0 16
      let total := (parts.map (armCount pay)).sum
      need (decide (x.type ≠ 0) && decide (x.state ≠ 4)) badAny <|
      need (decide (first ≤ last)) (badAt 8) <|
      if x.type ≠ 1 then ansOk (writeCount o (if x.type = 2 then parN c.pk 12 4 else 0) s)
      else
        need (decide (x.state = 1) || (decide (x.state = 2) && decide (x.count = 0) && !x.fail)) badAny <|
        need (decide (gate < 2 ^ 98)) (.err stBadParam 64 0) <|
        need (decide (1 ≤ total) && decide (total ≤ 1003912)) badAny <|
        need (!rangeMeets s o first last) badAny <|
        need (parts.all (fun p => decide (armCount pay p = 0) || partInService s p)) ansFenced <|
        ansOk (armBarrier o first last gate pay s)) }

/-! ### SYNC.FREE, SIGNAL, TAKE, QUERY, JOBEND -/

def syncFreeRow : CmdRow :=
  { op := 0x0803, roles := [1, 2], named := [(0, 2)]
    body := fun c s => needObj c s (fun o x =>
      need (decide (x.type ≠ 0) &&
        (decide (x.type ≠ 1) || decide (x.state = 1) || decide (x.state = 4) ||
          (decide (x.state = 2) && decide (x.count = 0) && !x.fail))) badAny <|
      ansOk (freeObj o s)) }

/-- A flag set to a non-zero value is released at every warden that holds a waiting arrival (R252). -/
def releaseFlag (o : Nat) (s : State) : State :=
  let ws := (s.sync.waits.filter (fun w => w.2 = o)).map (·.1)
  forEach ws.eraseDups (fun p s => send (.release p o 0 0 0) s)
    { s with sync := { s.sync with waits := s.sync.waits.filter (fun w => w.2 ≠ o) } }

def syncSignalRow : CmdRow :=
  { op := 0x0804, roles := [1, 2], named := [(0, 2), (4, 4)]
    body := fun c s => needObj c s (fun o x =>
      let n := parN c.pk 4 4
      need (decide (x.type = 2 ∨ x.type = 3) && decide (x.state ≠ 4)) badAny <|
      if x.type = 2 then
        if 4294967295 < x.count + n then ansOk (semSaturated o (writeCount o 4294967295 s))
        else ansOk (writeCount o (x.count + n) s)
      else if n = 0 then ansOk (writeCount o 0 s)
      else ansOk (releaseFlag o (writeCount o n s))) }

def syncTakeRow : CmdRow :=
  { op := 0x0805, roles := [1, 2], named := [(0, 2), (4, 4)]
    body := fun c s => needObj c s (fun o x =>
      let n := parN c.pk 4 4
      need (decide (x.type = 2) && decide (x.state ≠ 4)) badAny <|
      need (decide (1 ≤ n)) (badAt 4) <|
      need (decide (n ≤ x.count)) ansBusy <|
      ansOk (writeCount o (x.count - n) s)) }

/-- A range that runs past object 32,767 is answered by the records up to it (DESIGN CHOICE, log entry 134: the manual states neither
this nor BAD_PARAM). -/
def syncQueryRow : CmdRow :=
  { op := 0x0806, roles := [0, 1, 2], reads := true, named := [(0, 2), (2, 1)]
    body := fun c s =>
      let first := parN c.pk 0 2
      let n := parB c.pk 2
      need (decide (first < 32768)) (badAt 0) <|
      need (decide (1 ≤ n) && decide (n ≤ 60)) (badAt 2) <|
      .done [] ((List.range (min n (32768 - first))).flatMap (fun i =>
        let x := objOf s (first + i)
        if c.role = 2 ∧ x.tenant ≠ c.tenant then List.replicate 64 0 else objBytes x)) 0 s }

def syncJobendRow : CmdRow :=
  { op := 0x0807, roles := [1, 2], long := true, named := [(0, 2)]
    body := fun c s =>
      let j := parN c.pk 0 2
      if !ownsJob c s (j % 4096) then ansDenied
      else need (decide (j < 4096)) (badAt 0) (.both [] (jobEnd j s)) }

/-! ### The rows -/

def execSyncAlloc (pk : Packet) (s : State) : Res0 := nextOf s (runCmd syncAllocRow (.syncAlloc pk) pk s)
def execSyncArm (pk : Packet) (s : State) : Res0 := nextOf s (runCmd syncArmRow (.syncArm pk) pk s)
def execSyncFree (pk : Packet) (s : State) : Res0 := nextOf s (runCmd syncFreeRow (.syncFree pk) pk s)
def execSyncSignal (pk : Packet) (s : State) : Res0 := nextOf s (runCmd syncSignalRow (.syncSignal pk) pk s)
def execSyncTake (pk : Packet) (s : State) : Res0 := nextOf s (runCmd syncTakeRow (.syncTake pk) pk s)
def execSyncQuery (pk : Packet) (s : State) : Res0 := nextOf s (runCmd syncQueryRow (.syncQuery pk) pk s)
def execSyncJobend (pk : Packet) (s : State) : Res0 := nextOf s (runCmd syncJobendRow (.syncJobend pk) pk s)

end Sys2Proof.Machine
end

