-- ==== Sys2Proof/Machine/Mirror.lean ====
section
/-! DEFINITION. The mirror between the hubs (R19, R34, R263): writes taken by the Secondary, and what each acknowledgement
lets the Primary do. -/

namespace Sys2Proof.Machine
open Sys2Proof

/-- The release record of an RSN that waits for the mirror or for its acknowledgement. -/
def waitingRel (s : State) (rsn : Nat) : Option RelRec := s.sync.relWait.find? (fun r => r.rsn = rsn)

/-- The Secondary holds what a mirror write carries (R263). A release stands from then on (R250). -/
def mirApply (i : MItem) (s : State) : State :=
  match i with
  | .release rsn =>
    match waitingRel s rsn with
    | some r => modMir (fun m => { m with rels := tset m.rels r.obj r }) (commitRelease r s)
    | none => s
  | .attempt o e n => modMir (fun m => dropFail o e { m with attempts := tset m.attempts o (e, n) }) s
  | .sem o _ _ _ => mirCount o s
  | .failSet o e _ => modMir (fun m => { m with fails := insertOnce m.fails (o, e) }) s
  | .event p n => modMir (fun m => { m with events := insertOnce m.events (p, n) }) s
  | .sqHead q v => modQueue q (fun x => { x with sqHeadMir := v }) s

/-- A mirrored post acts: COUNT rises, but not past saturation nor on an object that is gone (R251, R263). -/
def postActs (o : Nat) (s : State) : State :=
  let x := objOf s o
  if x.type ≠ 2 ∨ x.state = 4 then s
  else if x.count = 4294967295 then semSaturated o (refusePost o s)
  else writeCount o (x.count + 1) s

/-- What the Primary does once a mirror write is acknowledged. -/
def mirActs (i : MItem) (s : State) : State :=
  match i with
  | .release rsn =>
    match waitingRel s rsn with
    | some r =>
      let s1 := if (gatherOf s r.obj).releasing = some rsn then commitRelease r s else s
      sendReleases r { s1 with sync := { s1.sync with relWait := s1.sync.relWait.filter (fun r => r.rsn ≠ rsn) } }
    | none => s
  | .attempt o e n =>
    let x := objOf s o
    if isLive x && decide (x.epoch = e) && decide (x.attempt = n) && (gatherOf s o).replaying then sendReplays o s else s
  | .sem o _ p num => send (.postAck p num) (postActs o s)
  | .failSet _ e p => send (.tfAck p e) s
  | .event p num => send (.evAck p num) s
  | .sqHead q v => modQueue q (fun x => { x with sqHeadMir := v }) s

/-- Is the item a release's? -/
def isRelItem (i : MItem) : Bool := match i with | .release _ => true | _ => false

/-- A mirror write by the Primary; a Sole hub has nobody to wait for (R267). -/
def mirWrite (i : MItem) (s : State) : State :=
  if hasSecondary s then modMir (fun m => { m with out := m.out ++ [i] }) s else mirActs i s

/-- A hub that becomes Sole waits for no acknowledgement: what stood in the mirror is acted on in order (R19, R34). -/
def mirFlush (s : State) : State :=
  forEach (s.mir.acks ++ s.mir.out) mirActs (modMir (fun m => { m with acks := [], out := [] }) s)

/-- The Secondary takes the oldest mirror write and acknowledges it (R19). -/
def mirrorWriteAt (h : HubId) (s : State) : State :=
  match s.mir.out with
  | [] => s
  | i :: rest =>
    if (hubOf s h).role = .secondary then
      mirApply i (modMir (fun m => { m with out := rest, acks := m.acks ++ [i] }) s)
    else s

/-- An acknowledgement other than a release's reaches the Primary (R19, R256, R251, R110). -/
def mirrorAckAt (h : HubId) (s : State) : State :=
  match s.mir.acks.find? (fun i => !isRelItem i) with
  | none => s
  | some i =>
    if (hubOf s h).role = .primary then mirActs i (modMir (fun m => { m with acks := m.acks.erase i }) s) else s

/-- The Secondary's acknowledgement of a release sequence number reaches the Primary (R34, R249), which releases only while it holds
leases from a quorum (R22). -/
def releaseAckAt (rsn : Nat) (s : State) : State :=
  if MItem.release rsn ∈ s.mir.acks ∧ (serving s).any (hasQuorum s) then
    mirActs (.release rsn) (modMir (fun m => { m with acks := m.acks.erase (.release rsn) }) s)
  else s

def execMirrorWrite (h : HubId) (s : State) : Res0 := nextOf s (mirrorWriteAt h s)
def execMirrorAck (h : HubId) (s : State) : Res0 := nextOf s (mirrorAckAt h s)
def execReleaseAck (rsn : Nat) (s : State) : Res0 := nextOf s (releaseAckAt rsn s)

end Sys2Proof.Machine
end

