-- ==== Sys2Proof/Machine/SyncRows.lean ====
section
/-! DEFINITION. Arrivals, releases, failure reports and triage results on their way between wardens and the Primary
(chapter 10). The swaps of a replay are in the rotation file. -/

namespace Sys2Proof.Machine
open Sys2Proof

/-! ### Arrivals at a warden (R246, R251, R252) -/

/-- The arrival's report to its tally: opened, and the core noted; a withdrawn core marks the epoch not clean (R220,
R259). With no tally free the arrival is counted all the same (R110). -/
def arrivalTally (p src e : Nat) (s : State) : State :=
  if tallyFull s p e then refuseTally p e s
  else
    let s1 := noteCore p e src (openTally p e s)
    if isWithdrawn s p src then failTally p e fkWithdrawn (coreSite p src) s1 else s1

/-- The fault of an arrival that may not be counted, by the warden's copy where it has one, else by the record:
none where it counts. -/
def arrivalFault (l : Option LocalObj) (x : SyncObj) (e : Nat) : Option Nat :=
  match l with
  | some l => if l.state = 1 ∨ e ≠ l.epoch then some jfEpoch else if l.parts < l.arr + 1 then some jfOver else none
  | none => if x.state = 1 ∨ e ≠ x.epoch then some jfEpoch else some jfOver

/-- A barrier arrival. -/
def arriveBarrier (p src o e : Nat) (s : State) : State :=
  let x := objOf s o
  let s1 := if srcOk src then modCore p src (fun c => { c with job := some (o, x.job) }) s else s
  match arrivalFault (tfind (war s p).objs o) x e with
  | some cause => jobFault o e cause s1
  | none =>
    let hears := (war s p).lease.isSome
    let s2 := arrivalTally p src e (modLobj p o (fun l => { l with arr := l.arr + 1, sent := if hears then l.sent + 1 else l.sent }) s1)
    sendClean p (if hears then send (.arrival p o e) s2 else s2)

/-- An arrival at a semaphore, a post: kept until acknowledged (R251). -/
def arrivePost (p o : Nat) (s : State) : State :=
  let n := (war s p).nextPost
  let s1 := modW p (fun w => { w with posts := w.posts ++ [(n, o)], nextPost := n + 1 }) s
  if (war s p).lease.isSome then send (.post p n o) s1 else s1

/-- A withdrawn core's arrival at a semaphore or flag marks its epoch (R220). -/
def markArrival (p src e : Nat) (s : State) : State :=
  if isWithdrawn s p src then withTally p e (failTally p e fkWithdrawn (coreSite p src)) s else s

def barrierArrivalAt (p src o e : Nat) (s : State) : State :=
  if !(arrivalSrc src && hearsCore s p src) then s
  else
    let x := objOf s o
    if x.state = 0 then raiseW p (evAt evSyncStray (arrivalSite p src) [(4, arrivalSite p src), (2, o), (4, e)]) s
    else if x.state = 4 then s
    else if x.type = 1 then arriveBarrier p src o e s
    else if x.type = 2 then arrivePost p o (markArrival p src e s)
    else send (.wait p o e) (markArrival p src e s)

/-! ### At the Primary (R248, R251, R252) -/

/-- Close queries to the gating wardens without participants (R247). -/
def sendQueries (o : Nat) (s : State) : State :=
  let x := objOf s o
  forEach ((gateParts x).filter (fun p => !x.pmap.getLsbD p)) (fun p s => send (.query p o x.epoch) s) s

/-- A counted arrival: COUNT, and Closing at the last one (Table 10.3). -/
def countArrival (o e : Nat) (s : State) : State :=
  let x := objOf s o
  if x.type = 1 ∧ x.state = 2 ∧ x.epoch = e then
    let s1 := modObj o (fun x => { x with count := x.count + 1, state := if x.count + 1 = x.part then 3 else 2 }) s
    if x.count + 1 = x.part then settle o (sendQueries o s1) else s1
  else s

/-- Posts of a semaphore on their way to the mirror or mirrored, not yet acting. -/
def postsOut (s : State) (o : Nat) : Nat :=
  ((s.mir.acks ++ s.mir.out).filter (fun i => match i with | .sem b _ _ _ => decide (b = o) | _ => false)).length

/-- A post reaches the Primary: the new COUNT is mirrored, and COUNT rises with the acknowledgement (R251, R263); at saturation nothing
changes but the event. A post to an object that is gone is removed. -/
def applyPost (p num o : Nat) (s : State) : State :=
  let x := objOf s o
  if x.type ≠ 2 ∨ x.state = 4 then send (.postAck p num) s
  else if x.count = 4294967295 then send (.postAck p num) (semSaturated o (refusePost o s))
  else mirWrite (.sem o (x.count + postsOut s o + 1) p num) s

/-- A wait at a flag: released at once, or held (R252). -/
def applyWait (p o : Nat) (s : State) : State :=
  let x := objOf s o
  if x.type ≠ 3 ∨ x.state = 4 then s
  else if x.count ≠ 0 then send (.release p o 0 0 0) s
  else { s with sync := { s.sync with waits := s.sync.waits ++ [(p, o)] } }

/-- What a forwarded arrival is. -/
inductive Arr where
  | barrier
  | post (num : Nat)
  | wait

def arrSel (p o e : Nat) (m : Msg) : Option Arr :=
  match m with
  | .arrival q b f => if q = p ∧ b = o ∧ f = e then some .barrier else none
  | .post q n b => if q = p ∧ b = o then some (.post n) else none
  | .wait q b f => if q = p ∧ b = o ∧ f = e then some .wait else none
  | _ => none

/-- A forwarded arrival reaches the serving hub. -/
def primaryArrivalAt (p o e : Nat) (s : State) : State :=
  if (serving s).isNone then s
  else
    match takeMsg (arrSel p o e) s with
    | none => s
    | some (.barrier, s1) => countArrival o e s1
    | some (.post n, s1) => applyPost p n o s1
    | some (.wait, s1) => applyWait p o s1

/-- A close query reaches a warden (R247). -/
def closeQueryAt (p o e : Nat) (s : State) : State :=
  if inFlight (.query p o e) s then
    sendClean p (modLobj p o (fun l => if l.epoch = e then { l with query := true } else l) (recv (.query p o e) s))
  else s

/-- Epoch-clean reaches the Primary (R248). One from an execution already replayed counts for nothing. -/
def epochCleanAt (p e : Nat) (s : State) : State :=
  if (serving s).isNone then s
  else
    match takeMsg (fun m => match m with | .clean q f a => if q = p ∧ f = e then some a else none | _ => none) s with
    | none => s
    | some (a, s1) =>
      match objAt s1 e with
      | none => s1
      | some (o, x) =>
        if x.epoch = e ∧ x.attempt = a ∧ x.gate.getLsbD p then
          settle o (modGather o (fun g => { g with clean := insertOnce g.clean p }) s1)
        else s1

/-! ### Failure reports (R247, R250, R262, R110) -/

/-- A failure set against the current epoch of a barrier (Table 10.3). It prevents a release that is not yet in the mirror (R250). -/
def setFail (o p : Nat) (r : FailRep) (s0 : State) : State :=
  let s := cancelRelease o s0
  let x := objOf s o
  let tf := r.kinds.getLsbD 7
  let s1 := modObj o (fun x => { x with fail := true }) s
  let s2 := modGather o (fun g =>
    { g with
      kinds := g.kinds ||| r.kinds
      opened := match r.triage with | some t => insertOnce g.opened (p, t) | none => g.opened
      input := g.input || r.input || (r.kinds.getLsbD 5 && decide (0 < x.attempt))
      other := g.other || (r.triage.isNone && !r.again)
      poisoned := g.poisoned || r.kinds.getLsbD 3
      tallyFull := g.tallyFull || tf }) s1
  settle o (if tf then mirWrite (.failSet o x.epoch p) s2 else s2)

/-- A failure report after its release: an escape of layer 3, named from the Primary's release record of the armed range that held the
epoch (R250, R262). A report of an epoch that no armed barrier holds or held is dropped with EV_SYNC_STRAY (R110). -/
def lateFailure (p e : Nat) (r : FailRep) (s : State) : State :=
  match s.sync.rels.find? (fun x => x.2.first ≤ e ∧ e ≤ x.2.epoch ∧ (p ∈ x.2.parts ∨ p ∈ x.2.closes)) with
  | some (o, rel) =>
    raise { evAt evEscape r.site [(4, r.site), (4, e), (2, o), (1, 3), (1, r.kinds.toNat)] with
            jobv := true, job := rel.job, tenant := rel.tenant } s
  | none => raise (evAt evSyncStray r.site [(4, r.site), (2, 0xFFFF), (4, e)]) s

/-- A failure report reaches the Primary: FAIL is set where its warden gates the barrier (R243, R247); a tally-full report of a later
epoch of the range is kept for it, and acknowledged once mirrored (R110). What follows a clear order names failures reported before: where the
epoch has no FAIL, a clear order for them is on its way, and it sets none (R255). -/
def failureReportAt (p e : Nat) (s : State) : State :=
  if (serving s).isNone then s
  else
    match takeMsg (fun m => match m with | .failure q f r => if q = p ∧ f = e then some r else none | _ => none) s with
    | none => s
    | some (r, s1) =>
      let full := decide (r.kinds = fkTallyFull)
      match objAt s1 e with
      | none => if full then send (.tfAck p e) (lateFailure p e r s1) else lateFailure p e r s1
      | some (o, x) =>
        if !x.gate.getLsbD p then (if full then send (.tfAck p e) s1 else s1)
        else if x.epoch = e then (if r.again ∧ !x.fail then s1 else setFail o p r s1)
        else if full then mirWrite (.failSet o e p) { s1 with sync := { s1.sync with full := insertOnce s1.sync.full (o, e) } }
        else s1

/-- The Primary's acknowledgement of a tally-full report reaches the warden: it repeats it no more (R110). -/
def failureReportAckAt (p e : Nat) (s : State) : State :=
  if inFlight (.tfAck p e) s then
    modW p (fun w => { w with tfRep := w.tfRep.filter (fun r => r.1 ≠ e) }) (recv (.tfAck p e) s)
  else if (war s p).alive && (war s p).tfRep.any (fun r => r.1 = e) then
    send (.failure p e { kinds := fkTallyFull, site := partSite p }) s
  else s

/-! ### Releases at a warden (R249, R252, R264) -/

/-- A barrier's release delivered: the tally closes, the cores are strobed once, the RSN is recorded, and the copy moves
to the next epoch (R238, R249). -/
def deliver (p o e rsn : Nat) (s : State) : State :=
  let s1 := closeTally p e s
  let s2 := modLobj p o (fun l =>
    if l.epoch = e then
      { l with epoch := e + 1, state := if e = l.elast then 1 else 2, arr := 0, sent := 0, query := false, cleanSent := false,
               acted := 0, replay := none }
    else l) s1
  drive (.rel p o false) (modW p (fun w => { w with rsn := rsn }) s2)

/-- Releases held early whose gap is filled are delivered in order; `n` bounds the number. -/
def deliverEarly (p : Nat) : Nat → State → State
  | 0, s => s
  | n + 1, s =>
    match (war s p).early.find? (fun r => r.2.2.2 = (war s p).rsn) with
    | some (o, e, rsn, prev) =>
      deliverEarly p n (deliver p o e rsn (modW p (fun w => { w with early := w.early.erase (o, e, rsn, prev) }) s))
    | none => s

/-- A release reaches a warden: in RSN order, early ones held, repeated ones dropped (R264). A flag's takes no RSN. A warden
without hub contact releases nothing (R24). -/
def releaseAt (p o : Nat) (s : State) : State :=
  if !(war s p).alive || (war s p).lease.isNone then s
  else
    match takeMsg (fun m => match m with
        | .release q b e r v => if q = p ∧ b = o then some (e, r, v) else none
        | _ => none) s with
    | none => s
    | some ((e, rsn, prev), s1) =>
      let w := war s1 p
      if rsn = 0 then drive (.rel p o false) s1
      else if rsn ≤ w.rsn then s1
      else if prev ≠ w.rsn then modW p (fun w => { w with early := w.early ++ [(o, e, rsn, prev)] }) s1
      else deliverEarly p w.early.length (deliver p o e rsn s1)

/-- A tally-close reaches a gating warden without participants; for a tally not open it is ignored (R249). Its copy of the
object moves on (R238). -/
def tallyCloseAt (p e : Nat) (s : State) : State :=
  if inFlight (.tclose p e) s then
    let s1 := closeTally p e (recv (.tclose p e) s)
    modW p (fun w => { w with objs := w.objs.map (fun l =>
      if l.2.type = 1 ∧ l.2.epoch = e ∧ l.2.parts = 0 then
        (l.1, { l.2 with epoch := e + 1, state := if e = l.2.elast then 1 else 2, query := false, cleanSent := false,
                         acted := 0, replay := none })
      else l) }) s1
  else s

/-- The Primary's acknowledgement of a post reaches the warden (R251). -/
def postAckAt (p num : Nat) (s : State) : State :=
  if inFlight (.postAck p num) s then
    modW p (fun w => { w with posts := w.posts.filter (fun x => x.1 ≠ num) }) (recv (.postAck p num) s)
  else s

/-! ### Triage results and clear orders (R255) -/

/-- Is a triage of a tile of an epoch still open at a warden, or its result on its way? -/
def triageOpen (s : State) (p e tid : Nat) : Bool :=
  (war s p).triages.any (fun t => decide (t.kind ≠ 2) && t.tid = tid && t.epoch = e) ||
  (war s p).triWait.any (fun t => decide (t.kind ≠ 2) && t.tid = tid && t.epoch = e) ||
  s.net.any (fun m => match m with | .triage q t f _ _ _ => q = p && t = tid && f = e | _ => false)

/-- Is the failure report that names a triage still on its way? -/
def reportOut (s : State) (p e tid : Nat) : Bool :=
  s.net.any (fun m => match m with | .failure q f r => decide (q = p) && decide (f = e) && decide (r.triage = some tid) | _ => false)

/-- A triage result reaches the Primary, after the report that names its triage: it counts where its warden gates the barrier (R243), and
where the triage was opened for the execution that is judged. A tile with two triages is open until both have ended. The result of an
engine's triage, which ends in a replay's comparison, changes no decision (Table 5.1 step 5, R255). -/
def triageResultAt (p tid e : Nat) (s : State) : State :=
  if (serving s).isNone || reportOut s p e tid then s
  else
    match takeMsg (fun m => match m with
        | .triage q t f c i ch => if q = p ∧ t = tid ∧ f = e then some (c, i, ch) else none
        | _ => none) s with
    | none => recv (.engTriage p tid e) s
    | some ((clearable, input, charged), s1) =>
      match objAt s1 e with
      | none => s1
      | some (o, x) =>
        if x.epoch ≠ e ∨ !x.gate.getLsbD p ∨ (p, tid) ∉ (gatherOf s1 o).opened then s1
        else
          settle o (modGather o (fun g =>
            { g with
              opened := if triageOpen s1 p e tid then g.opened else g.opened.filter (· ≠ (p, tid))
              cleared := if clearable then insertOnce g.cleared (p, tid) else g.cleared
              other := g.other || !clearable
              input := g.input || input
              charged := (g.charged ++ charged).eraseDups }) s1)

/-- A clear order reaches a warden: the triages' failures go, the count falls by one for each that the tally holds, and epoch-clean or a
further failure report follows (R255). -/
def clearOrderAt (p e : Nat) (s : State) : State :=
  match takeMsg (fun m => match m with | .clear q f ts => if q = p ∧ f = e then some ts else none | _ => none) s with
  | none => s
  | some (tids, s1) =>
    let s2 := modTally p e (fun t =>
      { t with out := t.out - (t.triFails.filter (fun x => x.1 ∈ tids)).length, triFails := t.triFails.filter (fun x => x.1 ∉ tids) }) s1
    match tallyOf (war s2 p) e with
    | some t => if tallyKinds t = 0 then sendClean p s2 else sendAgain p e s2
    | none => s2

/-! ### The rows -/

def execPrimaryArrival (p : Nat) (obj : BitVec 15) (epoch : BitVec 32) (s : State) : Res0 :=
  nextOf s (primaryArrivalAt p obj.toNat epoch.toNat s)
def execCloseQuery (p : Nat) (obj : BitVec 15) (epoch : BitVec 32) (s : State) : Res0 :=
  nextOf s (closeQueryAt p obj.toNat epoch.toNat s)
def execEpochClean (p : Nat) (epoch : BitVec 32) (s : State) : Res0 := nextOf s (epochCleanAt p epoch.toNat s)
def execFailureReport (p : Nat) (epoch : BitVec 32) (s : State) : Res0 := nextOf s (failureReportAt p epoch.toNat s)
def execFailureReportAck (p : Nat) (epoch : BitVec 32) (s : State) : Res0 := nextOf s (failureReportAckAt p epoch.toNat s)
def execRelease (p : Nat) (obj : BitVec 15) (s : State) : Res0 := nextOf s (releaseAt p obj.toNat s)
def execTallyClose (p : Nat) (epoch : BitVec 32) (s : State) : Res0 := nextOf s (tallyCloseAt p epoch.toNat s)
def execPostAck (p num : Nat) (s : State) : Res0 := nextOf s (postAckAt p num s)
def execTriageResult (p : Nat) (tid epoch : BitVec 32) (s : State) : Res0 := nextOf s (triageResultAt p tid.toNat epoch.toNat s)
def execClearOrder (p : Nat) (epoch : BitVec 32) (s : State) : Res0 := nextOf s (clearOrderAt p epoch.toNat s)

end Sys2Proof.Machine
end

