-- ==== Sys2Proof/Machine/Queue.lean ====
section
/-! DEFINITION. The dispatch queues of a warden (R123, R124, R188), its pattern buffer (R189), the start test (R313, R314) and the slices
of a test (R186, R187). -/

namespace Sys2Proof.Machine
open Sys2Proof

/-- A droop window, or the power order that counts as one (R328, R329). -/
def windowOpen (w : Warden) : Bool := w.droop.open_ || w.droop.order

/-! ### Dispatch queues (R123, R124) -/

def dispQueue (w : Warden) (g : Nat) : List Disp := tget [] w.shdQ g

/-- Transfers of a group that a droop window holds back (R328). -/
def heldDisp (w : Warden) (g : Nat) : Nat :=
  (w.heldW.filter (fun x => match x with | .disp k _ _ => decide (k = g) | _ => false)).length

/-- Has the queue of a group room (R123)? What a window holds back has its place in it (DESIGN CHOICE, log entry 135). -/
def hasRoom (w : Warden) (g : Nat) : Bool := decide ((dispQueue w g).length + heldDisp w g < 64)

/-- A transfer put into a queue: repeats go ahead of everything but other repeats (Table 5.1 step 3). -/
def putDisp (d : Disp) (l : List Disp) : List Disp :=
  if d.kind = 3 then l.takeWhile (fun x => decide (x.kind = 3)) ++ d :: l.dropWhile (fun x => decide (x.kind = 3)) else l ++ [d]

/-- Beats of the pattern in the buffer, 32 bits each (R188). -/
def patBeats (w : Warden) : Nat := (w.patBuf.length + 3) / 4

/-- The beat that waits for the channel of a group. -/
def beatDue (w : Warden) (g : Nat) : Option Disp :=
  match w.directed, w.patNext with
  | some src, some i =>
    if src / 1024 = g ∧ i < patBeats w then some { kind := 1, dst := src, tile := fieldAt w.patBuf (4 * i) 4 } else none
  | _, _ => none

/-- The next transfer of a group: repeats go ahead of pattern beats, which take at most every second transfer while others wait
(R188). -/
def nextDisp (w : Warden) (g : Nat) : Option Disp :=
  match dispQueue w g, beatDue w g with
  | [], b => b
  | d :: _, none => some d
  | d :: _, some b => if d.kind = 3 ∨ w.shdBeat.getLsbD g then some d else some b

/-- A transfer leaves its queue or the pattern buffer. -/
def transfer (p g : Nat) (d : Disp) (s : State) : State :=
  drive (.disp p g d.kind d.dst d.tile) (modW p (fun w => { w with
    shdBeat := setBit w.shdBeat g (decide (d.kind = 1))
    shdQ := if d.kind = 1 then w.shdQ else tput [] w.shdQ g ((dispQueue w g).drop 1)
    patNext := if d.kind = 1 then w.patNext.map (· + 1) else w.patNext }) s)

/-- Up to n transfers of a group. -/
def pumpN (p g : Nat) : Nat → State → State
  | 0, s => s
  | n + 1, s => match nextDisp (war s p) g with | none => s | some d => pumpN p g n (transfer p g d s)

/-- Is the channel of a group free, so that a transfer goes out at once? -/
def chanFree (w : Warden) (g : Nat) : Bool := w.shdReady.getLsbD g && decide (dispQueue w g = []) && (beatDue w g).isNone

/-! ### Patterns (R202 to R205) -/

def patFind (s : State) (o : BitVec 64) (q : BitVec 32) : Option (Nat × Pattern) :=
  s.quarry.index.find? (fun e => e.2.origin = o && e.2.seq = q && decide (e.2.state ≠ 4))

def modPat (i : Nat) (f : Pattern → Pattern) (s : State) : State :=
  { s with quarry := { s.quarry with index := s.quarry.index.map (fun e => if e.1 = i then (e.1, f e.2) else e) } }

/-- A pattern is Retired: its entry and granules are free (Table 8.6). -/
def dropPattern (o : BitVec 64) (q : BitVec 32) (s : State) : State :=
  nvWrite nvQuarry { s with quarry := { s.quarry with
      index := s.quarry.index.filter (fun e => !(e.2.origin = o && e.2.seq = q))
      runs := s.quarry.runs.filter (fun r => !(r.origin = o && r.seq = q)) } }

/-- A pattern ID in a payload. -/
def patId (o : BitVec 64) (q : BitVec 32) : Nat := o.toNat + q.toNat * 2 ^ 64

def modTest (p src : Nat) (f : TestRun → TestRun) (s : State) : State :=
  modCore p src (fun c => { c with test := c.test.map f }) s

def dropTest (p src : Nat) (s : State) : State :=
  modW p (fun w => { w with
    cores := tmod {} w.cores src (fun c => { c with test := none })
    directed := if w.directed = some src then none else w.directed
    patNext := if w.directed = some src then none else w.patNext
    dirWait := w.dirWait.filter (· ≠ src)
    heldW := w.heldW.filter (· ≠ .slice src) }) s

/-- A pattern run that is cut before its signature is none (R200). -/
def dropRun (p src : Nat) (s : State) : State :=
  { s with quarry := { s.quarry with runs := s.quarry.runs.filter (fun r => !(r.part = p && r.src = src && !r.done)) } }

/-! ### Probation and start test (R313, R314) -/

/-- Probation of a partition ends: one batch, and the event (R313). `path` is numbered as in EV_PARTITION_JOIN. -/
def endProbation (p path : Nat) (s : State) : State :=
  let m := mapNow (war s p)
  let entries := (partSite p, stInService) :: ((m.filter (fun e => isCoreSite e.1 && decide (e.2 = stProbation))).map (fun e => (e.1, stInService)))
  raise (ev evProbationEnd [(2, p), (1, path), (8, 10 * ((war s p).timer - (war s p).joinedAt))])
    (openBatch p entries (modW p (fun w => { w with probation := false }) s))

/-- The path a partition joined by: 1 full, 2 fast, 3 partition recovery. -/
def joinPath (w : Warden) : Nat := if w.fastJoin then 2 else if w.reset.bringup then 1 else 3

/-- After a partition's first start test since the wafer start each of its Quarantined cores is to get its confirmation (R225, R314). -/
def confirmAll (p : Nat) (s : State) : State :=
  if (war s p).confirmDue then
    forEach (s.defects.tab.filter (fun e => isCoreSite (defSite e.2) && decide (sitePart (defSite e.2) = p) && decide (defSt e.2 = 4)))
      (fun e s => modCore p (siteSrc (defSite e.2)) (fun c => { c with confirm := true }) s) (modW p (fun w => { w with confirmDue := false }) s)
  else s

/-- The start test of a partition is looked at: complete when every cluster's is (R314). It ends the probation, or the end is kept due (R313,
R472). -/
def startTestCheck (p : Nat) (s : State) : State :=
  let w := war s p
  if !w.startOpen || w.clus.any (fun k => !k.2.startDone) then s
  else
    let s1 := raise (ev evStartTestDone [(2, p), (4, w.startTested), (4, w.startQuar), (4, w.startNoRot)])
      (modW p (fun w => { w with startOpen := false }) (confirmAll p s))
    if !w.probation then s1 else if mayBegin s1 then endProbation p (joinPath w) s1 else keepDue (.probation p) s1

/-- The start test of a cluster is looked at: complete when no start-untested core remains. -/
def clusterStartCheck (p c : Nat) (s : State) : State :=
  if (cluOf s p c).startDone || (List.range 17).any (fun i => (coreOf s p (srcOf c i)).untested) then s
  else startTestCheck p (modClu p c (fun k => { k with startDone := true }) s)

/-- A start-untested core's test has ended. -/
def noteTested (p src : Nat) (failed : Bool) (s : State) : State :=
  if (coreOf s p src).untested then
    clusterStartCheck p (src / 32)
      (modW p (fun w => { w with startTested := w.startTested + 1, startQuar := if failed then w.startQuar + 1 else w.startQuar,
                                 cores := tmod {} w.cores src (fun c => { c with untested := false }) }) s)
  else s

/-! ### Pattern images (Table 8.5) -/

/-- EXPSIG and UNIT of a pattern image (Table 8.5). -/
def patExp (image : List Byte) : BitVec 64 := w64 (fieldAt image 32 8)
def patUnit (image : List Byte) : Nat := let u := fieldAt image 20 1; if u = 0xFF then 0x3FF else 0x200 + u

/-! ### Slices (R186, R187) -/

/-- The slice field of Table 8.1 for a test's step. -/
def sliceCode (t : TestRun) : Nat :=
  match t.step with | 2 => t.slice | 3 => 0x4000 + t.slice | 4 => 0x8000 | _ => 0xC000

/-- Is a core Quarantined, by its map or by an entry whose update is on its way? -/
def isQuarantined (s : State) (p src : Nat) : Bool :=
  (decide (coreState s p src = stQuarantined) || decide (defState? s (coreSite p src) = some 4)) && decide (defState? s (coreSite p src) ≠ some 5)

/-- May a core be given a slice: it is Testing or Quarantined, or the cluster's spare in state SpareTest or Borrowed (R186)? Pattern beats go to
the same cores: R188 names Testing cores and borrowed spares, and the tests of Quarantined cores and of spares need the load too (DESIGN
CHOICE, log entry 159). -/
def sliceOk (s : State) (p src : Nat) : Bool :=
  decide (coreState s p src = stTesting) || isQuarantined s p src ||
  (decide (coreState s p src = stSpare) && (decide ((cluOf s p (src / 32)).rot = 4) || decide ((cluOf s p (src / 32)).rot = 5)))

/-- A test whose core may be given no slice any more ends without a result (DESIGN CHOICE, log entry 137): the cluster is left without a
spare, a restore reports the state the core has, a harvest fails as not reproduced. -/
def abandonTest (p src : Nat) (t : TestRun) (s : State) : State :=
  let s1 := noteTested p src false (dropTest p src s)
  match t.why with
  | 2 => s1
  | 3 => finish 0x0704 (coreSite p src) stDone [BitVec.ofNat 8 (coreState s p src)] s1
  | 6 =>
    match t.pats with
    | (o, q) :: _ =>
      raise (evAt evQuarryHarvestFail (coreSite p src) [(4, coreSite p src), (1, 3)])
        (dropPattern o q { s1 with quarry := { s1.quarry with harvests := s1.quarry.harvests.filter (fun h => !(h.origin = o && h.seq = q)) } })
    | [] => s1
  | _ => modClu p (src / 32) (fun k => { k with rot := 6 }) (dropRun p src s1)

/-- The order of a test's slice. A core in reset is given none: its test starts again when the reset ends (R200). -/
def driveSlice (p src : Nat) (s : State) : State :=
  match (coreOf s p src).test with
  | none => s
  | some t =>
    if coreFenced s p src then s
    else if !sliceOk s p src then abandonTest p src t s
    else
      drive (.test p src (sliceCode t)) (modTest p src (fun t => { t with running := true, dwin := windowOpen (war s p) }) s)

/-- Start the slice of a test: at once, or held in a droop window (R328). -/
def startSlice (p src : Nat) (s : State) : State :=
  if (coreOf s p src).test.isSome && windowOpen (war s p) then
    modW p (fun w => { w with heldW := w.heldW ++ [.slice src] }) (modTest p src (fun t => { t with running := false }) s)
  else driveSlice p src s

/-- The expected signature of the slice running (R187): the slice table, or EXPSIG of the pattern in the warden's buffer. -/
def expected (s : State) (p : Nat) (t : TestRun) : BitVec 64 :=
  if t.step = 4 then patExp (war s p).patBuf else (tfind s.quarry.slices (sliceCode t)).getD (Config.sliceSig (sliceCode t))

/-- The slice or pattern named in an event (R395). -/
def sliceName (t : TestRun) : Nat :=
  match t.step, t.pats with
  | 4, (o, q) :: _ => patId o q
  | _, _ => sliceCode t

/-! ### Transfers -/

/-- The last beat of a pattern has gone: its slice starts. -/
def beatsDone (p : Nat) (s : State) : State :=
  match (war s p).directed, (war s p).patNext with
  | some src, some i => if i = patBeats (war s p) then startSlice p src (modW p (fun w => { w with patNext := none }) s) else s
  | _, _ => s

/-- The transfers that a group's ready lets go (R124). -/
def pumpGroup (p g : Nat) (s : State) : State :=
  let w := war s p
  if w.shdReady.getLsbD g then beatsDone p (pumpN p g ((dispQueue w g).length + patBeats w) s) else s

/-- A transfer of a group: at once where the channel is free, else it waits in the queue. A dead warden's outputs are 0 (R69). -/
def enqueue (p g : Nat) (d : Disp) (s : State) : State :=
  if !(war s p).alive then s else if chanFree (war s p) g then drive (.disp p g d.kind d.dst d.tile) s
  else pumpGroup p g (modW p (fun w => { w with shdQ := tput [] w.shdQ g (putDisp d (dispQueue w g)) }) s)

/-- Every queue and beat that waits at a warden moves on. -/
def pumpAll (p : Nat) (s : State) : State :=
  forEach (List.range 20) (pumpGroup p) s

end Sys2Proof.Machine
end

