-- ==== Sys2Proof/Machine/Rotation.lean ====
section
/-! DEFINITION. Spare rotation, in-field tests and replay swaps (chapter 8, R256 to R258, R471, R219 to R221, R314). -/

namespace Sys2Proof.Machine
open Sys2Proof

/-- The rotation interval (R191). -/
def rRot (s : State) : Nat := dTicks s / 20

/-! ### Quarry patterns (R202 to R205) -/

/-- Active patterns, in index order. -/
def activePats (s : State) : List (Nat × Pattern) := s.quarry.index.filter (fun e => e.2.state = 2)

/-- The cursor of a core (R205). -/
def cursorOf (s : State) (p src : Nat) : Nat :=
  ((coreOf s p src).cursor).getD ((32 * (17 * (src / 32) + src % 32)) % 4096)

/-- The second part of a pattern set: the next 32 Active patterns from the cursor, wrapping. -/
def cursorPats (s : State) (p src : Nat) : List (Nat × Pattern) :=
  let cur := cursorOf s p src
  let a := activePats s
  ((a.filter (fun e => decide (cur ≤ e.1))) ++ (a.filter (fun e => decide (e.1 < cur)))).take 32

/-- The first part: up to the 32 most recent that became Active within the last 2 × D. A factory pattern has been Active from the start. -/
def recentPats (s : State) : List (Nat × Pattern) :=
  let lim := 2 * s.test.dMin * 60000000000
  (((activePats s).filter (fun e => decide (e.2.source ≠ 0) && decide (now s < e.2.activeAt + lim))).mergeSort
    (fun x y => decide (y.2.activeAt ≤ x.2.activeAt))).take 32

/-- The pattern set of a test, and where its cursor moves (R205). -/
def patternSet (s : State) (p src : Nat) : List (BitVec 64 × BitVec 32) × Option Nat :=
  let snd := cursorPats s p src
  let fst := (recentPats s).filter (fun e => !snd.any (fun x => x.1 = e.1))
  ((fst ++ snd).map (fun e => (e.2.origin, e.2.seq)), snd.getLast?.map (fun e => (e.1 + 1) % 4096))

/-- The directed phase of a test is over: the second reset of a full test, or the end of a run on a quarantined core (Table 8.2 step 5). -/
def endDirected (p src : Nat) (s : State) : State :=
  let s1 := modW p (fun w => { w with directed := none, patNext := none }) s
  match (coreOf s p src).test with
  | none => s1
  | some t =>
    if t.why = 6 then dropTest p src s1
    else drive (.rst p (src / 32) (src % 32)) (modTest p src (fun t => { t with step := 5, pats := [] }) s1)

/-- Load the first pattern of a list that Quarry still holds into the warden's buffer; its beats go out, and its slice starts after them
(R188, R189). One retired since the test's order is passed over (DESIGN CHOICE, log entry 138). -/
def loadFrom (p src : Nat) : List (BitVec 64 × BitVec 32) → State → State
  | [], s => endDirected p src s
  | (o, q) :: r, s =>
    match patFind s o q with
    | none => loadFrom p src r s
    | some (_, x) =>
      pumpGroup p (src / 1024) (modW p (fun w => { w with patBuf := x.image, patNext := some 0 })
        (modTest p src (fun t => { t with pats := (o, q) :: r }) s))

/-- Load the next pattern of a test whose core may be given one (R186, R188). -/
def loadPattern (p src : Nat) (s : State) : State :=
  match (coreOf s p src).test with
  | none => s
  | some t =>
    if coreFenced s p src then s
    else if !sliceOk s p src then abandonTest p src t s
    else loadFrom p src t.pats s

/-- A test reaches its directed phase: it waits its turn, or passes on where its pattern set is empty (R189). -/
def enterDirected (p src : Nat) (s : State) : State :=
  match (coreOf s p src).test with
  | none => s
  | some t =>
    if t.pats = [] then drive (.rst p (src / 32) (src % 32)) (modTest p src (fun t => { t with step := 5 }) s)
    else modW p (fun w => { w with dirWait := w.dirWait ++ [src] }) (modTest p src (fun t => { t with step := 7 }) s)

/-- Start a full test: step 1 of Table 8.2, with its pattern set. -/
def startTest (p src why : Nat) (s : State) : State :=
  let ps := patternSet s p src
  drive (.rst p (src / 32) (src % 32))
    (modCore p src (fun c => { c with test := some { why, pats := ps.1, nextCur := ps.2 } }) s)

/-- Start a pattern run: the one pattern, as soon as the directed phase is free. -/
def startPattern (p src why : Nat) (o : BitVec 64) (q : BitVec 32) (s : State) : State :=
  enterDirected p src (modCore p src (fun c => { c with test := some { step := 4, why, pats := [(o, q)] } }) s)

/-! ### Offers (R194, R195, R314) -/

/-- Open an offer on a Ready cluster. -/
def openOffer (p c : Nat) (s : State) : State :=
  if (cluOf s p c).rot ≠ 0 ∨ (spareOf s p c).isNone ∨ (serving s).isNone then s
  else
    match candidateOf s p c with
    | none => s
    | some i => modClu p c (fun k => { k with rot := 1, cand := some i, offerAt := (war s p).timer, passed := false, late := false }) s

/-- Does a Ready cluster open an offer without waiting for its timer: an urgent core, an open QUAR.SET, or a
start-untested active core? -/
def offerNow (s : State) (p c : Nat) : Bool :=
  (List.range 17).any (fun i =>
    let k := coreOf s p (srcOf c i)
    decide (beneath s p (srcOf c i) ≤ 1) && (k.urgent || k.quarSet.isSome || (k.untested && !(cluOf s p c).startDone)))

/-- A cluster becomes Ready. -/
def makeReady (p c : Nat) (s : State) : State :=
  let s1 := modClu p c (fun k => { k with rot := if isShort s p c then 6 else 0, cand := none }) s
  if offerNow s1 p c then openOffer p c s1 else s1

/-- A core of the cluster goes ahead of the others: an offer opens, or the open one changes its candidate (R195). -/
def callOffer (p c : Nat) (s : State) : State :=
  match (cluOf s p c).rot with
  | 0 => openOffer p c s
  | 1 => modClu p c (fun k => { k with cand := (candidateOf s p c).orElse (fun _ => k.cand) }) s
  | _ => s

/-- Cores became cores of a triage: an open offer of which one was the candidate chooses again (R195). -/
def chooseAround (p : Nat) (srcs : List Nat) (s : State) : State :=
  forEach ((srcs.map (· / 32)).eraseDups) (chooseAgain p) s

/-- A core becomes urgent (R195). -/
def makeUrgent (p src : Nat) (s : State) : State :=
  callOffer p (src / 32)
    (modCore p src (fun c => if c.urgent then c else { c with urgent := true, urgentAt := (war s p).timer }) s)

/-! ### Replay (R256 to R258, R266, R471) -/

/-- Ask for the state move of a cluster's core to its spare. -/
def swapRequest (p c src dst why obj : Nat) (s : State) : State :=
  drive (.swapReq p c src dst)
    (modClu p c (fun k => { k with rot := 2, cand := none, holdOver := false })
      (modW p (fun w => { w with heldW := w.heldW.filter (· ≠ .swap c), swap := some { cluster := c, src_ := src, dst, why, obj } }) s))

/-- A vacated slot of a partition that the step of an object needs: a withdrawn core that holds a logical slot, the lowest first. -/
def vacatedSlot (s : State) (p o : Nat) : Option (Nat × Nat) :=
  ((vacatedOf s o).find? (fun x => decide (sitePart x = p))).map (fun x => (siteCluster x, siteSlot x))

/-- Does a withdrawn core hold a slot of a cluster? -/
def vacatedIn (s : State) (p c : Nat) : Bool :=
  (List.range 17).any (fun i => hasEntry s (coreSite p (srcOf c i)) && (slotOfPos s p c i).isSome)

/-- All swaps done: the tally of the epoch is reset, and the cores are strobed twice (R256 steps 6 and 7, R257). The execution under way
is from now on the replay's; EV_POISON_CONSUMED stays raised for the epoch (R117). -/
def replayStrobe (p obj : Nat) (s : State) : State :=
  match tfind (war s p).objs obj with
  | none => s
  | some l =>
    let a := l.replay.getD l.acted
    let s1 := modTally p l.epoch (fun t => { epoch := t.epoch, attempt := a, psnEv := t.psnEv })
      (modLobj p obj (fun l => { l with arr := 0, sent := 0, cleanSent := false, query := false, acted := a, replay := none }) s)
    if 0 < l.parts then drive (.rel p obj true) s1 else s1

/-- Do the cores of a cluster that hold slots wait at a barrier (R256 step 4)? One that has arrived nowhere since its reset runs nothing and is
not waited for (DEDUCED, log entry 133). -/
def clusterAt (s : State) (p c o : Nat) : Bool :=
  (List.range 17).all (fun i => (slotOfPos s p c i).isNone || (coreOf s p (srcOf c i)).job.all (fun j => decide (j.1 = o)))

/-- The next swap of a replay at a warden, or its end (R256 step 4, R471). -/
def replayNext (p obj : Nat) (s : State) : State :=
  match (tfind (war s p).objs obj).bind (·.replay) with
  | none => s
  | some _ =>
    match vacatedSlot s p obj with
    | none => replayStrobe p obj s
    | some (c, i) =>
      if (war s p).swap.isSome || !clusterAt s p c obj then s
      else if !mayBegin s then keepDue (.swaps p) s
      else
        let go := fun (s : State) => match spareOf s p c with
          | some d => swapRequest p c i d 1 obj s
          | none => jobFault obj (objOf s obj).epoch jfShort (makeShort p c s)
        match (cluOf s p c).rot with
        | 2 => s
        | 3 => s
        | 4 => go (match spareOf s p c with | some d => dropTest p (srcOf c d) s | none => s)
        | 5 =>
          go (match spareOf s p c with
            | some d => dropTest p (srcOf c d) { s with quarry := { s.quarry with
                runs := s.quarry.runs.filter (fun r => !(r.part = p && r.src = srcOf c d && !r.done)) } }
            | none => s)
        | 6 => jobFault obj (objOf s obj).epoch jfShort (makeShort p c s)
        | _ => go s

/-- Every replay of a warden that waits is looked at again. -/
def replayAll (p : Nat) (s : State) : State :=
  forEach ((war s p).objs.filter (fun o => o.2.replay.isSome)) (fun o s => replayNext p o.1 s) s

/-- A replay order reaches a warden (R256 step 3, R130): ignored where its ATTEMPT has been acted on (R266), and for a Faulted barrier
(R261). -/
def replayOrderAt (p o : Nat) (s : State) : State :=
  match takeMsg (fun m => match m with | .replay q b e a => if q = p ∧ b = o then some (e, a) else none | _ => none) s with
  | none => s
  | some ((e, a), s1) =>
    match tfind (war s1 p).objs o with
    | none => s1
    | some l =>
      if l.epoch ≠ e ∨ l.state = 4 ∨ a ≤ l.acted ∨ a ≤ l.replay.getD 0 then s1
      else
        replayNext p o
          (modW p (fun w => { w with pend := w.pend.filter (fun x => x.epoch ≠ e) })
            (modLobj p o (fun l => { l with replay := some a }) s1))

/-- An arrival, and the replays of its warden that wait for one. -/
def execBarrierArrival (p : Nat) (src obj : BitVec 15) (epoch : BitVec 32) (s : State) : Res0 :=
  nextOf s (replayAll p (barrierArrivalAt p src.toNat obj.toNat epoch.toNat s))

/-! ### Test ends (R190, R194, R219, R223) -/

/-- A restore ends a short cluster: slots on the usable positions in ascending order, the core in service, the cluster's
entry gone (R221). -/
def makeWhole (p c pos : Nat) (s : State) : State :=
  let us := usable s p c
  let s1 := forEach (List.range 16) (fun k s =>
    match us[k]? with
    | some q => drive (.remap p c k q) (modClu p c (fun x => { x with map := tset x.map k q }) s)
    | none => s) s
  let s2 := ownEntry p (coreSite p (srcOf c pos)) (if (war s p).probation then stProbation else stInService) s1
  modClu p c (fun k => { k with rot := 6 })
    (sendEntry p (clusterSite p c) stInService (removeEntry (clusterSite p c) s2))

/-- A restored core: its entry is removed, and it becomes Spare or ends a short cluster (Table 9.4, R221). -/
def restoreCore (p src : Nat) (s : State) : State :=
  let c := src / 32
  let s1 := removeEntry (coreSite p src) (modCore p src (fun k => { k with confirm := false }) s)
  let whole := isShort s1 p c && decide ((usable s1 p c).length = 16)
  let st := if whole then (if (war s p).probation then stProbation else stInService) else stSpare
  let s2 := if whole then makeWhole p c (src % 32) s1
    else
      let s3 := ownEntry p (coreSite p src) stSpare s1
      if (cluOf s3 p c).rot = 6 ∧ !isShort s3 p c then makeReady p c s3 else s3
  finish 0x0704 (coreSite p src) stDone [BitVec.ofNat 8 st]
    (raise (evAt evRestore (coreSite p src) [(4, coreSite p src), (1, 1), (1, st)]) s2)

/-- A full test ends clean. -/
def testClean (p src : Nat) (t : TestRun) (s : State) : State :=
  let c := src / 32
  let s1 := clearDebt p c (dropTest p src (modCore p src (fun k =>
    { k with lastTest := (war s p).timer, lastRes := 1, urgent := false, cursor := t.nextCur.orElse (fun _ => k.cursor) }) s))
  let s2 := noteTested p src false s1
  let s3 := match t.why with
    | 0 =>
      if hasEntry s2 (coreSite p src) then modClu p c (fun k => { k with rot := 6 }) s2
      else makeReady p c (ownEntry p (coreSite p src) stSpare s2)
    | 1 => if hasEntry s2 (coreSite p src) then modClu p c (fun k => { k with rot := 6 }) s2 else makeReady p c s2
    | 3 => restoreCore p src s2
    | _ => s2
  replayAll p s3

/-- What a failed test does once a hub serves (R190, R200, R219, R223). -/
def failTest (p src kind unit why layer : Nat) (s : State) : State :=
  let c := src / 32
  match why with
  | 2 => retireEntry (coreSite p src) rcConfirm s
  | 3 =>
    finish 0x0704 (coreSite p src) stDone [BitVec.ofNat 8 stRetired]
      (raise (evAt evRestore (coreSite p src) [(4, coreSite p src), (1, 2), (1, stRetired)])
        (retireEntry (coreSite p src) rcRestore s))
  | _ =>
    let s1 := modClu p c (fun k => { k with rot := 6 }) (withdrawCore p src unit kind layer 4 s)
    replayAll p (if vacatedIn s1 p c then makeShort p c s1 else s1)

/-- A full test fails: EV_TEST_FAIL, and the core is withdrawn or retired; held while no hub serves (R200). -/
def testFail (p src : Nat) (t : TestRun) (kind unit : Nat) (want got : BitVec 64) (s : State) : State :=
  let layer := if (coreOf s p src).untested then 4 else 3
  let s1 := raise (evAt evTestFail (coreSite p src)
    [(4, coreSite p src), (1, sliceCode t / 16384), (12, sliceName t), (8, want.toNat), (8, got.toNat)])
    (dropTest p src (modCore p src (fun k => { k with lastRes := 2, urgent := false, cursor := t.nextCur.orElse (fun _ => k.cursor) }) s))
  let s2 := noteTested p src true s1
  if (serving s).isNone then modCore p src (fun k => { k with heldFail := some (kind, unit, t.why, layer) }) s2
  else failTest p src kind unit t.why layer s2

/-- A slice matched: the next slice, step, pattern or the end (Table 8.2). -/
def nextSlice (p src : Nat) (t : TestRun) (s : State) : State :=
  let put := fun (f : TestRun → TestRun) (s : State) => modTest p src (fun t => { f t with running := false, rep := none }) s
  match t.step with
  | 2 => startSlice p src (put (fun t => if t.slice < 511 then { t with slice := t.slice + 1 } else { t with step := 3, slice := 0 }) s)
  | 3 => if t.slice < 255 then startSlice p src (put (fun t => { t with slice := t.slice + 1 }) s) else enterDirected p src (put id s)
  | 4 => loadPattern p src (put (fun t => { t with pats := t.pats.drop 1 }) s)
  | _ =>
    if t.why = 4 then
      let s1 := dropTest p src s
      if hasEntry s1 (coreSite p src) then modClu p (src / 32) (fun k => { k with rot := 6 }) s1 else makeReady p (src / 32) s1
    else testClean p src t s

/-- Kind and unit of the entry a failing slice makes (R190, Table 9.2). -/
def failKind (s : State) (p : Nat) (t : TestRun) : Nat × Nat :=
  match t.step with
  | 2 => (3, match Config.coreMapUnit t.slice with | some u => 0x200 + u % 64 | none => 0x3FF)
  | 3 => (4, t.slice % 256)
  | 4 => (5, patUnit (war s p).patBuf)
  | _ => (4, 0x3FF)

/-- A signature of an ordinary slice, returned or missed (R187). -/
def judgeSlice (p src : Nat) (t : TestRun) (sig : Option (BitVec 64)) (s : State) : State :=
  let want := expected s p t
  let got := sig.getD 0
  let good := decide (sig = some want)
  match t.rep with
  | none =>
    if good then nextSlice p src t s
    else
      let s1 := modTest p src (fun t => { t with rep := some got, running := false }) s
      if t.dwin then startSlice p src s1
      else driveSlice p src s1
  | some first =>
    if good then
      nextSlice p src t
        (transientOn (coreSite p src) (if (coreOf s p src).untested then 4 else 3) (fun k => evAt evTestTransient (coreSite p src)
          [(4, coreSite p src), (12, sliceName t), (8, first.toNat), (8, got.toNat), (4, k)]) s)
    else
      let fk := failKind s p t
      testFail p src t fk.1 fk.2 want got s

/-! ### The rows of rotation -/

/-- A swap may start at a yield: a hub that may begin work, the handshake free (R193, R200, R329). -/
def maySwap (s : State) (p : Nat) : Bool := mayBegin s && (war s p).swap.isNone

/-- A swap is due at a yield: it starts, or is held back in a droop window for 100 µs at most, its notice passed over
(R328). -/
def swapDue (p c src dst why : Nat) (s : State) : State :=
  if windowOpen (war s p) && !(cluOf s p c).holdOver then
    modW p (fun w => { w with heldW := insertOnce w.heldW (.swap c) }) s
  else swapRequest p c src dst why 0 s

/-- May a core other than the candidate take the offer (R195)? -/
def mayTake (s : State) (p c pos : Nat) : Bool :=
  (cluOf s p c).passed &&
  !(List.range 17).any (fun i => (coreOf s p (srcOf c i)).urgent || (coreOf s p (srcOf c i)).quarSet.isSome) &&
  decide (beneath s p (srcOf c pos) ≤ 1) &&
  decide (4 * rRot s < ageOf s p (srcOf c pos))

def yieldNoticeAt (p src : Nat) (s : State) : State :=
  let c := src / 32
  let pos := src % 32
  let k := cluOf s p c
  if !hearsCore s p src || !maySwap s p || inTriage (war s p) src || (slotOfPos s p c pos).isNone then s
  else
    match spareOf s p c with
    | none => s
    | some d =>
      if isWithdrawn s p src then (if k.rot ≤ 1 then swapDue p c pos d 2 s else s)
      else if k.rot = 1 ∧ (k.cand = some pos ∨ mayTake s p c pos) then swapDue p c pos d 0 s
      else s

/-- The logical slot moves to the former spare: the remap, the record of it, and the shadow outputs the move carried
(R193, R124). -/
def remapSlot (p c pos dst : Nat) (s : State) : State :=
  match slotOfPos s p c pos with
  | none => s
  | some slot =>
    drive (.remap p c slot dst) (modW p (fun w => { w with
      clus := tmod {} w.clus c (fun k => { k with map := if dst = slot then tdel k.map slot else tset k.map slot dst })
      pend := w.pend.map (fun x => if x.target = srcOf c pos then { x with target := srcOf c dst } else x) }) s)

/-- The full test of a core that a swap has freed begins, or is kept due (R194, R329, R472). -/
def swapTest (p src : Nat) (s : State) : State :=
  if beneath s p src ≠ stTesting ∨ (coreOf s p src).test.isSome ∨ hasEntry s (coreSite p src) then s
  else if mayBegin s then startTest p src 0 s
  else keepDue (.test p src) s

def swapAckAt (p : Nat) (s : State) : State :=
  match (war s p).swap with
  | none => s
  | some sw =>
    let c := sw.cluster
    let src := srcOf c sw.src_
    let s1 := remapSlot p c sw.src_ sw.dst (modW p (fun w => { w with swap := none }) s)
    let s2 := ownEntry p (coreSite p (srcOf c sw.dst)) (if (war s p).probation then stProbation else stInService) s1
    let short := fun (s : State) => modClu p c (fun k => { k with rot := 6, cand := none }) s
    let s3 :=
      if sw.why ≠ 0 then short s2
      else
        match (coreOf s2 p src).quarSet with
        | some st =>
          finish 0x0703 (coreSite p src) stDone []
            (short (withdrawCore p src 0x3FF 12 6 st (modCore p src (fun k => { k with quarSet := none }) s2)))
        | none =>
          if isWithdrawn s2 p src then short s2
          else (if mayBegin s2 then startTest p src 0 else keepDue (.test p src)) (ownEntry p (coreSite p src) stTesting
            (modClu p c (fun k => { k with rot := 3, cand := none }) s2))
    replayAll p s3

def swapFailAt (p : Nat) (s : State) : State :=
  if isHalted s p then s else
  match (war s p).swap with
  | none => s
  | some sw =>
    let c := sw.cluster
    let src := srcOf c sw.src_
    let s1 := raiseW p (evAt evSwapFail (clusterSite p c) [(4, clusterSite p c), (2, sw.src_), (2, sw.dst)])
      (modW p (fun w => { w with swap := none }) s)
    let s2 := modClu p c (fun k => { k with rot := 6, cand := none }) (withdrawCore p (srcOf c sw.dst) 0x3FF 6 7 4 s1)
    let s3 :=
      match (coreOf s2 p src).quarSet with
      | some st =>
        finish 0x0703 (coreSite p src) stDone []
          (withdrawCore p src 0x3FF 12 6 st (modCore p src (fun k => { k with quarSet := none }) s2))
      | none => s2
    let s4 := if isWithdrawn s3 p src then makeShort p c s3 else s3
    let s5 := if sw.why = 1 then jobFault sw.obj (objOf s4 sw.obj).epoch jfShort s4 else s4
    replayAll p s5

/-- The rotation interval of a cluster ends: an offer, kept due while none may begin (R194, R472). -/
def rotationTimerAt (p c : Nat) (s : State) : State :=
  if hearsPart s p && decide ((cluOf s p c).rot = 0) then (if mayBegin s then openOffer p c s else keepDue (.offer p c) s) else s

/-- The test of a cluster's spare is due (R194), or kept due (R472). -/
def spareTestDueAt (p c : Nat) (s : State) : State :=
  if hearsPart s p && decide ((cluOf s p c).rot = 0) then
    match spareOf s p c with
    | some d =>
      if mayBegin s then startTest p (srcOf c d) 1 (modClu p c (fun k => { k with rot := 4 }) s) else keepDue (.spareTest p c) s
    | none => s
  else s

def offerPassAt (p c : Nat) (s : State) : State :=
  if (cluOf s p c).rot = 1 ∧ !isHalted s p then modClu p c (fun k => { k with passed := true }) s else s

/-- The live job of a core (R198). -/
def liveJob (s : State) (p src : Nat) : Option Nat :=
  match (coreOf s p src).job with
  | some (o, j) => if isLive (objOf s o) && decide ((objOf s o).job = j) then some j else none
  | none => none

def yieldLateAt (p c : Nat) (s : State) : State :=
  let k := cluOf s p c
  match k.cand with
  | none => s
  | some i =>
    if k.rot ≠ 1 ∨ k.late ∨ isHalted s p then s
    else
      match liveJob s p (srcOf c i) with
      | none => s
      | some j =>
        match tfind s.test.yields j with
        | none => s
        | some b =>
          if b = 0xFFFFFFFF then s
          else
            raiseW p { evJob evYieldLate j 0 [(4, coreSite p (srcOf c i)), (2, j), (4, b), (8, 10 * ((war s p).timer - k.offerAt))]
                       with site := coreSite p (srcOf c i), tenant := tget 0 s.sync.jobs j }
              (modClu p c (fun k => { k with late := true }) s)

def testDebtAt (p src : Nat) (s : State) : State :=
  let c := src / 32
  if (cluOf s p c).inDebt ∨ 640 ≤ c then s
  else
    let j := liveJob s p src
    raiseW p { evAt evTestDebt (clusterSite p c) [(4, clusterSite p c), (4, f32n (clusterDebt s p c)), (2, j.getD 0)] with
               jobv := j.isSome, job := j.getD 0, tenant := match j with | some j => tget 0 s.sync.jobs j | none => 0 }
      (modClu p c (fun k => { k with inDebt := true }) s)

/-- Is a core the faulty core of a harvest under way (R219)? -/
def harvesting (s : State) (p src : Nat) : Bool := s.quarry.harvests.any (fun h => h.part = p && h.src = src)

/-- The directed phase becomes free: the next waiting test, else the next confirmation (R189, R219). -/
def directedPhaseStartAt (p : Nat) (s : State) : State :=
  if !(war s p).alive || (war s p).directed.isSome then s
  else
    match (war s p).dirWait with
    | src :: rest =>
      loadPattern p src (modTest p src (fun t => { t with step := 4 })
        (modW p (fun w => { w with directed := some src, dirWait := rest }) s))
    | [] =>
      if (war s p).startOpen then s
      else
        match (war s p).cores.find? (fun k => k.2.confirm && k.2.test.isNone && !harvesting s p k.1
            && decide (beneath s p k.1 = stQuarantined)) with
        | some (src, _) =>
          if mayBegin s then startTest p src 2 (modCore p src (fun k => { k with confirm := false }) s) else keepDue (.directed p) s
        | none => s

/-- A core's reset handshake ends within a test (Table 8.2 steps 1 and 5). -/
def testResetAck (p src : Nat) (s : State) : State :=
  match (coreOf s p src).test with
  | none => s
  | some t =>
    if t.step = 1 then startSlice p src (modTest p src (fun t => { t with step := 2, slice := 0 }) s)
    else if t.step = 5 then startSlice p src (modTest p src (fun t => { t with step := 6 }) s)
    else s

def execYieldNotice (p : Nat) (src : BitVec 15) (s : State) : Res0 := nextOf s (yieldNoticeAt p src.toNat s)
def execSwapAck (p : Nat) (s : State) : Res0 := nextOf s (swapAckAt p s)
def execSwapFail (p : Nat) (s : State) : Res0 := nextOf s (swapFailAt p s)
def execRotationTimer (p cluster : Nat) (s : State) : Res0 := nextOf s (rotationTimerAt p cluster s)
def execSpareTestDue (p cluster : Nat) (s : State) : Res0 := nextOf s (spareTestDueAt p cluster s)
def execOfferPass (p cluster : Nat) (s : State) : Res0 := nextOf s (offerPassAt p cluster s)
def execYieldLate (p cluster : Nat) (s : State) : Res0 := nextOf s (yieldLateAt p cluster s)
def execTestDebt (p : Nat) (src : BitVec 15) (s : State) : Res0 := nextOf s (testDebtAt p src.toNat s)
def execDirectedPhaseStart (p : Nat) (s : State) : Res0 := nextOf s (directedPhaseStartAt p s)
def execReplayOrder (p : Nat) (obj : BitVec 15) (s : State) : Res0 := nextOf s (replayOrderAt p obj.toNat s)

end Sys2Proof.Machine
end

