-- ==== Sys2Proof/Machine/Quarry.lean ====
section
/-! DEFINITION. Quarry: harvest, import, export, qualification, and the commands and rows of the classes TEST and QUARRY
(chapter 8, R433). -/

namespace Sys2Proof.Machine
open Sys2Proof

/-! ### Granules and entries (R201, R202) -/

def quarryGranules : Nat := 50688

/-- Entries in use, by first granule. -/
def usedRuns (s : State) : List (Nat × Nat) :=
  (s.quarry.index.map (fun e => (e.2.first, e.2.count))).mergeSort (fun a b => decide (a.1 ≤ b.1))

/-- Free runs: first granule and length, from a position on. -/
def freeRuns : (pos : Nat) → List (Nat × Nat) → List (Nat × Nat)
  | pos, [] => if pos < quarryGranules then [(pos, quarryGranules - pos)] else []
  | pos, (f, n) :: r => (if pos < f then [(pos, f - pos)] else []) ++ freeRuns (max pos (f + n)) r

def freeIndex (s : State) : Option Nat := firstKey (fun i => (tfind s.quarry.index i).isNone) 0 4096

/-- The first free run of at least n granules. -/
def freeGranules (s : State) (n : Nat) : Option Nat :=
  ((freeRuns 0 (usedRuns s)).find? (fun r => n ≤ r.2)).map (·.1)

def evFull (s : State) : Ev :=
  ev evQuarryFull [(4, 4096 - s.quarry.index.length), (4, (freeRuns 0 (usedRuns s)).foldl (fun m r => max m r.2) 0)]

def putPattern (i : Nat) (x : Pattern) (s : State) : State :=
  nvWrite nvQuarry { s with quarry := { s.quarry with index := tset s.quarry.index i x } }

/-- Bytes put over an image. -/
def putAt (l : List Byte) (off : Nat) (b : List Byte) : List Byte := l.take off ++ b ++ l.drop (off + b.length)

/-- The CRC of a pattern image (Table 8.5). -/
def patCrc (img : List Byte) : List Byte := leBytes 4 (crc32c (slice img 0 60 ++ img.drop 64)).toNat

/-! ### Harvest (R206 to R208) -/

/-- K consecutive elements of a section from an element on, with their scales for a block-scaled format. -/
def elemBytes (fmt : Nat) (sec : List Byte) (n start k : Nat) : List Byte :=
  slice sec (fmtSize fmt * start) (fmtSize fmt * k) ++
    (if fmt = 7 then slice sec (n + start / 32) ((k + 31) / 32) else [])

/-- UNIT that Gemer's core map gives an element, 0xFF where it gives none. -/
def elemUnit (j : Nat) : Nat := match Config.coreMapUnit (65536 + j) with | some u => u % 64 | none => 0xFF

def keyIdOf (s : State) (h : HubId) : BitVec 64 := (hubOf s h).keyId

/-- The next sequence number of a hub, kept in the persistent counters region (R206). -/
def takeSeq (h : HubId) (s : State) : BitVec 32 × State :=
  match h with
  | .a => (BitVec.ofNat 32 s.quarry.nextSeqA, { s with quarry := { s.quarry with nextSeqA := s.quarry.nextSeqA + 1 } })
  | .b => (BitVec.ofNat 32 s.quarry.nextSeqB, { s with quarry := { s.quarry with nextSeqB := s.quarry.nextSeqB + 1 } })

/-- A Candidate's image (Table 8.5), EXPSIG and FAILSIG still 0. -/
def candImage (o : BitVec 64) (q : BitVec 32) (step fmta fmtb unit k time : Nat) (body : List Byte) : List Byte :=
  let h := leBytes 4 0x51595054 ++ leBytes 8 o.toNat ++ leBytes 4 q.toNat ++ leBytes 2 step ++ leBytes 1 fmta ++
    leBytes 1 fmtb ++ leBytes 1 unit ++ leBytes 1 0 ++ leBytes 2 1 ++ leBytes 2 1 ++ leBytes 4 k ++ leBytes 2 body.length ++
    leBytes 8 0 ++ leBytes 8 0 ++ leBytes 8 time ++ leBytes 4 0 ++ leBytes 4 0
  putAt (h ++ body) 60 (patCrc (h ++ body))

/-- Enter a Candidate and its harvest. The manual says nothing of a harvest that finds no free index entry or too few free granules: here
it raises EV_QUARRY_FULL, takes no sequence number and ends with no Candidate and no EV_QUARRY_HARVEST_FAIL (DESIGN CHOICE, log entry
160). -/
def enterCandidate (h : HubId) (p src : Nat) (img : Nat → BitVec 64 → BitVec 32 → List Byte) (s : State) : State :=
  let sq := takeSeq h s
  let o := keyIdOf s h
  let im := img 0 o sq.1
  let n := (im.length + 255) / 256 + 1
  match freeIndex s, freeGranules s n with
  | some i, some g =>
    let x : Pattern := { origin := o, seq := sq.1, first := g, count := n, state := 0, source := 1, image := im, chain := [], sig := [], activeAt := 0 }
    let s1 := nvWrite nvCounters (putPattern i x sq.2)
    { s1 with quarry := { s1.quarry with harvests := s1.quarry.harvests ++ [{ origin := o, seq := sq.1, part := p, src, hub := h }] } }
  | _, _ => raise (evFull s) s

/-- A harvest begins from a verdict's worst out-of-bound element (R206, R207), or is kept due (R329, R472). -/
def harvestFrom (p src : Nat) (c : Capture) (j : Nat) (s : State) : State :=
  match serving s with
  | none => s
  | some h =>
    if !mayBegin s then keepDue (.harvest p src c j) s
    else if (coreOf s p src).lastRes ≠ 1 ∨ 7 < c.fmta ∨ 7 < c.fmtb then s
    else
      let r := j / max 1 c.cols
      let q := j % max 1 c.cols
      let body := elemBytes c.fmta (secA c) (c.rows * c.k) (r * c.k) c.k ++ elemBytes c.fmtb (secB c) (c.cols * c.k) (q * c.k) c.k
      if 16320 < body.length then raise (evAt evQuarryHarvestFail (coreSite p src) [(4, coreSite p src), (1, 1)]) s
      else enterCandidate h p src (fun _ o sq => candImage o sq s.quarry.stepping c.fmta c.fmtb (elemUnit j) c.k (now s) body) s

/-- A harvest whose hub failed is built again under the new Primary's own ORIGIN (R208). -/
def rebuildHarvest (h : HubId) (x : Harvest) (s : State) : State :=
  match patFind s x.origin x.seq with
  | none => s
  | some (_, old) =>
    let s1 := dropPattern x.origin x.seq
      { s with quarry := { s.quarry with harvests := s.quarry.harvests.filter (· ≠ x) } }
    enterCandidate h x.part x.src (fun _ o sq =>
      let im := putAt (putAt old.image 4 (leBytes 8 o.toNat)) 12 (leBytes 4 sq.toNat)
      putAt im 60 (patCrc im)) s1

/-! ### Bundles (Table 8.7) -/

def bundleHead (step plen certlen : Nat) : List Byte :=
  leBytes 4 0x51594D42 ++ leBytes 2 1 ++ leBytes 2 step ++ leBytes 4 plen ++ leBytes 4 certlen ++ List.replicate 48 0

/-- Every byte of a bundle before SIG. -/
def bundleBody (img chain : List Byte) : List Byte := bundleHead (fieldAt img 16 2) img.length chain.length ++ img ++ chain

/-- The stepping of the cores in service (R309). -/
def coreStepping (s : State) : Nat := match s.boot.manifest with | some m => m.step | none => s.quarry.stepping

/-- The checks of R209 on a whole bundle. -/
def bundleOk (s : State) (b : List Byte) : Bool :=
  let plen := fieldAt b 8 4
  let cl := fieldAt b 12 4
  let img := slice b 64 plen
  let cert := slice b (64 + plen) cl
  decide (fieldAt b 0 4 = 0x51594D42) && decide (fieldAt b 4 2 = 1) && decide (65 ≤ plen) && decide (plen ≤ 16384) &&
  decide (1 ≤ cl) && decide (cl ≤ 4096) && zeroAt b 16 48 && decide (b.length = 64 + plen + cl + 96) &&
  decide (fieldAt img 0 4 = 0x51595054) && decide (fieldAt img 18 1 ≤ 7) && decide (fieldAt img 19 1 ≤ 7) &&
  (decide (fieldAt img 20 1 ≤ 0x3F) || decide (fieldAt img 20 1 = 0xFF)) && zeroAt img 21 1 && zeroAt img 56 4 &&
  decide (1 ≤ fieldAt img 30 2) && decide (fieldAt img 30 2 ≤ 16320) && decide (plen = 64 + fieldAt img 30 2) &&
  decide (slice img 60 4 = patCrc img) && decide (fieldAt b 6 2 = fieldAt img 16 2) &&
  decide (fieldAt img 16 2 = coreStepping s) &&
  Config.sigVerifies (b.take (64 + plen + cl)) cert (b.drop (64 + plen + cl)) && Config.chainOk cert &&
  decide (certKeyId cert = w64 (fieldAt img 4 8))

/-! ### Pattern runs (R194, R207, R210) -/

def runsOf (s : State) (o : BitVec 64) (q : BitVec 32) : List PatRun :=
  s.quarry.runs.filter (fun r => r.origin = o && r.seq = q)

def harvestOf (s : State) (o : BitVec 64) (q : BitVec 32) : Option Harvest :=
  s.quarry.harvests.find? (fun h => h.origin = o && h.seq = q)

/-- May the pattern be run on a spare of partition p now? -/
def mayRun (s : State) (p : Nat) (o : BitVec 64) (q : BitVec 32) : Bool :=
  match patFind s o q with
  | none => false
  | some (_, x) =>
    let rs := runsOf s o q
    if x.state = 0 then
      match harvestOf s o q with
      | some h => decide (p ≠ h.part) && !rs.any (fun r => r.part = p) && decide (rs.length < 2)
      | none => false
    else decide (x.state = 1) && !rs.any (fun r => r.part = p) && decide (rs.length < 4)

/-- A pattern run on the spare of a Ready cluster begins, or is kept due (R207, R210, R472). -/
def patternRunAt (p c : Nat) (o : BitVec 64) (q : BitVec 32) (s : State) : State :=
  if hearsPart s p && decide ((cluOf s p c).rot = 0) && mayRun s p o q then
    match spareOf s p c with
    | some d =>
      if !mayBegin s then keepDue (.pattern p c o q) s
      else startPattern p (srcOf c d) 4 o q (modClu p c (fun k => { k with rot := 5 })
        { s with quarry := { s.quarry with runs := s.quarry.runs ++ [{ origin := o, seq := q, part := p, src := srcOf c d }] } })
    | none => s
  else s

/-- The Candidate is judged once both spares and the core have run (R207). The core runs it while its warden's map has it Quarantined (R186);
one that was restored or Retired meanwhile cannot reproduce it. -/
def judgeHarvest (h : Harvest) (i : Nat) (x : Pattern) (rs : List PatRun) (s : State) : State :=
  let spares := rs.filter (fun r => !(r.part = h.part && r.src = h.src))
  let core := rs.find? (fun r => r.part = h.part && r.src = h.src)
  if spares.length < 2 ∨ spares.any (fun r => !r.done) then s
  else
    match core with
    | none =>
      if isQuarantined s h.part h.src && !coreFenced s h.part h.src then
        if !mayBegin s then keepDue (.harvestRun h.origin h.seq) s else startPattern h.part h.src 6 h.origin h.seq
          { s with quarry := { s.quarry with runs := s.quarry.runs ++ [{ origin := h.origin, seq := h.seq, part := h.part, src := h.src }] } }
      else if isQuarantined s h.part h.src then s
      else
        raise (evAt evQuarryHarvestFail (coreSite h.part h.src) [(4, coreSite h.part h.src), (1, 3)])
          (dropPattern h.origin h.seq { s with quarry := { s.quarry with harvests := s.quarry.harvests.filter (· ≠ h) } })
    | some k =>
      if !k.done then s
      else
        let sig := match spares with | a :: _ => a.sig | [] => none
        let agree := sig.isSome && spares.all (fun r => r.sig = sig)
        let s1 := { s with quarry := { s.quarry with
          harvests := s.quarry.harvests.filter (· ≠ h), runs := s.quarry.runs.filter (fun r => !(r.origin = h.origin && r.seq = h.seq)) } }
        if agree && decide (k.sig ≠ sig) then
          let im1 := putAt (putAt x.image 32 (leBytes 8 (sig.getD 0).toNat)) 40 (leBytes 8 (k.sig.getD 0).toNat)
          let im := putAt im1 60 (patCrc im1)
          let chain := Config.hubChain (isB h.hub)
          let sg := signAs (isB h.hub) (Config.sha384 (bundleBody im chain))
          let s2 := nvWrite nvQuarry (modPat i (fun x => { x with state := 2, image := im, activeAt := now s, chain, sig := sg }) s1)
          raise (ev evQuarryActive [(12, patId h.origin h.seq), (1, 1), (4, 2)])
            (raise (evAt evQuarryHarvest (coreSite h.part h.src)
              [(12, patId h.origin h.seq), (4, coreSite h.part h.src), (1, fieldAt im 20 1), (4, x.count)]) s2)
        else
          raise (evAt evQuarryHarvestFail (coreSite h.part h.src) [(4, coreSite h.part h.src), (1, if agree then 3 else 2)])
            (dropPattern h.origin h.seq s1)

/-- Is there a further Ready cluster for a qualification, in another partition? -/
def moreReady (s : State) (used : List Nat) : Bool :=
  parts.any (fun p => decide (p ∉ used) && hearsPart s p &&
    (List.range 640).any (fun c => decide ((cluOf s p c).rot = 0) && (spareOf s p c).isSome))

/-- A Staged pattern is judged once its runs are in: four, or fewer where no further cluster is Ready (R210). -/
def judgeStaged (i : Nat) (x : Pattern) (rs : List PatRun) (s : State) : State :=
  if rs.length < 2 ∨ rs.any (fun r => !r.done) ∨ (rs.length < 4 ∧ moreReady s (rs.map (·.part))) then s
  else
    let want := patExp x.image
    let good := rs.filter (fun r => r.sig = some want)
    let s1 := { s with quarry := { s.quarry with runs := s.quarry.runs.filter (fun r => !(r.origin = x.origin && r.seq = x.seq)) } }
    if 2 ≤ good.length then
      forEach (rs.filter (fun r => r.sig ≠ some want)) (fun r s =>
        let site := coreSite r.part r.src
        let s2 := withdrawCore r.part r.src (patUnit x.image) 5 3 4
          (raise (evAt evTestFail site [(4, site), (1, 2), (12, patId x.origin x.seq), (8, want.toNat), (8, (r.sig.getD 0).toNat)]) s)
        if goodSpare s2 r.part (r.src / 32) then s2
        else modClu r.part (r.src / 32) (fun k => if k.rot = 0 ∨ k.rot = 1 then { k with rot := 6, cand := none } else k) s2)
        (raise (ev evQuarryActive [(12, patId x.origin x.seq), (1, x.source), (4, good.length)])
          (nvWrite nvQuarry (modPat i (fun x => { x with state := 2, activeAt := now s }) s1)))
    else
      raise (ev evQuarryRejected [(12, patId x.origin x.seq), (4, good.length), (4, rs.length)])
        (nvWrite nvQuarry (modPat i (fun x => { x with state := 3 }) s1))

/-- What the Primary does as a run's signature is reported. -/
def judgePattern (o : BitVec 64) (q : BitVec 32) (s : State) : State :=
  match patFind s o q with
  | none => s
  | some (i, x) =>
    match harvestOf s o q with
    | some h => judgeHarvest h i x (runsOf s o q) s
    | none => if x.state = 1 then judgeStaged i x (runsOf s o q) s else s

/-- A pattern run's signature, or none at its limit: reported, to be judged by the Primary that hears of it (R200), and the spare reset
(Table 8.3, Borrowed). -/
def patternDone (p src : Nat) (t : TestRun) (sig : Option (BitVec 64)) (s : State) : State :=
  let s1 := { s with quarry := { s.quarry with runs := s.quarry.runs.map (fun r =>
    if r.part = p && r.src = src && !r.done then { r with sig, done := true } else r) } }
  let s2 := modW p (fun w => { w with directed := none, patNext := none }) s1
  let s3 := if t.why = 4 then
      drive (.rst p (src / 32) (src % 32)) (modTest p src (fun t => { t with step := 5, running := false, pats := [] }) s2)
    else dropTest p src s2
  match t.pats with
  | (o, q) :: _ => if (serving s).isNone then s3 else judgePattern o q s3
  | [] => s3

/-- Every pattern whose runs may now be judged: a core was quarantined or came back from a reset, or a hub took over (R200, R207, R210). -/
def judgeAll (s : State) : State :=
  if (serving s).isNone then s
  else forEach ((s.quarry.index.filter (fun e => decide (e.2.state ≤ 1))).map (fun e => (e.2.origin, e.2.seq))) (fun x s => judgePattern x.1 x.2 s) s

/-- A slice's signature, or its limit passed (R187). -/
def sliceResult (p src : Nat) (sig : Option (BitVec 64)) (s : State) : State :=
  match (coreOf s p src).test with
  | none => s
  | some t =>
    if !t.running then s
    else if t.step = 4 ∧ (t.why = 4 ∨ t.why = 6) then patternDone p src t sig s
    else judgeSlice p src t sig s

/-! ### Commands of class TEST (R433) -/

def testSetRow : CmdRow :=
  { op := 0x0501, roles := [0], named := [(0, 1)]
    body := fun c s =>
      let d := parB c.pk 0
      need (decide (5 ≤ d) && decide (d ≤ 120)) (badAt 0) (ansOk { s with test := { s.test with dNext := d } }) }

def coreOrCluster (x : Nat) : Bool := isCoreSite x || isClusterSite x

def testRunRow : CmdRow :=
  { op := 0x0502, roles := [0, 1], named := [(0, 4)]
    body := fun c s => needSite s c.pk 0 coreOrCluster (fun site =>
      let p := sitePart site
      if isCoreSite site then ansOk (makeUrgent p (siteSrc site) s)
      else ansOk (forEach (List.range 17) (fun i s => makeUrgent p (srcOf (siteCluster site) i) s) s)) }

/-- The state an entry of the table or the map gives a core, as reports show it (Table 0.7). -/
def reported (s : State) (site : Nat) : Nat :=
  match ownerOf site with
  | some p => heldState s p site
  | none => (defState? s site).getD stInService

/-- The 16 bytes of one position of TEST.STATUS. -/
def posBytes (s : State) (p c i : Nat) : List Byte :=
  let src := srcOf c i
  let k := coreOf s p src
  leBytes 1 (coreState s p src) ++ leBytes 1 ((slotOfPos s p c i).getD 0xFF) ++ leBytes 1 k.lastRes ++ leBytes 1 (flag k.urgent) ++
  leBytes 4 (ageOf s p src / secTicks) ++ leBytes 4 (f32n (debtHours s p src)) ++
  leBytes 1 (satTo 255 (inWindow s (coreSite p src) (now s))) ++ leBytes 3 0

def testStatusRow : CmdRow :=
  { op := 0x0503, roles := [0, 1], reads := true, named := [(0, 4)]
    body := fun c s => needSite s c.pk 0 isClusterSite (fun site =>
      let p := sitePart site
      let cl := siteCluster site
      .done [] (leBytes 1 (cluOf s p cl).rot ++ leBytes 1 ((cluOf s p cl).cand.getD 0xFF) ++ leBytes 14 0 ++
        (List.range 17).flatMap (posBytes s p cl)) 0 s) }

def testYieldRow : CmdRow :=
  { op := 0x0504, roles := [1], named := [(0, 2), (4, 4)]
    body := fun c s => needJob c.pk 0 (fun j =>
      let b := parN c.pk 4 4
      need (decide (b ≤ 3600000) || decide (b = 0xFFFFFFFF)) (badAt 4) <|
      ansOk { s with test := { s.test with yields := tput 0 s.test.yields j b } }) }

/-! ### Commands of class QUARRY (R433) -/

/-- A whole bundle at its last piece (R209). -/
def importDone (b : List Byte) (s : State) : Ans :=
  let plen := fieldAt b 8 4
  let img := slice b 64 plen
  let o := w64 (fieldAt img 4 8)
  let q := BitVec.ofNat 32 (fieldAt img 12 4)
  let id := slice img 4 12
  let n := (plen + 255) / 256
  if !bundleOk s b then .errWith stBadParam 0xFFFF 3 s
  else if (patFind s o q).isSome then .done id [] 1 s
  else
    match freeIndex s, freeGranules s n with
    | some i, some g =>
      .done id [] 0 (raise (ev evQuarryImported [(12, patId o q), (4, n)])
        (putPattern i { origin := o, seq := q, first := g, count := n, state := 1, source := 2, image := img, chain := [],
                        sig := [], activeAt := 0 } s))
    | _, _ => .errWith stBadParam 0xFFFF 2 (raise (evFull s) s)

def quarryImportRow : CmdRow :=
  { op := 0x0601, roles := [0], pieced := true, named := [(4, 4)], plen := fun _ _ => none
    body := fun c s => piece c s 0x0601 0 20640 importDone }

/-- Does the Primary hold the chain of the hub that harvested a pattern (R208)? -/
def holdsChain (s : State) (h : HubId) (o : BitVec 64) : Bool := decide ((hubOf s h).keyId = o) || (hubOf s h).peerChain.isSome

def quarryExportRow : CmdRow :=
  { op := 0x0602, roles := [0], named := [(0, 8), (8, 4)]
    body := fun c s =>
      let o := w64 (parN c.pk 0 8)
      let q := BitVec.ofNat 32 (parN c.pk 8 4)
      match patFind s o q with
      | none => badAt 0
      | some (_, x) =>
        if x.state ≠ 2 ∨ x.source ≠ 1 then badAt 0
        else if !holdsChain s c.hub o then .err stBadParam 0xFFFF 1
        else
          let b := bundleBody x.image x.chain ++ x.sig
          .done (leBytes 4 b.length) [] 0 (irqBit c.hub 16 (modHub c.hub (fun k =>
            { k with expData := b, expOrigin := o, expSeq := q, expGen := k.expGen + 1 }) s)) }

/-- The 16 bytes of an index entry (R202); a free one has state 4. -/
def indexBytes (x : Option Pattern) : List Byte :=
  match x with
  | some x => leBytes 8 x.origin.toNat ++ leBytes 4 x.seq.toNat ++ leBytes 2 x.first ++ leBytes 1 x.count ++ leBytes 1 (x.state + 16 * x.source)
  | none => leBytes 15 0 ++ leBytes 1 4

def quarryListRow : CmdRow :=
  { op := 0x0603, roles := [0, 1], reads := true, named := [(0, 2), (2, 1)]
    body := fun c s =>
      let i := parN c.pk 0 2
      let n := parB c.pk 2
      need (decide (i < 4096)) (badAt 0) <|
      need (decide (1 ≤ n) && decide (n ≤ 200)) (badAt 2) <|
      .done [] ((List.range (min n (4096 - i))).flatMap (fun k => indexBytes (tfind s.quarry.index (i + k)))) 0 s }

def quarryRetireRow : CmdRow :=
  { op := 0x0604, roles := [0], named := [(0, 8), (8, 4)]
    body := fun c s =>
      let o := w64 (parN c.pk 0 8)
      let q := BitVec.ofNat 32 (parN c.pk 8 4)
      match patFind s o q with
      | none => badAt 0
      | some (_, x) =>
        if x.source = 0 then ansDenied
        else ansOk (dropPattern o q { s with quarry := { s.quarry with
          harvests := s.quarry.harvests.filter (fun h => !(h.origin = o && h.seq = q)) } }) }

/-! ### The rows -/

def execTestSet (pk : Packet) (s : State) : Res0 := nextOf s (runCmd testSetRow (.testSet pk) pk s)
def execTestRun (pk : Packet) (s : State) : Res0 := nextOf s (runCmd testRunRow (.testRun pk) pk s)
def execTestStatus (pk : Packet) (s : State) : Res0 := nextOf s (runCmd testStatusRow (.testStatus pk) pk s)
def execTestYield (pk : Packet) (s : State) : Res0 := nextOf s (runCmd testYieldRow (.testYield pk) pk s)
def execQuarryImport (pk : Packet) (s : State) : Res0 := nextOf s (runCmd quarryImportRow (.quarryImport pk) pk s)
def execQuarryExport (pk : Packet) (s : State) : Res0 := nextOf s (runCmd quarryExportRow (.quarryExport pk) pk s)
def execQuarryList (pk : Packet) (s : State) : Res0 := nextOf s (runCmd quarryListRow (.quarryList pk) pk s)
def execQuarryRetire (pk : Packet) (s : State) : Res0 := nextOf s (runCmd quarryRetireRow (.quarryRetire pk) pk s)
def execPatternRun (p cluster : Nat) (origin : BitVec 64) (seq : BitVec 32) (s : State) : Res0 :=
  nextOf s (patternRunAt p cluster origin seq s)
def execTestSliceSignature (p : Nat) (src : BitVec 15) (sig : BitVec 64) (s : State) : Res0 :=
  nextOf s (onAlive p (sliceResult p src.toNat (some sig)) s)
def execTestSliceTimeout (p : Nat) (src : BitVec 15) (s : State) : Res0 := nextOf s (onAlive p (sliceResult p src.toNat none) s)

end Sys2Proof.Machine
end

