-- ==== Sys2Proof/Machine/Screen.lean ====
section
/-! DEFINITION. What a warden does with the reports of its partition: certificates, shadows and their triage, engine records,
loss strobes and poison notices (chapters 4 and 5, R93, R94, R178). -/

namespace Sys2Proof.Machine
open Sys2Proof

/-! ### Limited events -/

/-- 1 ms of the warden timer, in ticks of 10 ns. -/
def msTicks : Nat := 100000

/-- May an event be raised at a time: at most one in each unit of time? -/
def dueAt (t unit_ : Nat) (last : Option Nat) : Bool := match last with | none => true | some t0 => decide (t0 + unit_ ≤ t)

def limDue (t unit_ : Nat) (l : Lim) : Bool := dueAt t unit_ l.last

/-- One more happening of a kind at a time: what stays within the last unit of time, and whether the event is raised now. -/
def noteRecent (t unit_ : Nat) (b : Bool) (r : Recent) : Bool × Recent :=
  let due := dueAt t unit_ r.last
  (due, { last := if due then some t else r.last, times := r.times.filter (fun x => decide (t < x.1 + unit_)) ++ [(t, b)] })

/-- Reports of group g from a core are taken (R52, Table 11.4). -/
def hearsFrom (s : State) (p g src : Nat) : Bool := srcOk src && decide (src / 1024 = g) && hearsCore s p src

/-- The job of the barrier whose armed range holds an epoch at a warden: is there one, job, tenant, object. -/
def epochJob (w : Warden) (e : Nat) : Bool × Nat × Nat × Nat :=
  match objOfEpoch w e with
  | some (o, l) => (true, l.job, l.tenant, o)
  | none => (false, 0, 0, 0xFFFF)

/-! ### Draws (R120 to R123) -/

/-- One output of a generator. -/
def drawGen (p g : Nat) (s : State) : BitVec 64 × State :=
  let r := Config.prngNext (tget 0 (war s p).prng g)
  (r.1, modW p (fun w => { w with prng := tset w.prng g r.2 }) s)

/-- Bits [hi:lo] of an output. -/
def bitsIn (x : BitVec 64) (hi lo : Nat) : Nat := x.toNat / 2 ^ lo % 2 ^ (hi - lo + 1)

/-- Does a cluster hold a core in Probation, or lie in a partition in probation (R88, R121)? The first question stands alone in
`coreProbation`. -/
def coreProbation (s : State) (p c : Nat) : Bool := (List.range 17).any (fun i => decide (coreState s p (srcOf c i) = 1))

def inProbation (s : State) (p c : Nat) : Bool := decide (partState s p = 1) || coreProbation s p c

/-- The fraction in force (R121). -/
def fracSteps (s : State) (p c : Nat) : Nat :=
  let b := tget (war s p).floor (war s p).frac c
  if inProbation s p c && decide (c ∉ (war s p).valProb) then min 32 (4 * b) else b

/-- Eligible positions of a cluster, ascending (R123). -/
def shadowSlots (s : State) (p c : Nat) (avoid : List Nat) : List Nat :=
  (List.range 17).filter (fun i =>
    let src := srcOf c i
    (slotOfPos s p c i).isSome && decide (answerAt s p (coreSite p src) = 1) && !inTriage (war s p) src && decide (src ∉ avoid))

/-- The core of a cluster that an output draws, accepted where its group's dispatch queue has room. -/
def pickSlot (s : State) (p c : Nat) (avoid : List Nat) (x : BitVec 64) : Option Nat :=
  let l := shadowSlots s p c avoid
  if hasRoom (war s p) (c / 32) then (l[bitsIn x 31 0 * l.length / 2 ^ 32]?).map (srcOf c) else none

/-- Step 1 of R123: up to n draws over other clusters. -/
def placeFar (p g : Nat) (others avoid : List Nat) : Nat → State → Option Nat × State
  | 0, s => (none, s)
  | n + 1, s =>
    let d := drawGen p g s
    match (others[bitsIn d.1 63 32 * others.length / 2 ^ 32]?).bind (fun c => pickSlot d.2 p c avoid d.1) with
    | some src => (some src, d.2)
    | none => placeFar p g others avoid n d.2

/-- Step 2 of R123, over the clusters that may still serve. -/
def placeNear (p g : Nat) (avoid : List Nat) : List Nat → State → Option Nat × State
  | [], s => (none, s)
  | c :: r, s =>
    let d := drawGen p g s
    match pickSlot d.2 p c avoid d.1 with
    | some src => (some src, d.2)
    | none => placeNear p g avoid r d.2

/-- A placement (R123, R133): the core and whether step 2 made it. -/
def place (p g k : Nat) (excl near avoid : List Nat) (s : State) : Option (Nat × Bool) × State :=
  let others := ((List.range 639).map (fun i => (k + 1 + i) % 640)).filter (fun c => decide (c ∉ excl))
  match placeFar p g others avoid 8 s with
  | (some src, s1) => (some (src, false), s1)
  | (none, s1) =>
    match placeNear p g avoid near s1 with
    | (some src, s2) => (some (src, true), s2)
    | (none, s2) => (none, s2)

/-! ### Dispatch (R124, R328) -/

/-- A transfer for the shadow dispatch channel: into the group's queue, or held back while a window is open where the work is one of
Table 13.1. -/
def dispatch (p src kind dst tid : Nat) (hold front : Bool) (s : State) : State :=
  if hold && windowOpen (war s p) then
    modW p (fun w => { w with heldW := w.heldW ++ [.disp (src / 1024) front { kind, dst, tile := tid }] }) s
  else enqueue p (src / 1024) { kind, dst, tile := tid } s

/-- A shadow release to the physical position that holds the output. -/
def shadowRelease (p src tid : Nat) (s : State) : State := dispatch p src 2 src tid false false s

/-- A shadow order: the logical slot of the target (R124). -/
def shadowOrder (p src tid : Nat) (marked : Bool) (s : State) : State :=
  dispatch p src 0 (srcOf (src / 32) ((slotOfPos s p (src / 32) (src % 32)).getD 0)) tid marked false s

/-- A repeat order, ahead of ordinary shadows (Table 5.1 step 3). -/
def repeatOrder (p src tid : Nat) (s : State) : State :=
  dispatch p src 3 src tid true true { s with gov := { s.gov with cnt := { s.gov.cnt with repeats := s.gov.cnt.repeats + 1 } } }

/-! ### Captures asked for by a warden (R153) -/

/-- A request for an allocation: its number is the CID it will carry. -/
def requestCap (p : Nat) (c : Capture) (s : State) : Nat × State :=
  let cid := s.tst.nextCid
  let j := epochJob (war s p) c.epoch
  (cid, modTst (fun t => { t with
    nextCid := (cid + 1) % 4294967296
    caps := tset t.caps cid { c with warden := p, jobv := j.1, job := j.2.1, tenant := j.2.2.1, obj := j.2.2.2 } }) s)

/-- An audit is dropped: counted, and EV_TSTONE_AUDIT_DROPPED at most once a millisecond per hub, with the drops of the last
millisecond (R153, R162). -/
def auditDrop (h : HubId) (cause : Nat) (s : State) : State :=
  let s1 := modCnt h (fun c => match cause with
    | 1 => { c with drop1 := c.drop1 + 1 } | 2 => { c with drop2 := c.drop2 + 1 } | 3 => { c with drop3 := c.drop3 + 1 } | _ => c) s
  let r := noteRecent (hubOf s h).time 1000000 true (match h with | .a => s.tst.dropA | .b => s.tst.dropB)
  let s2 := modTst (fun t => match h with | .a => { t with dropA := r.2 } | .b => { t with dropB := r.2 }) s1
  if r.1 then raise (ev evTstoneAuditDropped [(1, hubNum h), (4, r.2.times.length), (1, cause)]) s2 else s2

/-- The hub that counts what a warden drops before the Primary has chosen one. -/
def countHub (s : State) : HubId := (serving s).getD .a

/-- An audit of a tile or an engine row (R157, R112): one in progress at a time. -/
def auditItem (p kind site e id : Nat) (cert : BitVec 128) (s : State) : State :=
  if (war s p).auditCap.isSome then auditDrop (countHub s) 2 s
  else
    let r := requestCap p { kind, site, epoch := e, id, cert } s
    modW p (fun w => { w with auditCap := some r.1 }) r.2

/-- A kernel selection is dropped, with the drops of the last millisecond (R179, Table 7.9). -/
def kernelDrop (p att cause : Nat) (s : State) : State :=
  let s1 := modTst (fun t => { t with attaches := t.attaches.map (fun a => if a.1 = att then (a.1, { a.2 with drops := a.2.drops + 1 }) else a) }) s
  let r := noteRecent (war s p).timer msTicks true (war s p).kdrop
  let s2 := modW p (fun w => { w with kdrop := r.2 }) s1
  if r.1 then raiseW p (ev evKernelDropped [(2, p), (2, att), (4, r.2.times.length), (1, cause)]) s2 else s2

/-- Does an attachment's filter admit an operation of a descriptor index (R177)? -/
def attachAdmits (ndi : Nat) (a : Nat × Attach) : Bool := a.2.filter.all (fun n => decide (n = ndi))

/-- The attachments of a list that an item whose index no report gives is eligible for: where one has a filter, the index is an open
value (log entry 140). -/
def eligible (l : List (Nat × Attach)) (s : State) : List (Nat × Attach) × State :=
  if l.all (fun a => a.2.filter.isNone) then (l, s)
  else
    let r := freeRead s
    (l.filter (attachAdmits (r.1.toNat % 256)), r.2)

/-- The attachments of a job and source (R177). -/
def attachesOf (s : State) (p source e : Nat) : List (Nat × Attach) :=
  let j := epochJob (war s p) e
  s.tst.attaches.filter (fun a => j.1 && decide (a.2.job = j.2.1) && decide (a.2.source = source))

/-- An item is offered with one draw to the attachments it is eligible for (R177, R178): those the draw selects go with the capture as
they stand, and its preamble tells which the filter admits. With four captures in progress the selection of the lowest one is dropped,
and the others collide (R179). -/
def kernelItem (p source site e id row draw : Nat) (cert : BitVec 128) (s : State) : State :=
  let l := (attachesOf s p source e).filter (fun a => decide (draw < 2 ^ (16 - a.2.k)))
  if l = [] then s
  else if 4 ≤ (war s p).caps.length then
    let r := eligible l s
    match r.1 with
    | [] => r.2
    | a :: more => kernelDrop p a.1 1 (modCnt (countHub s) (fun k => { k with coll := k.coll + more.length }) r.2)
  else
    let r := requestCap p { kind := 5, site, epoch := e, id, row, cert, cands := l } s
    modW p (fun w => { w with caps := w.caps ++ [r.1] }) r.2

/-! ### Triage entries (R132 to R136) -/

/-- The run of a repeat on a core: not ordered where the core has left. -/
def runOn (left : List Nat) (src : Nat) : Run :=
  if src ∈ left then { core := src, ordered := false, got := some none } else { core := src }

/-- Order a run. -/
def orderRun (p tid : Nat) (r : Run) (s : State) : State := if r.ordered && r.got.isNone then repeatOrder p r.core tid s else s

/-- A triage takes an entry: the capture and the repeats (Table 5.1 steps 2 and 3). Where no core outside the clusters of O and S can run
T, O's cluster is tried first and S's next, with one further draw each (DESIGN CHOICE, log entry 142). -/
def startTriage (p : Nat) (t0 : Triage) (s0 : State) : State :=
  let site := if t0.kind = 2 then engineSite p t0.o else coreSite p t0.o
  let r := requestCap p { kind := t0.kind, site, site2 := if t0.kind = 0 then coreSite p t0.s else 0, epoch := t0.epoch, id := t0.tid,
                          row := if t0.kind = 2 then t0.sigO.toNat % 4294967296 else 0, cert := t0.cert } s0
  let t1 := { t0 with cid := r.1 }
  let put := fun (t : Triage) (s : State) => modW p (fun w => { w with triages := w.triages ++ [t] }) s
  if t0.kind = 2 then put t1 r.2
  else if t0.kind = 1 then
    let t2 := { t1 with o2 := runOn t1.left t1.o }
    orderRun p t2.tid t2.o2 (put t2 r.2)
  else
    let k := t1.o / 32
    let near := if t1.s / 32 = k then [k] else [k, t1.s / 32]
    let pl := place p (t1.o / 1024) k [t1.s / 32] near [t1.o, t1.s] r.2
    let t2 := { t1 with o2 := runOn t1.left t1.o, s2 := some (runOn t1.left t1.s), t := pl.1.map (fun x => { core := x.1 }) }
    let s1 := orderRun p t2.tid (runOn t1.left t1.s) (orderRun p t2.tid t2.o2 (put t2 pl.2))
    match t2.t with | some x => orderRun p t2.tid x (chooseAround p [x.core] s1) | none => s1

/-- The cores that a triage protects from the start (R134). -/
def triageCores (t : Triage) : List Nat := if t.kind = 2 then [] else if t.kind = 0 then [t.o, t.s] else [t.o]

/-- A mismatch or failed verdict opens a triage, or waits for an entry (R135); an offer that one of its cores was the candidate of
chooses again (R195). -/
def openTriage (p : Nat) (t : Triage) (s : State) : State :=
  chooseAround p (triageCores t) (
    if (war s p).triages.length < 16 then startTriage p t s
    else
      let s1 := modW p (fun w => { w with triWait := w.triWait ++ [t] }) s
      raiseW p (ev evTriageWait [(2, p), (4, t.epoch), (4, 16), (4, (war s1 p).triWait.length)]) s1)

/-- Waiting triages take freed entries in arrival order. -/
def nextTriages (p : Nat) : Nat → State → State
  | 0, s => s
  | n + 1, s =>
    match (war s p).triWait with
    | [] => s
    | t :: rest =>
      if (war s p).triages.length < 16 then nextTriages p n (startTriage p t (modW p (fun w => { w with triWait := rest }) s)) else s

/-! ### Classification (R93, R94, Tables 3.5 and 4.8) -/

/-- How a charge falls. -/
inductive How where
  | perm
  | trans
  | sub

/-- What a charge is made of: trigger and layer, the output's signature and its repeat's, the deviation class, and the
capture with its worst element where the verdict found the output out of bound. -/
structure Charge where
  trig  : Nat
  layer : Nat
  sig   : BitVec 64
  rep   : BitVec 64
  cls   : Nat
  harv  : Option (Capture × Nat)

/-- Would the Primary harvest from this classification (R206)? -/
def harvestOk (s : State) (p src : Nat) (c : Capture) : Bool :=
  decide ((coreOf s p src).lastRes = 1) && decide (c.fmta ≤ 7) && decide (c.fmtb ≤ 7)

/-- A permanent finding on a core or engine is ingested: evidence, the event, its withdrawal and what is harvested (R83, R95, R206,
R207). -/
def ingestPermanent (site layer : Nat) (e : Ev) (harv : Option (Capture × Nat)) (s : State) : State :=
  let s1 := raise e (charge site s)
  if isEngineSite site then withdrawEngine (sitePart site) (siteIdx site) 1 layer 4 s1
  else
    let p := sitePart site
    let src := siteSrc site
    match harv with
    | some (cap, j) =>
      if harvestOk s p src cap then
        harvestFrom p src cap j (withdrawCore p src (if elemUnit j = 0xFF then 0x3FF else 0x200 + elemUnit j) 1 layer 4 s1)
      else withdrawCore p src 0x3FF 1 layer 4 s1
    | none => withdrawCore p src 0x3FF 1 layer 4 s1

/-- Charge a core or an engine, at the ingestion time of the serving hub: while none serves the finding waits (R95). -/
def chargeSite (site : Nat) (how : How) (c : Charge) (s : State) : State :=
  match how with
  | .perm =>
    let e := evAt evFaultPermanent site [(1, c.trig), (4, site), (8, c.sig.toNat), (8, c.rep.toNat)]
    if (serving s).isNone then holdCharge { site, perm := true, layer := c.layer, ev := e, harv := c.harv } s
    else ingestPermanent site c.layer e c.harv s
  | .trans => transientOn site c.layer (fun k => evAt evFaultTransient site [(1, c.trig), (4, site), (4, k)]) s
  | .sub => transientOn site c.layer (fun k => evAt evSubBoundDeviation site [(4, site), (1, c.cls), (4, k)]) s

/-- Charge a core. -/
def chargeCore (p src : Nat) (how : How) (c : Charge) (s : State) : State := chargeSite (coreSite p src) how c s

/-- Charge an engine. -/
def chargeEngine (p idx : Nat) (how : How) (c : Charge) (s : State) : State := chargeSite (engineSite p idx) how c s

/-- The findings that waited for a hub are ingested in their order (R95). -/
def ingestHeld (s : State) : State :=
  forEach s.gov.held (fun x s =>
    if x.perm then ingestPermanent x.site x.layer x.ev x.harv s else ingestTransient x.site x.layer (eventWith x.ev) s)
    { s with gov := { s.gov with held := [] } }

/-- Did a run give an output (R133, R136)? -/
def gotOf (r : Option Run) : Option (BitVec 64) := (r.bind (·.got)).bind id

/-- Is a verdict missing for any output? -/
def noVerdict (v : List Judged) : Bool := v.isEmpty || v.any (fun j => decide (j.code = 2))

def outOfBound (v : List Judged) (i : Nat) : Bool := match v[i]? with | some j => decide (j.code = 1) | none => false

def classAt (v : List Judged) (i : Nat) : Nat := ((v[i]?).map (·.cls)).getD 0

/-- Every run of a triage is in. -/
def runsIn (t : Triage) : Bool :=
  t.o2.got.isSome && (t.s2.all (fun r => r.got.isSome)) && (t.t.all (fun r => r.got.isSome))

/-- Can the triage be classified (Table 5.1 step 5)? -/
def triDone (t : Triage) : Bool := t.verd.isSome && (runsIn t || t.limit)

/-- The cores charged by Table 3.5 and R94, as their place in the triage (0 O, 1 S, 2 T) and how. Where a shadow certificate failed
though its signature equals O's (R108), T alone differs where it gave another: row 6 charges it, and charges none where no T ran. With T
equal to both no row names a core: S, whose certificate failed, is charged (DESIGN CHOICE, log entry 150). -/
def chargesOf (t : Triage) : List (Nat × How) :=
  let v := t.verd.getD []
  let nv := noVerdict v
  let eqO := decide (gotOf (some t.o2) = some t.sigO)
  let eqS := decide (gotOf t.s2 = some t.sigS)
  let rule := fun (eq : Bool) (e : How) => if eq then How.perm else e
  if t.kind ≠ 0 then
    if nv || outOfBound v 0 then [(0, rule eqO .trans)] else if eqO then [] else [(0, .sub)]
  else
    let tt := gotOf t.t
    let odd : Option Nat := if tt = some t.sigO then some 1 else if tt = some t.sigS then some 0 else none
    let eqAt := fun (i : Nat) => if i = 0 then eqO else eqS
    if !nv then
      let bad := [0, 1].filter (fun i => outOfBound v i)
      if bad ≠ [] then bad.map (fun i => (i, rule (eqAt i) .trans))
      else match odd with
        | some i => [(i, rule (eqAt i) .sub)]
        | none => [(0, rule eqO .sub), (1, rule eqS .sub)]
    else match odd with
      | some i => [(i, rule (eqAt i) .trans)]
      | none =>
        let third := if t.t.isSome then [(2, .trans)] else []
        if t.sigS = t.sigO then third else [(0, .trans), (1, .trans)] ++ third

/-- Is it the last row of Table 3.5? -/
def unresolved (t : Triage) : Bool :=
  decide (t.kind = 0) && noVerdict (t.verd.getD []) && decide (t.sigS ≠ t.sigO) &&
    decide (gotOf t.t ≠ some t.sigO) && decide (gotOf t.t ≠ some t.sigS)

def coreAt (t : Triage) (i : Nat) : Nat := if i = 0 then t.o else if i = 1 then t.s else (t.t.map (·.core)).getD 0

/-- One charge of a triage; a core that left is charged nothing (R136). -/
def applyCharge (p : Nat) (t : Triage) (x : Nat × How) (s : State) : State :=
  let src := coreAt t x.1
  if src ∈ t.left then s
  else
    let v := t.verd.getD []
    let c : Charge := { trig := t.kind + 1, layer := if t.kind = 0 then 1 else 0
                        sig := if x.1 = 0 then t.sigO else t.sigS
                        rep := if t.kind = 2 then t.sigS else (gotOf (if x.1 = 0 then some t.o2 else t.s2)).getD 0
                        cls := classAt v x.1
                        harv := if outOfBound v x.1 && !noVerdict v then t.cap.map (fun c => (c, ((v[x.1]?).map (·.worst)).getD 0)) else none }
    if t.kind = 2 then chargeEngine p src x.2 c s else chargeCore p src x.2 c s

/-- The count of SCREEN.REPORT that a triage ends in. Where several outcomes fit, no verdict goes before any charge, and the gravest charge
before the others, whether or not its core has left (DESIGN CHOICE, log entry 151). -/
def countTriage (cs : List (Nat × How)) (nv : Bool) (c : PCnt) : PCnt :=
  let has := fun (f : How → Bool) => cs.any (fun x => f x.2)
  if nv then { c with triNone := c.triNone + 1 }
  else if has (fun h => match h with | .perm => true | _ => false) then { c with triPerm := c.triPerm + 1 }
  else if has (fun h => match h with | .trans => true | _ => false) then { c with triTran := c.triTran + 1 }
  else if has (fun h => match h with | .sub => true | _ => false) then { c with triSub := c.triSub + 1 }
  else { c with triFalse := c.triFalse + 1 }

/-- Classify a triage and free its entry: the charges, the events and the result for the Primary (R93, R94, R132, R255).
EV_ARBITRATION_UNRESOLVED gives site code 0 for T where no T was placed (DESIGN CHOICE, log entry 143). -/
def classify (p : Nat) (t : Triage) (s : State) : State :=
  let v := t.verd.getD []
  let nv := noVerdict v
  let cs := chargesOf t
  let site := if t.kind = 2 then engineSite p t.o else coreSite p t.o
  let s1 := modW p (fun w => { w with triages := w.triages.erase t, cnt := countTriage cs nv w.cnt }) s
  let s2 := forEach cs (applyCharge p t) s1
  let s3 := if t.kind ≠ 0 && cs.isEmpty then raise (evAt evCertFalseAlarm site [(4, site), (1, t.check), (1, t.dev)]) s2 else s2
  let s4 := if unresolved t then
      raise (evAt evArbitrationUnresolved site [(4, site), (4, coreSite p t.s), (4, (t.t.map (fun r => coreSite p r.core)).getD 0)]) s3
    else s3
  if t.kind = 2 then send (.engTriage p t.tid t.epoch) s4
  else
    chooseAround p (triageCores t)
      (send (.triage p t.tid t.epoch (!nv && decide ((v[0]?).map (·.code) = some 0)) false
        ((cs.filter (fun x => coreAt t x.1 ∉ t.left)).map (fun x => coreSite p (coreAt t x.1)))) s4)

/-- Classify what can be classified at a warden, and fill the entries freed. -/
def triagePoll (p : Nat) : Nat → State → State
  | 0, s => s
  | n + 1, s =>
    match (war s p).triages.find? triDone with
    | some t => triagePoll p n (classify p t s)
    | none => nextTriages p 16 s

/-- The end of every report: what it lets the warden classify, and the clean epochs it leaves. -/
def settleReport (p : Nat) (s : State) : State := sendClean p (triagePoll p 64 s)

/-! ### Certificates (R98 to R108, Table 4.5) -/

/-- Verdicts of Table 4.5. -/
inductive CertV where
  | malformed
  | poisoned
  | metaFault
  | residue
  | checksum
  | unchecked
  | clean
deriving DecidableEq, Repr

def certFmt (c : BitVec 128) : Nat := (c.extractLsb' 52 4).toNat
def certDev (c : BitVec 128) : Nat := (c.extractLsb' 48 4).toNat
def certSyn (c : BitVec 128) : Nat := (c.extractLsb' 32 16).toNat
def certTid (c : BitVec 128) : Nat := (c.extractLsb' 0 32).toNat
def certSig (c : BitVec 128) : BitVec 64 := c.extractLsb' 64 64

/-- The first row of Table 4.5 that applies (R106). A syndrome that fails beside OVF 1 is a residue failure, by the order of the table,
though R102 has the warden not judge it (DEDUCED from R106, log entry 139). -/
def certVerdict (c : BitVec 128) : CertV :=
  let b := fun i => c.getLsbD i
  if b 63 || decide (8 ≤ certFmt c) || (b 56 && decide (2 ≤ certFmt c)) || (b 57 && decide (certFmt c ≤ 1)) ||
      (b 58 && decide (certDev c ≠ 0)) then .malformed
  else if b 60 then .poisoned
  else if b 62 then .metaFault
  else if b 56 && decide (certSyn c ≠ 0) && decide (certSyn c ≠ 0xFFFF) then .residue
  else if b 57 && decide (9 ≤ certDev c) then .checksum
  else if b 58 || b 59 || (!b 56 && !b 57) then .unchecked
  else .clean

/-- The event of a certificate that fails at its verdict. A certificate carries no sub-check and no data of a metadata fault: DETAIL and
DATA are 0 (DESIGN CHOICE, log entry 144). -/
def certEvent (p src e : Nat) (c : BitVec 128) (v : CertV) (shd : Bool) (s : State) : State :=
  let site := coreSite p src
  match v with
  | .malformed => raiseW p (evAt evCertMalformed site [(4, site), (4, e), (16, c.toNat)]) s
  | .residue => raiseW p (evAt evCertFail site
      [(4, site), (4, e), (4, certTid c), (1, certFmt c), (2, certSyn c), (1, certDev c), (1, flag shd)]) s
  | .checksum => raiseW p (evAt evCertFail site
      [(4, site), (4, e), (4, certTid c), (1, certFmt c), (2, certSyn c), (1, certDev c), (1, flag shd)]) s
  | .metaFault => raiseW p (evAt evSparseMetaFault site [(4, site), (4, e), (4, certTid c), (1, 0), (8, 0), (1, 1)]) s
  | _ => s

/-- Failed check of EV_CERT_FALSE_ALARM. -/
def certCheck (v : CertV) : Nat := match v with | .malformed => 1 | .residue => 2 | .checksum => 3 | _ => 0

/-! ### Classification across a replay (Table 4.8) -/

/-- The attempt of the execution a tally counts. -/
def attemptOf (w : Warden) (e : Nat) : Nat := ((tallyOf w e).map (·.attempt)).getD 0

/-- A failure to be classified by its replay. -/
def noteFirst (p : Nat) (f : First) (s : State) : State := modW p (fun w => { w with firsts := w.firsts ++ [f] }) s

def firstSite (p : Nat) (f : First) : Nat := if f.core then coreSite p f.unit else engineSite p f.unit

/-- A core's failure of an execution before is charged at the replay limit too, where its object's gate holds the partition (R260). -/
def noteCharged (p e site : Nat) (s : State) : State :=
  if !isCoreSite site then s else
  match objAt s e with
  | some (o, r) => if r.gate.getLsbD p then modGather o (fun g => { g with charged := insertOnce g.charged site }) s else s
  | none => s

/-- The replay of an operation that failed before is judged against it (Table 4.8): found by its epoch and operation ID, on whatever
unit it runs. A malformed report is another result than the first (DESIGN CHOICE, log entry 145). True: an input fault, and nothing
further is done with the report, whose own event `own` comes first. -/
def replayCheck (p e : Nat) (core : Bool) (id rslt data : Nat) (own : State → State) (s : State) : Bool × State :=
  match (war s p).firsts.find? (fun f => decide (f.epoch = e) && f.core == core &&
      decide (f.id = id) && decide (f.attempt < attemptOf (war s p) e)) with
  | none => (false, s)
  | some f =>
    let s1 := modW p (fun w => { w with firsts := w.firsts.erase f }) s
    let same := decide (rslt = f.rslt) && decide (data = f.data)
    let site := firstSite p f
    let c : Charge := { trig := if f.core then 2 else 3, layer := 0, sig := w64 f.data, rep := w64 data, cls := 0, harv := none }
    if same && decide (f.row = 1) then
      let j := epochJob (war s p) e
      let s2 := raiseW p { evAt evEngineInputFault site [(4, site), (4, e), (2, j.2.1), (4, id), (1, rslt), (8, data)] with
                           jobv := j.1, job := j.2.1, tenant := j.2.2.1 } (own s1)
      (true, sendFailure p e none true (modTally p e (fun t => { t with input := true, kinds := t.kinds ||| fkCert, first := if t.first = 0 then site else t.first }) s2))
    else (false, chargeSite site (if same then How.perm else How.trans) c (noteCharged p e site s1))

/-! ### Selection for shadow, audit and kernel (R119 to R123, R131, R157, R178) -/

/-- EV_SHADOW_OVERRUN, at most once a millisecond: misses and forced selections lost in the last one (R131, Table 5.2). -/
def overrunEvent (p cause : Nat) (forced : Bool) (s : State) : State :=
  let r := noteRecent (war s p).timer msTicks forced (war s p).overrun
  let s1 := modW p (fun w => { w with overrun := r.2 }) s
  if r.1 then
    raiseW p (ev evShadowOverrun [(2, p), (4, (r.2.times.filter (fun x => !x.2)).length), (1, cause), (4, (r.2.times.filter (·.2)).length)]) s1
  else s1

def modSCnt (p c : Nat) (f : SCnt → SCnt) (s : State) : State := modW p (fun w => { w with scnt := tmod {} w.scnt c f }) s

/-- A selection that fails: a miss, or a loss strobe for a forced one (R131). -/
def selectMiss (p e c cause : Nat) (forced : Bool) (s : State) : State :=
  overrunEvent p cause forced
    (if forced then lossEpoch p e s
     else modSCnt p c (fun k => { k with miss := k.miss + 1 }) (modW p (fun w => { w with cnt := { w.cnt with miss := w.cnt.miss + 1 } }) s))

/-- Count a placement (R123, R431). -/
def countPlaced (p c : Nat) (near : Bool) (s : State) : State :=
  modSCnt p c (fun k => { k with placed := k.placed + 1, same := k.same + flag near })
    (modW p (fun w => { w with cnt := { w.cnt with same := w.cnt.same + flag near } }) s)

/-- Place the shadow of a selected tile. `why`: 0 ordinary, 1 droop, 2 unchecked. -/
def shadowTile (p src e : Nat) (cert : BitVec 128) (why : Nat) (marked : Bool) (s : State) : State :=
  let tid := certTid cert
  let c := src / 32
  let forced := decide (why ≠ 0)
  let s1 := if forced then modW p (fun w => { w with cnt := { w.cnt with forced := w.cnt.forced + 1 } }) s
    else modSCnt p c (fun k => { k with sel := k.sel + 1 }) (modW p (fun w => { w with cnt := { w.cnt with sel := w.cnt.sel + 1 } }) s)
  let pl := place p (src / 1024) c [] [c] [src] s1
  match pl.1 with
  | none => selectMiss p e c 1 forced pl.2
  | some (d, near) =>
    if 8192 ≤ (war pl.2 p).pend.length then selectMiss p e c 2 forced pl.2
    else
      let s2 := countPlaced p c near (modW p (fun w => { w with pend := w.pend ++
        [{ tid, epoch := e, orig := src, target := d, sig := certSig cert, at_ := w.timer, forced, cert, marked, first := d }] }) pl.2)
      let k := s2.gov.cnt
      let k' := match why with
        | 0 => { k with ordinary := k.ordinary + 1 } | 1 => { k with droop := k.droop + 1 } | _ => { k with unchecked := k.unchecked + 1 }
      shadowOrder p d tid marked (outUp p e { s2 with gov := { s2.gov with cnt := k' } })

/-- An eligible tile is drawn (R119 to R122, R157, R178). -/
def drawTile (p src e : Nat) (cert : BitVec 128) (unchecked marked : Bool) (s : State) : State :=
  let tid := certTid cert
  let g := src / 1024
  let c := src / 32
  let d := drawGen p g s
  let s1 := modSCnt p c (fun k => { k with elig := k.elig + 1 }) d.2
  let droop := marked && (war s p).droop.targetOn
  let why := if unchecked then 2 else if droop then 1 else 0
  let s2 := if decide (why ≠ 0) || decide (bitsIn d.1 63 56 < fracSteps s p c) then shadowTile p src e cert why marked s1 else s1
  let s3 := if bitsIn d.1 55 40 < (war s p).auditThr then auditItem p 3 (coreSite p src) e tid cert s2 else s2
  kernelItem p 0 (coreSite p src) e tid 0 (bitsIn d.1 39 24) cert s3

/-- An hour of the warden timer. -/
def hourTicks : Nat := 360000000000

/-- One more marked tile; marks of more than an hour ago are dropped. -/
def addMark (t : Nat) (l : List (Nat × Nat)) : List (Nat × Nat) :=
  let k := l.filter (fun e => decide (t < e.1 + hourTicks))
  if k.any (fun e => e.1 = t) then k.map (fun e => if e.1 = t then (t, e.2 + 1) else e) else k ++ [(t, 1)]

/-- A tile of a partition whose marking is on is marked (R326, POWER.STATUS). -/
def markTile (p : Nat) (s : State) : State :=
  if (war s p).droop.marking then
    modW p (fun w => { w with droop := { w.droop with marks := addMark w.timer w.droop.marks, markEv := w.droop.markEv + 1 } }) s
  else s

/-- An original's verdict takes effect (Table 4.5, R107, R115, R117). -/
def judgeOriginal (p src e : Nat) (c : BitVec 128) (s : State) : State :=
  let v := certVerdict c
  let tid := certTid c
  let site := coreSite p src
  let marked := (war s p).droop.marking
  let s1 := markTile p (outUp p e (noteCore p e src s))
  let rc := if v = .poisoned then (false, s1)
    else replayCheck p e true tid (match v with | .metaFault => 4 | .malformed => 8 | _ => 0) 0 (certEvent p src e c v false) s1
  if rc.1 then rc.2
  else
    let s2 := rc.2
    match v with
    | .poisoned => poisonEpoch p e site tid 1 s2
    | .metaFault =>
      noteFirst p { epoch := e, core := true, unit := src, id := tid, rslt := 4, data := 0, row := 1, attempt := attemptOf (war s2 p) e }
        (failTally p e fkCert site (certEvent p src e c v false s2))
    | .unchecked => outDown p e (drawTile p src e c true marked s2)
    | .clean => outDown p e (drawTile p src e c false marked s2)
    | _ =>
      openTriage p { kind := 1, tid, epoch := e, o := src, sigO := certSig c, o2 := { core := src }, check := certCheck v, dev := certDev c, cert := c }
        (failTriage p e tid fkCert site (certEvent p src e c v false s2))

/-- The original of a pending or triage entry that holds a tile of an epoch (R128). -/
def tileHolder (w : Warden) (e tid : Nat) : Option Nat :=
  match w.pend.find? (fun x => x.epoch = e && x.tid = tid) with
  | some x => some x.orig
  | none => ((w.triages ++ w.triWait).find? (fun t => t.kind ≠ 2 && t.epoch = e && t.tid = tid)).map (·.o)

/-- An original certificate reaches its warden. -/
def originalAt (p g src e : Nat) (c : BitVec 128) (s : State) : State :=
  if !hearsFrom s p g src then s
  else
    settleReport p (withTally p e (fun s =>
      let site := coreSite p src
      if isWithdrawn s p src then failTally p e fkWithdrawn site s
      else
        match tileHolder (war s p) e (certTid c) with
        | some o => failTally p e fkDup site (raiseW p (evAt evShadowTidDuplicate site
            [(4, e), (4, certTid c), (4, coreSite p o), (4, site), (1, flag (inReplay (war s p) e))]) s)
        | none => judgeOriginal p src e c s) s)

/-! ### Shadow certificates (R108, R127, R128, R133) -/

/-- A shadow mismatch: the event, the failure, the triage (R127). -/
def shadowMismatch (p : Nat) (x : Pend) (sig : BitVec 64) (s : State) : State :=
  let o := coreSite p x.orig
  let t := coreSite p x.target
  openTriage p { kind := 0, tid := x.tid, epoch := x.epoch, o := x.orig, s := x.target, sigO := x.sig, sigS := sig, o2 := { core := x.orig }, cert := x.cert }
    (failTriage p x.epoch x.tid fkShadow o
      (raiseW p (evAt evShadowMismatch o [(4, x.epoch), (4, x.tid), (4, o), (4, t), (8, x.sig.toNat), (8, sig.toNat),
        (1, flag (decide (x.orig / 32 = x.target / 32)))]) s))

/-- A shadow's certificate settles its pending entry. -/
def judgeShadow (p : Nat) (x : Pend) (c : BitVec 128) (s : State) : State :=
  let v := certVerdict c
  let s1 := certEvent p x.target x.epoch c v true (modW p (fun w => { w with pend := w.pend.erase x }) s)
  match v with
  | .poisoned =>
    selectMiss p x.epoch (x.orig / 32) 3 x.forced
      (poisonEvent p x.epoch (coreSite p x.target) x.tid 4 (outDown p x.epoch (shadowRelease p x.target x.tid s1)))
  | .clean | .unchecked =>
    if certSig c = x.sig then outDown p x.epoch (shadowRelease p x.target x.tid s1) else shadowMismatch p x (certSig c) s1
  | _ => shadowMismatch p x (certSig c) s1

/-- A run of a triage that awaits a certificate from a core. -/
def awaits (src : Nat) (r : Run) : Bool := decide (r.core = src) && r.ordered && r.got.isNone

/-- The triage whose run a certificate answers. -/
def triageFor (w : Warden) (e tid src : Nat) : Option Triage :=
  w.triages.find? (fun t => t.kind ≠ 2 && t.epoch = e && t.tid = tid &&
    (awaits src t.o2 || t.s2.any (awaits src) || t.t.any (awaits src)))

/-- The run of a triage on a core ends: what it gave, none where it counts as unequal. -/
def giveRun (src : Nat) (got : Option (BitVec 64)) (r : Run) : Run := if awaits src r then { r with got := some got } else r

def setRun (p : Nat) (t : Triage) (src : Nat) (got : Option (BitVec 64)) (s : State) : State :=
  modW p (fun w => { w with triages := w.triages.map (fun x => if x = t then
    { x with o2 := giveRun src got x.o2, s2 := x.s2.map (giveRun src got), t := x.t.map (giveRun src got) } else x) }) s

/-- Is S's shadow output area still to be captured: S repeats the tile while the capture of its output is not done (Table 5.1 step 2)? -/
def keepsArea (s : State) (t : Triage) (src : Nat) : Bool :=
  decide (t.kind = 0) && decide (t.s = src) && (capOf s t.cid).any (fun c => decide (c.stage < 3))

/-- A shadow certificate reaches its warden. -/
def shadowAt (p g src e : Nat) (c : BitVec 128) (s : State) : State :=
  if !hearsFrom s p g src then s
  else
    let tid := certTid c
    settleReport p (
      if isWithdrawn s p src then withTally p e (failTally p e fkWithdrawn (coreSite p src)) s
      else
        match (war s p).pend.find? (fun x => x.epoch = e && x.tid = tid && x.target = src) with
        | some x => judgeShadow p x c s
        | none =>
          match triageFor (war s p) e tid src with
          | some t =>
            let v := certVerdict c
            let s1 := certEvent p src e c v true (if keepsArea s t src then s else shadowRelease p src tid s)
            if v = .poisoned then setRun p t src none (poisonEvent p e (coreSite p src) tid 4 s1)
            else setRun p t src (some (certSig c)) s1
          | none => shadowRelease p src tid (modW p (fun w => { w with cnt := { w.cnt with orphan := w.cnt.orphan + 1 } }) s))

/-- Does the order of a shadow or a repeat on a core still wait to be dispatched, in its queue or in a droop window? -/
def undispatched (s : State) (p src tid : Nat) : Bool :=
  let w := war s p
  let mine := fun (d : Disp) => decide (d.tile = tid) &&
    (isRepeat src d || (decide (d.kind = 0) && decide (d.dst = srcOf (src / 32) ((slotOfPos s p (src / 32) (src % 32)).getD 0))))
  (dispQueue w (src / 1024)).any mine || w.heldW.any (fun x => match x with | .disp _ _ d => mine d | _ => false)

/-- 200 µs have passed since a shadow or a repeat was dispatched to a core (R129, R133): a limit that is suspended in a halted partition
(R389), and that does not run before the dispatch (Table 13.1). The event's second target is 0 where no core was found for it (DESIGN
CHOICE, log entry 153). -/
def shadowTimeoutAt (p src tid e : Nat) (s : State) : State :=
  if isHalted s p || undispatched s p src tid then s else
  match (war s p).pend.find? (fun x => x.epoch = e && x.tid = tid && x.target = src) with
  | some x =>
    let pl := if x.again then (none, s) else place p (x.orig / 1024) (x.orig / 32) [] [x.orig / 32] [x.orig] s
    match pl.1 with
    | some (d, near) =>
      shadowOrder p d tid x.marked (countPlaced p (x.orig / 32) near (modW p (fun w => { w with pend := w.pend.map (fun y =>
        if y = x then { y with target := d, again := true, at_ := w.timer } else y) }) pl.2))
    | none =>
      settleReport p (failTally p e fkTimeout (coreSite p x.orig)
        (raiseW p (evAt evShadowTimeout (coreSite p x.orig) [(4, e), (4, tid), (4, coreSite p x.orig), (4, coreSite p x.first),
          (4, if x.again then coreSite p x.target else 0)])
          (modW p (fun w => { w with pend := w.pend.erase x, cnt := { w.cnt with timeout := w.cnt.timeout + 1 } }) pl.2)))
  | none =>
    match triageFor (war s p) e tid src with
    | some t => settleReport p (setRun p t src none s)
    | none => s

/-! ### Loss strobes, poison notices, engine records (R53, R111 to R113, R117) -/

def certificateLossAt (p g e : Nat) (s : State) : State :=
  if !hearsPart s p || decide (20 ≤ g) then s
  else
    let s1 := withTally p e (lossEpoch p e) s
    let l := tget {} (war s1 p).lost g
    let t := (war s1 p).timer
    let put := fun (l : Lim) (s : State) => modW p (fun w => { w with lost := tset w.lost g l }) s
    if limDue t msTicks l then raiseW p (ev evCertLost [(2, p), (2, g), (4, e), (4, l.n + 1)]) (put { last := some t } s1)
    else put { l with n := l.n + 1 } s1

/-- A poison notice. It names no tile: EV_POISON_CONSUMED carries tile ID 0 (DESIGN CHOICE, log entry 144). -/
def poisonNoticeAt (p src e : Nat) (s : State) : State :=
  if !(srcOk src && hearsCore s p src) then s
  else
    withTally p e (fun s =>
      if isWithdrawn s p src then failTally p e fkWithdrawn (coreSite p src) s
      else poisonEpoch p e (coreSite p src) 0 2 s) s

def engKind (r : BitVec 128) : Nat := (r.extractLsb' 124 4).toNat
def engRslt (r : BitVec 128) : Nat := (r.extractLsb' 120 4).toNat
def engDev (r : BitVec 128) : Nat := (r.extractLsb' 116 4).toNat
def engDetail (r : BitVec 128) : Nat := (r.extractLsb' 112 4).toNat
def engOpid (r : BitVec 128) : Nat := (r.extractLsb' 64 32).toNat
def engData (r : BitVec 128) : Nat := (r.extractLsb' 0 64).toNat

/-- The event of a failed engine record. A record does not say whether CDC encoded or decoded: where the fault was seen is 0, not known
(R395, log entry 36). -/
def engEvent (p idx e : Nat) (r : BitVec 128) (s : State) : State :=
  let site := engineSite p idx
  if engRslt r = 4 then
    raiseW p (evAt evSparseMetaFault site [(4, site), (4, e), (4, engOpid r), (1, engDetail r), (8, engData r), (1, 0)]) s
  else
    raiseW p (evAt evEngineCheckFail site
      [(4, site), (4, e), (1, engKind r), (1, engRslt r), (1, engDetail r), (1, engDev r), (8, engData r)]) s

/-- A row of an operation with RSLT 0: an audit of one in 4,096 of EXP and NRM (R112), and a kernel draw where an attachment finds it
eligible (R178). -/
def engineRow (p idx e : Nat) (r : BitVec 128) (row : Nat) (s : State) : State :=
  let site := engineSite p idx
  let kind := engKind r
  let opid := engOpid r
  let s1 := if kind = 1 ∨ kind = 2 then
      let n := (war s p).rowCnt + 1
      if n = 4096 then auditItem p 4 site e opid r (modW p (fun w => { w with rowCnt := 0 }) s)
      else modW p (fun w => { w with rowCnt := n }) s
    else s
  let l := eligible (attachesOf s1 p kind e) s1
  if l.1 = [] then l.2
  else
    let d := drawGen p 20 l.2
    kernelItem p kind site e opid row (bitsIn d.1 39 24) r d.2

def engineRows (p idx e : Nat) (r : BitVec 128) (rows : Nat) (s : State) : State :=
  let s1 := modW p (fun w => { w with engOps := tadd w.engOps (engKind r) 1 }) s
  if engKind r = 1 ∨ engKind r = 2 ∨ engKind r = 5 then forEach (List.range rows) (engineRow p idx e r) s1 else s1

/-- An engine invariant that Touchstone judges: EXP and NRM invariants, RED floating point (Table 4.8). RSLT 1 of a kind whose recipe has
no invariant (GSX, CDC, DMA, RED) is judged as an invariant too (DESIGN CHOICE, log entry 152). -/
def isInvariant (r : BitVec 128) : Bool :=
  decide (engRslt r = 1) || (decide (engRslt r = 6) && decide (engKind r = 5) && decide (engDetail r = 3))

/-- The replayed operation of an engine triage: its row is captured, to be compared with the first (Table 4.8). -/
def replayedRow (p idx e : Nat) (r : BitVec 128) (s : State) : State :=
  match (war s p).triages.find? (fun t => t.kind = 2 && t.epoch = e && t.tid = engOpid r && t.cid2.isNone &&
      decide (t.attempt < attemptOf (war s p) e)) with
  | none => s
  | some t =>
    let q := requestCap p { kind := 2, site := engineSite p idx, epoch := e, id := engOpid r, row := t.sigO.toNat % 4294967296, cert := r } s
    modW p (fun w => { w with triages := w.triages.map (fun x => if x = t then
      { x with cid2 := some q.1, sigS := w64 (engData r) } else x) }) q.2

/-- An engine's check record reaches its warden. -/
def engineRecordAt (p idx e : Nat) (r : BitVec 128) (rows : Nat) (s : State) : State :=
  if !hearsPart s p || !okSite s (engineSite p idx) then s
  else
    settleReport p (withTally p e (fun s0 =>
      let s := outUp p e s0
      let site := engineSite p idx
      if engKind r = 0 ∨ 6 < engKind r ∨ 7 < engRslt r ∨ (r.extractLsb' 96 16) ≠ 0 then
        let rc := replayCheck p e false (engOpid r) 8 (engData r) id s
        failTally p e fkCert site (raiseW p (evAt evCertMalformed site [(4, site), (4, e), (16, r.toNat)]) rc.2)
      else
        let rc := if engRslt r = 7 then (false, s) else replayCheck p e false (engOpid r) (engRslt r) (engData r) (engEvent p idx e r) s
        if rc.1 then rc.2
        else
          let s1 := replayedRow p idx e r rc.2
          if engRslt r = 0 then outDown p e (engineRows p idx e r rows s1)
          else if engRslt r = 7 then poisonEpoch p e site (engOpid r) 3 s1
          else
            let s2 := failTally p e fkCert site (engEvent p idx e r s1)
            let a := attemptOf (war s2 p) e
            if isInvariant r then
              if (war s2 p).triages.any (fun t => t.kind = 2 && t.epoch = e && t.tid = engOpid r) then s2
              else
                openTriage p { kind := 2, tid := engOpid r, epoch := e, o := idx, sigO := w64 (engData r),
                               o2 := { core := idx, ordered := false }, check := 4, dev := engDev r, cert := r, attempt := a } s2
            else
              noteFirst p { epoch := e, core := false, unit := idx, id := engOpid r, rslt := engRslt r, data := engData r,
                            row := if engRslt r = 3 ∨ engRslt r = 4 then 1 else 0, attempt := a } s2) s)

/-! ### The fraction (R89, R121) -/

/-- A governor value reaches the warden. -/
def fractionUpdateAt (p c : Nat) (s : State) : State :=
  match takeMsg (fun m => match m with | .frac q k n => if q = p ∧ k = c then some n else none | _ => none) s with
  | none => s
  | some (n, s1) =>
    modW p (fun w => { w with
      frac := tset w.frac c n
      valProb := if inProbation s p c then insertOnce w.valProb c else w.valProb.filter (· ≠ c) }) s1

/-! ### The rows -/

def execCertificate (p g : Nat) (src : BitVec 15) (epoch : BitVec 32) (cert : BitVec 128) (s : State) : Res0 :=
  nextOf s (originalAt p g src.toNat epoch.toNat cert s)
def execShadowCertificate (p g : Nat) (src : BitVec 15) (epoch : BitVec 32) (cert : BitVec 128) (s : State) : Res0 :=
  nextOf s (shadowAt p g src.toNat epoch.toNat cert s)
def execShadowTimeout (p : Nat) (dst : BitVec 15) (tid epoch : BitVec 32) (s : State) : Res0 :=
  nextOf s (shadowTimeoutAt p dst.toNat tid.toNat epoch.toNat s)
def execCertificateLoss (p g : Nat) (epoch : BitVec 32) (s : State) : Res0 := nextOf s (certificateLossAt p g epoch.toNat s)
def execEngineRecord (p : Nat) (idx : BitVec 7) (epoch : BitVec 32) (rec : BitVec 128) (rows : Nat) (s : State) : Res0 :=
  nextOf s (engineRecordAt p idx.toNat epoch.toNat rec rows s)
def execPoisonNotice (p : Nat) (src : BitVec 15) (epoch : BitVec 32) (s : State) : Res0 :=
  nextOf s (poisonNoticeAt p src.toNat epoch.toNat s)
def execFractionUpdate (p cluster : Nat) (s : State) : Res0 := nextOf s (fractionUpdateAt p cluster s)

end Sys2Proof.Machine
end

