-- ==== Sys2Proof/Machine/Samples.lean ====
section
/-! DEFINITION. Captures and samples of Touchstone (R144, R150 to R161, R170 to R184, R468): allocation, the capture as the
warden builds it, the choice of work at a cell, verdicts, and check kernels' reports. -/

namespace Sys2Proof.Machine
open Sys2Proof

/-! ### Capture store (R152, R153) -/

/-- The cells of a hub may run. -/
def hubUp (s : State) (h : HubId) : Bool := decide ((hubOf s h).role ≠ .down) && decide ((hubOf s h).role ≠ .starting)

/-- Pages kept for a request until its size is known: those of the largest capture of its class (log entry 18). -/
def askPages (kind : Nat) : Nat := if classOf kind = 2 then capPages (262144 - 64) else capPages 1048576

/-- Pages taken from or given back to an area. -/
def takePages (kind : Nat) (h : HubId) (f : Nat → Nat) (s : State) : State :=
  modTst (fun t =>
    if classOf kind = 0 then { t with arbPages := f t.arbPages }
    else match h with | .a => { t with shPagesA := f t.shPagesA } | .b => { t with shPagesB := f t.shPagesB }) s

/-- The hub whose area has room for a request: the serving hub, and a Secondary only where that has none (DESIGN CHOICE, log entry 154). -/
def roomAt (s : State) (kind : Nat) : Option HubId :=
  match serving s with
  | none => none
  | some h =>
    let n := askPages kind
    let used := fun (h : HubId) => match h with | .a => s.tst.shPagesA | .b => s.tst.shPagesB
    if classOf kind = 0 then (if s.tst.arbPages + n ≤ 4096 then some h else none)
    else if used h + n ≤ 8192 then some h
    else if (hubOf s (other h)).role = .secondary ∧ used (other h) + n ≤ 8192 then some (other h)
    else none

/-- Grant a request: pages, TIME, and the answer with CID and hub. The pages are zeros when they are allocated (R359): the body is empty, and a
byte of it that nothing has written reads 0 (`slice`). -/
def grantCap (cid : Nat) (c : Capture) (h : HubId) (s : State) : State :=
  send (.grant c.warden cid)
    (modCap cid (fun c => { c with stage := 1, hub := h, time := now s, pages := askPages c.kind, body := [], asked := false })
      (takePages c.kind h (· + askPages c.kind) s))

/-- The first asked for of some captures. -/
def firstAsked (l : List (Nat × Capture)) : Option (Nat × Capture) :=
  l.foldl (fun (b : Option (Nat × Capture)) x => match b with | none => some x | some y => if x.2.time < y.2.time then some x else b) none

/-- Requests that wait are granted in order of arrival while there is room: arrival order holds within each tenant's kernel requests, and
among the tenants too (DESIGN CHOICE, log entry 155). -/
def grantMore : Nat → State → State
  | 0, s => s
  | n + 1, s =>
    let ready := s.tst.caps.filter (fun e => e.2.asked && (roomAt s e.2.kind).isSome)
    match firstAsked ready with
    | none => s
    | some (cid, c) => match roomAt s c.kind with | some h => grantMore n (grantCap cid c h s) | none => s

/-- A capture is gone: its pages are free, and its warden has it no longer in progress. -/
def freeCap (cid : Nat) (s : State) : State :=
  match capOf s cid with
  | none => s
  | some c =>
    let s1 := modTst (fun t => { t with caps := tdel t.caps cid }) (takePages c.kind c.hub (· - c.pages) s)
    grantMore 16 (modW c.warden (fun w => { w with
      auditCap := if w.auditCap = some cid then none else w.auditCap, caps := w.caps.filter (· ≠ cid) }) s1)

/-- The disagreement of a capture's triage has reached the Primary, whose 10 ms begin (R156). -/
def noteReach (p cid : Nat) (s : State) : State :=
  modW p (fun w => { w with triages := w.triages.map (fun t => if t.cid = cid then { t with reach := some (now s) } else t) }) s

/-- A request reaches the Primary: granted, kept waiting behind those that wait, or refused (R153). -/
def captureAllocAt (p cid : Nat) (s0 : State) : State :=
  match serving s0, capOf s0 cid with
  | some h, some c =>
    if c.warden ≠ p ∨ c.stage ≠ 0 ∨ c.asked then s0
    else
      let s := noteReach p cid s0
      match (if s0.tst.caps.any (fun e => e.2.asked && decide (classOf e.2.kind = classOf c.kind)) then none else roomAt s0 c.kind) with
      | some k => grantCap cid c k s
      | none =>
        if classOf c.kind = 1 then freeCap cid (auditDrop h 1 s)
        else modCap cid (fun c => { c with asked := true, time := now s }) s
  | _, _ => s0

/-- The answer reaches the warden, which orders the capture from the producer. -/
def captureGrantAt (p cid : Nat) (s : State) : State :=
  if inFlight (.grant p cid) s then
    match capOf s cid with
    | some c => if (war s p).alive then drive (.capture p c.site c.id) (modCap cid (fun c => { c with stage := 2 }) (recv (.grant p cid) s)) else recv (.grant p cid) s
    | none => recv (.grant p cid) s
  else s

/-! ### Sparse metadata at the capture store (R114 to R116) -/

/-- B of a compressed tile: 1 to 4,096 blocks, as many as the hardware's block shape gives. -/
def tileBlocks (rows cols : Nat) : Nat := min 4096 (max 1 (Config.sparseBlocks rows cols))

/-- The first failing check of a section of B blocks, with DATA. -/
def sparseFault (b : Nat) (sec : List Byte) : Option (Nat × Nat) :=
  let bb := (b + 7) / 8
  let n := fieldAt sec bb 2
  let bits := leNat (slice sec 0 bb)
  let pop := ((List.range b).filter (fun i => bits.testBit i)).length
  let idx := fun (i : Nat) => fieldAt sec (bb + 2 + 2 * i) 2
  let data := fun (i : Nat) => n * 2 ^ 48 + pop * 2 ^ 32 + i * 2 ^ 16 + idx i
  let first := fun (f : Nat → Bool) => (List.range n).find? f
  if pop ≠ n then some (1, n * 2 ^ 48 + pop * 2 ^ 32)
  else match first (fun i => decide (0 < i) && decide (idx i ≤ idx (i - 1))) with
    | some i => some (2, data i)
    | none => match first (fun i => decide (b ≤ idx i)) with
      | some i => some (3, data i)
      | none => match first (fun i => !bits.testBit (idx i)) with
        | some i => some (4, data i)
        | none => none

/-- Bytes of a compressed section of B blocks whose dense form has `dense` bytes. -/
def sparseLen (b dense : Nat) (sec : List Byte) : Nat :=
  (b + 7) / 8 + 2 + fieldAt sec ((b + 7) / 8) 2 * (2 + dense / max 1 b)

/-! ### The header the warden builds (R150, R151, R180, R468) -/

def preField (w : BitVec 256) (hi lo : Nat) : Nat := w.toNat / 2 ^ lo % 2 ^ (hi - lo + 1)

/-- A capture's header from its preamble and descriptor. A kernel's engine row has M and N 1 (R180). -/
def layHead (c : Capture) (pre : BitVec 256) (d : Option Desc) (inputs : Bool) : Capture :=
  let k := preField pre 71 40
  let row := decide (c.kind = 5) && isEngineSite c.site
  { c with
    ndi := preField pre 7 0, rows := if row then 1 else preField pre 23 8, cols := if row then 1 else preField pre 39 24, k
    fmta := (d.map (·.fmta)).getD 0, fmtb := (d.map (·.fmtb)).getD 0, out := (d.map (·.out)).getD 0
    flags := (if pre.getLsbD 73 && inputs then 2 else 0) + (if pre.getLsbD 74 then 4 else 0) +
      (if c.kind = 0 then 8 else 0) + (if pre.getLsbD 72 && inputs then 16 else 0) }

/-- Section lengths where the stream's length is the one the sections require; none where the capture is not taken. Table 6.8 has no bit
for a dense-held stream (R116): with SPARSE 1 the first input is the compressed one, and it is held dense where the stream has the
length of the dense sections and not of the compressed ones (PRESUMED, log entry 18). -/
def laySections (c : Capture) (d : Desc) (inputs : Bool) (body : List Byte) : Option Capture :=
  let leno := tySize c.out * outCount c d
  let rest := biasLen c d + (if c.flags.testBit 3 then 2 else 1) * leno
  let fit := fun (a b fl : Nat) => if a + b + rest = body.length then some { c with lena := a, lenb := b, leno, flags := c.flags + fl } else none
  if !inputs then fit 0 0 0
  else if isRow c d then
    if d.kind = 5 then
      let a := body.length - rest
      if 0 < a ∧ (elemsIn c.fmta a).any (fun e => decide (e % max 1 c.k = 0)) then fit a 0 0 else none
    else fit (sectLen c.fmta c.k) 0 0
  else
    let a := sectLen c.fmta (c.rows * c.k)
    let b := sectLen c.fmtb (c.k * c.cols)
    if c.flags.testBit 1 then
      let z := sparseLen (tileBlocks c.rows c.k) a body
      match (if z ≤ a then fit z b 0 else none) with
      | some x => some x
      | none => fit a b 1
    else fit a b 0

/-- The descriptor that stands in for one that is not registered: formats 0 (R468). -/
def noDesc (c : Capture) : Desc :=
  { kind := if c.kind = 5 && isEngineSite c.site then 1 else 0, fmta := 0, fmtb := 0, out := 0, acc := 0, prd := false, ftzi := false
    ftz := false, bias := false, sat := false, l := 0, tree := 0, xr := 0, ef := 0, rqs := 0, rqr := 0, rqw := 0, eps := 0 }

/-- The sections of a capture whose NDI names no descriptor: those of formats 0 where the stream has their length, else those that M, N and
K give; a stream that cannot be compressed, because its head is no valid metadata, is then held dense (R116; PRESUMED, log entry
18). -/
def layPlain (x : Capture) (inputs : Bool) (body : List Byte) : Capture :=
  match laySections x (noDesc x) inputs body with
  | some y => y
  | none =>
    let row := isRow x (noDesc x)
    { x with
      lena := if inputs then x.rows * x.k else 0, lenb := if inputs && !row then x.k * x.cols else 0
      leno := tySize 0 * outCount x (noDesc x)
      flags := x.flags + (if x.flags.testBit 1 && (sparseFault (tileBlocks x.rows x.k) body).isSome then 1 else 0) }

/-- The capture as it is streamed: none where it is not taken. A capture whose NDI names no descriptor is taken as it
comes. -/
def layCapture (c : Capture) (pre : BitVec 256) (d : Option Desc) (inputs : Bool) (body : List Byte) : Option Capture :=
  let x := layHead c pre d inputs
  if pre.getLsbD 75 || decide (preField pre 255 76 ≠ 0) then none
  else match d with
    | none => some { layPlain x inputs body with body }
    | some ds => (laySections x ds inputs body).map (fun y => { y with body })

/-! ### Verdicts without judgement (R156) -/

/-- EV_TSTONE_NO_VERDICT. -/
def noVerdictEv (cid : Nat) (c : Capture) (cause : Nat) (s : State) : State :=
  raise (evAt evTstoneNoVerdict c.site [(4, cid), (1, c.kind), (4, c.site), (4, c.epoch), (1, cause)]) s

/-- A verdict for a triage's capture; a second one is ignored (R161). -/
def giveVerdict (p cid : Nat) (v : List Judged) (cap : Option Capture) (limit : Bool) (s : State) : State :=
  modW p (fun w => { w with triages := w.triages.map (fun t =>
    if t.cid = cid then { t with verd := if t.verd.isNone then some v else t.verd, cap := if t.verd.isNone then cap else t.cap,
                                 limit := t.limit || limit } else t) }) s

/-- The second row of an engine triage cannot be compared, or is (Table 4.8). -/
def secondRow (p cid : Nat) (row : Option (List Byte)) (s : State) : State :=
  modW p (fun w => { w with triages := w.triages.map (fun t =>
    if t.kind = 2 ∧ t.cid2 = some cid then
      { t with o2 := { t.o2 with got := some (if row = some t.row1 then some t.sigO else none) } }
    else t) }) s

/-- Is the capture the second row of an engine triage? -/
def isSecond (s : State) (p cid : Nat) : Bool := (war s p).triages.any (fun t => t.kind = 2 && t.cid2 = some cid)

/-- A capture that is not taken (R468, R179, R153). An audit or kernel capture not taken for UNAVAIL, a reserved bit or its length has the
cause of one that is too large (DESIGN CHOICE, log entry 156). -/
def notTaken (p cid : Nat) (c : Capture) (s : State) : State :=
  match classOf c.kind with
  | 0 =>
    if isSecond s p cid then settleReport p (freeCap cid (secondRow p cid none s))
    else settleReport p (giveVerdict p cid [{ code := 2, cause := 4 }] none false (freeCap cid (noVerdictEv cid c 4 s)))
  | 1 => freeCap cid (auditDrop c.hub 3 s)
  | _ => freeCap cid (kernelDrop p c.att 2 s)

/-- The shadow output area of a mismatch's S is released (R132). -/
def releaseS (p : Nat) (c : Capture) (s : State) : State := if c.kind = 0 then shadowRelease p (siteSrc c.site2) c.id s else s

/-- The failed verdict of a producer whose compressed tile fails at the capture store (R115): a checksum failure of the core, which R94
classifies with the certificate's own signature, or a round-trip mismatch of the engine, which its replay classifies. It reports to its
epoch's tally, which it opens where it has closed. The tile of a certificate failure's triage is under R94 already: its sample ends in no
verdict, and that triage judges it (DESIGN CHOICE, log entry 141). -/
def producerFault (p : Nat) (c : Capture) : State → State := withTally p c.epoch (fun s =>
  if isCoreSite c.site then
    let o := siteSrc c.site
    let s1 := certEvent p o c.epoch c.cert .checksum false s
    if c.kind = 1 then failTally p c.epoch fkCert c.site s1
    else
      openTriage p { kind := 1, tid := c.id, epoch := c.epoch, o, sigO := certSig c.cert, o2 := { core := o }, check := 3, dev := certDev c.cert
                     cert := c.cert } (failTriage p c.epoch c.id fkCert c.site s1)
  else
    noteFirst p { epoch := c.epoch, core := false, unit := siteIdx c.site, id := c.id, rslt := 5, data := 0, row := 0, attempt := attemptOf (war s p) c.epoch }
      (failTally p c.epoch fkCert c.site (raiseW p (evAt evEngineCheckFail c.site
        [(4, c.site), (4, c.epoch), (1, engKind c.cert), (1, 5), (1, 5), (1, 0), (8, 0)]) s)))

/-- A compressed tile whose metadata its producer reported valid fails at the capture store: the event, the producer's failure, and the
capture abandoned with no metadata written (R115). -/
def storeFault (p cid : Nat) (c : Capture) (detail data : Nat) (s : State) : State :=
  let s1 := producerFault p c
    (raiseW p (evAt evSparseMetaFault c.site [(4, c.site), (4, c.epoch), (4, c.id), (1, detail), (8, data), (1, 4)]) s)
  if classOf c.kind = 0 then notTaken p cid c (releaseS p c s1) else settleReport p (freeCap cid s1)

/-! ### Streaming (R468, R178 to R180) -/

/-- The attachments of a kernel capture that its preamble's index passes, ascending, as they stood when the item was selected (R177,
R182). -/
def passing (c : Capture) (ndi : Nat) : List (Nat × Attach) := c.cands.filter (attachAdmits ndi)

/-- The stored capture: pages cut to its size, its CRC formed, on its way to the store. -/
def storeCap (p cid : Nat) (c : Capture) (s : State) : State :=
  let n := capPages c.body.length
  let s1 := takePages c.kind c.hub (fun k => k - c.pages + n) s
  let s2 := modCap cid (fun _ => { c with stage := 3, pages := n, crc := capCrc cid c c.body }) s1
  releaseS p c (grantMore 16 (send (.capture cid) s2))

/-- The metadata section of a compressed capture: the first input, whose length a capture without a descriptor does not give. -/
def metaSection (c : Capture) (known : Bool) : List Byte := if known then slice c.body 0 c.lena else c.body

/-- A capture whose attachment is settled, or that needs none. -/
def streamInto (p cid : Nat) (c : Capture) (pre : BitVec 256) (inputs : Bool) (body : List Byte) (s : State) : State :=
  let d := if c.jobv then descOf s c.job (preField pre 7 0) else none
  let lim := if classOf c.kind = 2 then 262144 - 64 else 1048576
  match layCapture c pre d inputs body with
  | none => notTaken p cid c (releaseS p c s)
  | some x =>
    if lim < body.length then notTaken p cid c (releaseS p c s)
    else
      match (if x.flags.testBit 1 && !x.flags.testBit 0 then sparseFault (tileBlocks x.rows x.k) (metaSection x d.isSome) else none) with
      | some (detail, data) => storeFault p cid x detail data s
      | none =>
        if c.kind = 2 then
          let row := x.body.drop x.lena
          if isSecond s p cid then settleReport p (freeCap cid (secondRow p cid (some row) s))
          else storeCap p cid x (modW p (fun w => { w with triages := w.triages.map (fun t => if t.cid = cid then { t with row1 := row } else t) }) s)
        else storeCap p cid x s

/-- wcl_cap_ready of a warden: a capture of its has been granted, and its stream has not come (R52). -/
def capReady (s : State) (p : Nat) : Bool := (war s p).alive && s.tst.caps.any (fun e => decide (e.2.warden = p) && decide (e.2.stage = 2))

/-- A capture's stream, which the warden's ready lets in. -/
def captureStreamAt (p cid : Nat) (pre : BitVec 256) (body : List Byte) (s : State) : State :=
  match capOf s cid with
  | none => s
  | some c =>
    if !capReady s p || decide (c.warden ≠ p) || decide (c.stage ≠ 2) then s
    else if c.kind ≠ 5 then streamInto p cid c pre true body s
    else
      match passing c (preField pre 7 0) with
      | [] => freeCap cid s
      | x :: more =>
        let inputs := ((tfind s.tst.kernels x.2.slot).map (·.inputs)).getD false
        streamInto p cid { c with att := x.1, slot := x.2.slot, tenant := x.2.tenant, cands := [x] } pre inputs body
          (modCnt c.hub (fun k => { k with coll := k.coll + more.length }) s)

/-! ### The choice of work (R155) -/

/-- The share A in force. -/
def shareOf (s : State) : Nat := s.tst.share.getD s.boot.profile.audit

/-- The oldest of some waiting samples. -/
def oldestCap (l : List (Nat × Capture)) : Option Nat :=
  (l.foldl (fun (b : Option (Nat × Capture)) x => match b with | none => some x | some y => if x.2.doneAt < y.2.doneAt then some x else b) none).map (·.1)

/-- Samples that wait for a cell of a hub, by class; arbitration on either hub. -/
def waitingAt (s : State) (h : HubId) (cls : Nat) : List (Nat × Capture) :=
  s.tst.caps.filter (fun e => decide (e.2.stage = 4) && decide (classOf e.2.kind = cls) && (decide (cls = 0) || decide (e.2.hub = h)))

/-- The next tenant of a round robin. -/
def nextTenant (last : Nat) (l : List Nat) : Option Nat :=
  match (l.filter (fun t => decide (last < t))).min? with
  | some t => some t
  | none => l.min?

/-- What a decision point chooses. -/
inductive Pick where
  | keep
  | take (cid : Nat)
  | idle

/-- The samples that wait for a cell, by class: not one that a disagreement of its residue took from it (R144, R168). -/
def waitingFor (s : State) (key cls : Nat) : List (Nat × Capture) := (waitingAt s (cellHub key) cls).filter (fun e => decide (e.2.notCell ≠ some key))

/-- The choice of R155 at a cell. -/
def pickWork (s : State) (key : Nat) : Pick :=
  let x := cellOf s key
  let run := x.work
  let running := fun (cls : Nat) => run.any (fun w => decide (w.cls = cls))
  if running 0 then .keep
  else
    match oldestCap (waitingFor s key 0) with
    | some cid => .take cid
    | none =>
      let aud : Option Pick := if running 1 then some .keep else (oldestCap (waitingFor s key 1)).map .take
      let wk := waitingFor s key 2
      let own := match run with | some w => if w.cls = 2 then [w.tenant] else [] | none => []
      let ker : Option Pick :=
        match nextTenant x.lastTen (own ++ wk.map (fun e => e.2.tenant)) with
        | none => none
        | some t => if own = [t] then some .keep else (oldestCap (wk.filter (fun e => e.2.tenant = t))).map .take
      let first := if x.pos < shareOf s then aud else ker
      let second := if x.pos < shareOf s then ker else aud
      match first, second with
      | some k, _ => k
      | none, some k => k
      | none, none => if run.isSome then .keep else .idle

/-- Audit samples that wait in a hub. -/
def auditsWaiting (s : State) (h : HubId) : Nat := ((waitingAt s h 1).filter (fun e => decide (e.2.hub = h))).length

/-- The most audit samples that waited in a hub in the governor period (R157), looked at whenever one begins to wait. -/
def noteWait (h : HubId) (s : State) : State :=
  let n := auditsWaiting s h
  modTst (fun t => match h with | .a => { t with waitA := max t.waitA n } | .b => { t with waitB := max t.waitB n }) s

/-- The running sample is saved to its context area and waits again. -/
def suspendWork (key : Nat) (s : State) : State :=
  match (cellOf s key).work with
  | none => s
  | some w => modCell key (fun x => { x with work := none }) (modCap w.cid (fun c => { c with stage := 4, susp := some (w.k, w.desc) }) s)

/-- A hub's copy of a capture. -/
def capCopy (c : Capture) (h : HubId) : Option (List Byte) := if h = c.hub then some c.body else c.copy2

/-- The copy that a cell of a hub loads: its hub's, or the other hub's where the CRC of that fails; none where every copy fails (R151). -/
def loadable (cid : Nat) (c : Capture) (h : HubId) : Option (List Byte) :=
  [capCopy c h, capCopy c (other h)].findSome? (fun b => b.filter (fun b => decide (capCrc cid c b = c.crc)))

/-- A cell starts or resumes a sample, from the copy it loaded. -/
def startWork (key cid : Nat) (c : Capture) (body : List Byte) (s : State) : State :=
  let w : Work := match c.susp with
    | some (k, d) => { cid, cls := classOf c.kind, tenant := c.tenant, k, desc := d }
    | none => { cid, cls := classOf c.kind, tenant := c.tenant, desc := if c.jobv then descOf s c.job c.ndi else none }
  modCell key (fun x => { x with work := some w, lastTen := if w.cls = 2 then w.tenant else x.lastTen })
    (modCap cid (fun c => { c with stage := 5, susp := none, body }) s)

/-- May a cell take work? The Primary assigns it. -/
def cellReady (s : State) (key : Nat) : Bool :=
  decide ((cellOf s key).state = 0) && decide ((cellOf s key).kat = 0) && hubUp s (cellHub key) && (serving s).isSome

/-- Verdicts counted by code. -/
def countVerdicts (h : HubId) (v : List Judged) (s : State) : State :=
  forEach v (fun j s => modCnt h (fun k => match j.code with
    | 0 => { k with verd0 := k.verd0 + 1 } | 1 => { k with verd1 := k.verd1 + 1 } | _ => { k with verd2 := k.verd2 + 1 }) s) s

/-- The verdict leaves for the warden. -/
def sendVerdict (h : HubId) (cid : Nat) (c : Capture) (v : List Judged) (s : State) : State :=
  send (.verdict c.warden cid)
    (modTst (fun t => { t with verdicts := tset t.verdicts cid v })
      (modCap cid (fun c => { c with stage := 6, susp := none }) (countVerdicts h v s)))

/-- A sample ends in no verdict without being judged (R156). -/
def endUnjudged (h : HubId) (cid : Nat) (c : Capture) (cause : Nat) (s : State) : State :=
  sendVerdict h cid c [{ code := 2, cause }] (noVerdictEv cid c cause s)

/-- A decision point of a cell, which chooses again after each of up to n samples whose CRC fails in every copy. -/
def decideN (key : Nat) : Nat → State → State
  | 0, s => s
  | n + 1, s =>
    if !cellReady s key then s
    else
      match pickWork s key with
      | .keep => match (cellOf s key).work with
        | some w => if w.cls = 2 then modCell key (fun x => { x with lastTen := w.tenant }) s else s
        | none => s
      | .take cid =>
        match capOf s cid with
        | none => s
        | some c =>
          match loadable cid c (cellHub key) with
          | some b => noteWait (cellHub key) (startWork key cid c b (suspendWork key s))
          | none => decideN key n (endUnjudged (cellHub key) cid c 4 s)
      | .idle => s

/-- A decision point of a cell. -/
def decideCell (key : Nat) (s : State) : State := decideN key (s.tst.caps.length + 1) s

/-- Is a cell idle with work to take? -/
def cellIdle (s : State) (key : Nat) : Bool :=
  cellReady s key && (cellOf s key).work.isNone && (match pickWork s key with | .take _ => true | _ => false)

/-- The cells of both hubs, those of one first. -/
def cellsFrom (h : HubId) : List Nat := (List.range 16).map (cellKey h) ++ (List.range 16).map (cellKey (other h))

/-- An idle cell takes a sample that has begun to wait: the serving hub's cells first for arbitration. -/
def offerCells (h : HubId) (s : State) : State :=
  match (cellsFrom h).find? (cellIdle s) with
  | some k => decideCell k s
  | none => s

/-- Every idle cell takes what waits, and the requests that wait for room are looked at: a hub took over, or its peer was lost (R137,
R161). -/
def offerAll (s : State) : State :=
  forEach (cellsFrom ((serving s).getD .a)) (fun k s => if cellIdle s k then decideCell k s else s) (grantMore 64 s)

/-- The other hub's copy of an arbitration capture, where that hub is up (R152). -/
def secondCopy (s : State) (c : Capture) : Option (List Byte) :=
  if classOf c.kind = 0 && hubUp s (other c.hub) then some c.body else none

/-- A capture stands whole in the store (R154). -/
def captureCompleteAt (cid : Nat) (s : State) : State :=
  if inFlight (.capture cid) s then
    match capOf s cid with
    | none => recv (.capture cid) s
    | some c =>
      let s1 := noteWait c.hub (modCap cid (fun c => { c with stage := 4, doneAt := now s, copy2 := secondCopy s c }) (recv (.capture cid) s))
      offerCells (if classOf c.kind = 0 then (serving s).getD .a else c.hub)
        (modW c.warden (fun w => { w with
          auditCap := if w.auditCap = some cid then none else w.auditCap, caps := w.caps.filter (· ≠ cid) }) s1)
  else s

/-- A quantum is counted, and the cycle moves on unless arbitration had it. -/
def countQuantum (key : Nat) (s : State) : State :=
  match (cellOf s key).work with
  | none => s
  | some w =>
    let s1 := modCnt (cellHub key) (fun k => match w.cls with
      | 0 => { k with quanta0 := k.quanta0 + 1 }
      | 1 => { k with quanta1 := k.quanta1 + 1 }
      | _ => { k with quanta2 := k.quanta2 + 1, tenQuanta := tadd k.tenQuanta w.tenant 1 }) s
    if w.cls = 0 then s1 else modCell key (fun x => { x with pos := (x.pos + 1) % 8 }) s1

def quantumEndAt (key : Nat) (s : State) : State :=
  match (cellOf s key).work with
  | none => s
  | some w => if w.cls = 2 ∧ w.k.status ≠ .running then s else decideCell key (countQuantum key s)

/-! ### Samples end (R156 to R159, R170, R171, R183, R184) -/

/-- The job field of a capture on an event. -/
def withJob (c : Capture) (e : Ev) : Ev := { e with jobv := c.jobv, job := c.job, tenant := c.tenant }

/-- An observed escape (R159, R184): the event, the evidence, and a producing core's test at once. -/
def escape (c : Capture) (layer : Nat) (s : State) : State :=
  let s1 := moreEvid c.site (charge c.site (raise (withJob c (evAt evEscape c.site [(4, c.site), (4, c.epoch), (2, c.obj), (1, layer), (1, 0)])) s))
  if layer = 1 ∧ isCoreSite c.site then makeUrgent (sitePart c.site) (siteSrc c.site) s1 else s1

/-- What an audit judged, for the governor (R157). -/
def auditJudged (c : Capture) (v : List Judged) (s : State) : State :=
  match unitOf c.site with
  | none => s
  | some u =>
    if noVerdict v then s
    else { s with gov := { s.gov with auditN := tmod [] s.gov.auditN u (fun l =>
      insertOnce l (c.site * 2 ^ 64 + c.epoch * 2 ^ 32 + c.id)) } }

/-- An arbitration or audit sample is judged. -/
def endJudged (h : HubId) (cid : Nat) (c : Capture) (d : Option Desc) (s : State) : State :=
  let v := judgeCapture d cid c
  let s1 := if noVerdict v then noVerdictEv cid c (((v.find? (fun j => j.code = 2)).map (·.cause)).getD 0) s else s
  let s2 := if classOf c.kind = 1 then auditJudged c v s1 else s1
  let s3 := if classOf c.kind = 1 && outOfBound v 0 then escape c 1 s2 else s2
  sendVerdict h cid c v s3

/-- A kernel sample ends at HALT or by a trap. -/
def endKernel (h : HubId) (cid : Nat) (c : Capture) (k : KState) (s : State) : State :=
  let trap := match k.status with | .trapped x => x | _ => 0
  let code := if trap ≠ 0 then 2 else if k.finds = [] ∧ k.lost = 0 then 0 else 1
  let report := decide (code = 1) || (decide (code = 2) && decide (k.finds ≠ []))
  let s1 := if trap = 0 then s
    else raise (withJob c (evAt evKernelFault c.site [(2, c.slot), (2, c.att), (4, cid), (1, trap), (2, k.pc.toNat), (4, k.steps.toNat)])) s
  let f0 : Finding := (k.finds.head?).getD { code := 0, index := 0, value := 0, limit := 0 }
  let s2 := if !report then s1
    else raise (withJob c (evAt evKernelFinding c.site [(2, c.slot), (2, c.att), (1, code), (4, cid), (4, c.epoch), (4, c.id), (4, c.row),
      (4, k.finds.length), (4, k.lost), (1, flag (decide (trap ≠ 0))), (2, f0.code.toNat), (4, f0.index.toNat)])) s1
  let s3 := if !report then s2
    else
      let r : KResult := {
        cid, verdict := code, cause := trap, finds := k.finds, isPartial := decide (trap ≠ 0), lost := k.lost
        job := c.job, tenant := c.tenant, epoch := c.epoch, id := c.id, row := c.row, slot := c.slot, att := c.att }
      modTst (fun t => { t with results := lastN 512 (t.results ++ [r]) }) s2
  let may := (tfind s3.tst.kernels c.slot).any (fun x => x.charge && x.chargeOk)
  let s4 := if report && may then escape c 2 s3 else s3
  sendVerdict h cid c [{ code, cause := trap }] s4

/-- A cell finishes its sample: its quantum ends with it. -/
def sampleDoneAt (key : Nat) (s : State) : State :=
  match (cellOf s key).work with
  | none => s
  | some w =>
    match capOf s w.cid with
    | none => s
    | some c =>
      if w.cls = 2 ∧ w.k.status = .running then s
      else
        let s1 := modCell key (fun x => { x with work := none }) (countQuantum key s)
        decideCell key (if w.cls = 2 then endKernel (cellHub key) w.cid c w.k s1 else endJudged (cellHub key) w.cid c w.desc s1)

/-- The cell that runs a sample. -/
def cellWith (s : State) (cid : Nat) : Option Nat := (s.tst.cells.find? (fun e => e.2.work.any (fun w => w.cid = cid))).map (·.1)

/-- A sample is taken off its cell, which chooses again. -/
def abandonCap (cid : Nat) (s : State) : State :=
  match cellWith s cid with
  | none => freeCap cid s
  | some k => decideCell k (freeCap cid (modCell k (fun x => { x with work := none }) s))

/-- A kernel sample not at HALT 1 s of the Primary's Strata time after its capture traps (Table 7.5, cause 4; R473). -/
def kernelLateAt (cid : Nat) (s : State) : State :=
  match capOf s cid with
  | none => s
  | some c =>
    if classOf c.kind ≠ 2 ∨ clockRuns s = false then s
    else if c.stage = 4 then endKernel c.hub cid c { ((c.susp.map (·.1)).getD {}) with status := .trapped 4 } s
    else
      match cellWith s cid with
      | none => s
      | some key =>
        let k := (((cellOf s key).work).map (·.k)).getD {}
        if c.stage ≠ 5 ∨ k.status ≠ .running then s
        else decideCell key (endKernel (cellHub key) cid c { k with status := .trapped 4 } (modCell key (fun x => { x with work := none }) s))

/-- A verdict reaches its warden, once a hub serves with a quorum (R158, R161). -/
def verdictAt (p cid : Nat) (s : State) : State :=
  match serving s with
  | none => s
  | some h =>
    if !(hasQuorum s h && inFlight (.verdict p cid) s) then s
    else
      let s1 := recv (.verdict p cid) s
      match capOf s1 cid with
      | none => s1
      | some c =>
        let v := tget [] s1.tst.verdicts cid
        let s2 := freeCap cid (modTst (fun t => { t with verdicts := tdel t.verdicts cid }) s1)
        if classOf c.kind = 0 then settleReport p (giveVerdict p cid v (some c) false s2) else s2

/-- 10 ms have passed since the disagreement reached the Primary (R156); suspended where the capture was incomplete at a halt (R389). -/
def arbitrationLimitAt (p tid e : Nat) (s : State) : State :=
  if clockRuns s = false then s
  else
    match (war s p).triages.find? (fun t => decide (t.tid = tid) && decide (t.epoch = e) && !t.limit) with
    | none => s
    | some t =>
      if t.verd.isSome then settleReport p (giveVerdict p t.cid [] none true s)
      else if isHalted s p && decide (t.cid ∈ (war s p).haltCaps) then s
      else
        let c : Capture := (capOf s t.cid).getD { kind := t.kind, epoch := e, site := if t.kind = 2 then engineSite p t.o else coreSite p t.o }
        let s1 := abandonCap t.cid (noVerdictEv t.cid c 6 s)
        settleReport p (giveVerdict p t.cid [{ code := 2, cause := 6 }] none true (if c.stage < 3 then releaseS p c s1 else s1))

/-! ### Cell self-check (R144, R168, R223) -/

def keySite (key : Nat) : Nat := cellSite (cellHub key) (key % 16)

/-- A cell is withdrawn: Quarantined, KIND 13. -/
def cellOut (key cause : Nat) (s : State) : State :=
  let site := keySite key
  addEntry site 13 2 4 false
    (raise (fromSrc 2 (evAt evTstoneCellOut site [(4, site), (1, cause)])) (modCell key (fun x => { x with state := 4, kat := 0 }) s))

/-- A lane's residue disagrees: the sample starts again on another cell, and the cell is tested or withdrawn. -/
def cellCheckAt (key lane : Nat) (s : State) : State :=
  match (cellOf s key).work with
  | none => s
  | some w =>
    let t := now s
    let l := ((cellOf s key).disagree.filter (fun x => decide (t < x + 86400000000000))) ++ [t]
    let s1 := raise (fromSrc 2 (evAt evTstoneCellCheck (keySite key) [(4, keySite key), (4, w.cid), (2, lane), (4, l.length)]))
      (modCell key (fun x => { x with work := none, disagree := l, kat := 1 }) (modCap w.cid (fun c => { c with stage := 4, susp := none, notCell := some key }) s))
    let s2 := if 3 ≤ l.length then cellOut key 2 s1 else s1
    offerCells (cellHub key) (noteWait (cellHub key) s2)

/-- The known-answer test of a cell ends. -/
def katDoneAt (key : Nat) (pass : Bool) (s : State) : State :=
  let site := keySite key
  let done := fun (st res : Nat) (s : State) =>
    finish 0x0704 site stDone [BitVec.ofNat 8 st] (raise (evAt evRestore site [(4, site), (1, res), (1, st)]) s)
  match (cellOf s key).kat with
  | 1 => if pass then decideCell key (modCell key (fun x => { x with kat := 0 }) s) else cellOut key 1 s
  | 2 =>
    if pass then decideCell key (done stInService 1 (removeEntry site (modCell key (fun x => { x with kat := 0, state := 0, disagree := [] }) s)))
    else
      done stRetired 2 (retireEntry site rcRestore (raise (fromSrc 2 (evAt evTstoneCellOut site [(4, site), (1, 1)]))
        (modCell key (fun x => { x with kat := 0, state := 5 }) s)))
  | _ => s

/-! ### A hub's cells and store are lost (R161) -/

/-- A hub's copy of an arbitration capture is lost: the sample runs from the other hub's, and ends in no verdict where the other hub holds
none (R156, R161). -/
def copyLost (h : HubId) (cid : Nat) (s : State) : State :=
  match capOf s cid with
  | none => s
  | some c =>
    if c.hub ≠ h then modCap cid (fun c => { c with copy2 := none }) s
    else
      match c.copy2 with
      | some b => modCap cid (fun c => { c with hub := other h, body := b, copy2 := none }) s
      | none => if c.stage = 4 then endUnjudged (other h) cid c 5 s else modCap cid (fun c => { c with hub := other h }) s

/-- Cells of a hub that goes Down stop, and what only its store held is lost: arbitration samples run again from the other hub's copy, audit
and kernel samples are counted in one event (R161). -/
def hubCellsLost (h : HubId) (s : State) : State :=
  let s1 := forEach ((List.range 16).map (cellKey h)) (fun k s =>
    match (cellOf s k).work with
    | none =>
      let s1 := modCell k (fun x => { x with kat := 0 }) s
      if (cellOf s k).kat = 2 then finish 0x0704 (keySite k) stNotInService [] s1 else s1
    | some w => modCell k (fun x => { x with work := none, kat := 0 }) (modCap w.cid (fun c => { c with stage := 4, susp := none }) s)) s
  let arb := s1.tst.caps.filter (fun e => decide (classOf e.2.kind = 0) && decide (1 ≤ e.2.stage) && decide (e.2.stage ≤ 5))
  let s2 := forEach arb (fun e s => copyLost h e.1 s) s1
  let lost := s2.tst.caps.filter (fun e => decide (1 ≤ classOf e.2.kind) && decide (e.2.hub = h) && decide (1 ≤ e.2.stage) && decide (e.2.stage ≤ 5))
  let s3 := forEach lost (fun e s => freeCap e.1 s) s2
  let n := fun (cls : Nat) => (lost.filter (fun e => classOf e.2.kind = cls)).length
  if lost = [] then s3
  else raise (ev evTstoneSamplesLost [(1, hubNum h), (4, n 1), (4, n 2)]) s3

/-- An event at one of a hub's 16 cells. -/
def atCell (h : HubId) (cell : Nat) (f : Nat → State → State) (s : State) : State := if cell < 16 then f (cellKey h cell) s else s

/-! ### The rows -/

def execCaptureAlloc (p ticket : Nat) (s : State) : Res0 := nextOf s (captureAllocAt p ticket s)
def execCaptureGrant (p : Nat) (cid : BitVec 32) (s : State) : Res0 := nextOf s (captureGrantAt p cid.toNat s)
def execCaptureStream (p : Nat) (cid : BitVec 32) (preamble : BitVec 256) (body : List Byte) (s : State) : Res0 :=
  nextOf s (captureStreamAt p cid.toNat preamble body s)
def execCaptureComplete (cid : BitVec 32) (s : State) : Res0 := nextOf s (captureCompleteAt cid.toNat s)
def execQuantumEnd (h : HubId) (cell : Nat) (s : State) : Res0 := nextOf s (atCell h cell quantumEndAt s)
def execSampleDone (h : HubId) (cell : Nat) (s : State) : Res0 := nextOf s (atCell h cell sampleDoneAt s)
def execTstoneCellCheck (h : HubId) (cell lane : Nat) (s : State) : Res0 := nextOf s (atCell h cell (fun k => cellCheckAt k lane) s)
def execKnownAnswerTestDone (h : HubId) (cell : Nat) (pass : Bool) (s : State) : Res0 :=
  nextOf s (atCell h cell (fun k => katDoneAt k pass) s)
def execArbitrationLimit (p : Nat) (tid epoch : BitVec 32) (s : State) : Res0 := nextOf s (arbitrationLimitAt p tid.toNat epoch.toNat s)
def execTouchstoneVerdict (p : Nat) (cid : BitVec 32) (s : State) : Res0 := nextOf s (verdictAt p cid.toNat s)
def execKernelLate (cid : BitVec 32) (s : State) : Res0 := nextOf s (kernelLateAt cid.toNat s)

end Sys2Proof.Machine
end

