-- ==== Sys2Proof/Machine/TstoneCmd.lean ====
section
/-! DEFINITION. The commands of class TSTONE (R146, R155, R162, R172 to R183, R432). -/

namespace Sys2Proof.Machine
open Sys2Proof

/-! ### Kernel images (R172, R173) -/

/-- The instructions of an image. -/
def imageCode (b : List Byte) : List (BitVec 64) :=
  (List.range (fieldAt b 6 2)).map (fun i => w64 (fieldAt b (128 + 8 * i) 8))

/-- Is a NAME in range: ASCII, padded with 0x00 (Table 7.6, R173)? -/
def nameOk (n : List Byte) : Bool :=
  let l := n.takeWhile (fun b => b ≠ 0)
  l.all (fun b => decide (b < 0x80)) && (n.drop l.length).all (fun b => b == 0)

/-- The outcome of the checks of an image for a tenant: a kernel, or the cause of EV_KERNEL_REJECTED and an instruction. -/
def checkImage (s : State) (tenant : Nat) (b : List Byte) : Kernel ⊕ (Nat × Nat) :=
  let nins := fieldAt b 6 2
  let cl := fieldAt b 32 4
  let fl := fieldAt b 12 1
  let off := 128 + 8 * nins
  let cert := slice b off cl
  let code := imageCode b
  let root := s.keys.roots.find? (fun r => decide (r.tenant = tenant) && r.flags.testBit 0 && Config.signedBy cert r.key)
  if !(decide (fieldAt b 0 4 = 0x4C4E524B) && decide (fieldAt b 4 2 = 1) && decide (1 ≤ nins) && decide (nins ≤ 1024) &&
      decide (1 ≤ fieldAt b 8 4) && decide (fieldAt b 8 4 ≤ 15000000) && decide (fl < 4) && zeroAt b 13 3 &&
      decide (1 ≤ cl) && decide (cl ≤ 2048) && nameOk (slice b 16 16) && zeroAt b 36 92 && decide (b.length = off + cl + 96)) then .inr (1, 0)
  else if !Config.sigVerifies (b.take (off + cl)) cert (b.drop (off + cl)) then .inr (2, 0)
  else
    match root with
    | none => .inr (3, 0)
    | some r =>
      match (List.range nins).find? (fun i => !insOk nins (code.getD i 0)) with
      | some i => .inr (4, i)
      | none =>
        let last := ((code.getD (nins - 1) 0).extractLsb' 56 8).toNat
        if last ≠ 1 ∧ last ≠ 2 then .inr (4, nins - 1)
        else if 16 ≤ (s.tst.kernels.filter (fun k => k.2.tenant = tenant)).length then .inr (5, 0)
        else .inl { tenant, budget := fieldAt b 8 4, charge := fl.testBit 0, inputs := fl.testBit 1, code, root := r.key,
                    chargeOk := r.flags.testBit 1, name := slice b 16 16 }

/-! ### Unloading (R182) -/

/-- Captures that wait for store space or their stream, and that no other kernel has selected. -/
def soleCands (s : State) (slot : Nat) : List Nat :=
  (s.tst.caps.filter (fun e => decide (e.2.kind = 5) && decide (e.2.stage < 3) && decide (e.2.cands ≠ []) && e.2.cands.all (fun a => decide (a.2.slot = slot)))).map (·.1)

/-- Captures still to be streamed lose a kernel's attachments, and are freed where no other has selected them. -/
def dropCands (slot : Nat) (s : State) : State :=
  forEach (soleCands s slot) freeCap (modTst (fun t => { t with caps := t.caps.map (fun e => (e.1, { e.2 with cands := e.2.cands.filter (fun a => decide (a.2.slot ≠ slot)) })) }) s)

/-- A kernel is unloaded: its attachments go, its waiting captures are freed, those that wait for space or their stream among them, and its
running samples abandoned (R179, R182). -/
def unloadKernel (slot : Nat) (s0 : State) : State :=
  let s := dropCands slot s0
  let mine := fun (st : Nat → Bool) => s.tst.caps.filter (fun e => decide (e.2.kind = 5) && decide (e.2.slot = slot) && st e.2.stage)
  let wait := mine (fun st => decide (st = 3) || decide (st = 4))
  let run := mine (fun st => decide (st = 5))
  let s1 := modTst (fun t => { t with kernels := tdel t.kernels slot, attaches := t.attaches.filter (fun a => a.2.slot ≠ slot) }) s
  let s2 := forEach run (fun e s => abandonCap e.1 s) (forEach wait (fun e s => freeCap e.1 s) s1)
  raise (ev evKernelDiscarded [(2, slot), (4, (soleCands s0 slot).length + wait.length), (4, run.length)]) s2

/-! ### The commands (R432) -/

def tstoneDescRow : CmdRow :=
  { op := 0x0401, roles := [1, 2], named := [(0, 2), (2, 1), (3, 1)]
    plen := fun _ pk => if parB pk 3 = 0 then some 64 else if parB pk 3 = 1 then some 0 else none
    body := fun c s =>
      let key := descKey (parN c.pk 0 2) (parB c.pk 2)
      if c.role = 2 ∧ parN c.pk 0 2 < 4096 ∧ !ownsJob c s (parN c.pk 0 2) then ansDenied
      else needJob c.pk 0 (fun _ =>
        need (decide (parB c.pk 3 ≤ 1)) (badAt 3) <|
        if parB c.pk 3 = 1 then ansOk (modTst (fun t => { t with descs := tdel t.descs key }) s)
        else
          match parseDesc (payOf c.pk) with
          | none => badAny
          | some d =>
            need ((tfind s.tst.descs key).isSome || decide (s.tst.descs.length < 8192)) badAny <|
            ansOk (modTst (fun t => { t with descs := tset t.descs key d }) s)) }

def tstoneShareRow : CmdRow :=
  { op := 0x0402, roles := [0], named := [(0, 1)]
    body := fun c s =>
      let a := parB c.pk 0
      need (decide (a ≤ 8) || decide (a = 0xFF)) (badAt 0) <|
      ansOk (modTst (fun t => { t with share := if a = 0xFF then none else some a }) s) }

/-- Cells of a hub in service. -/
def cellsIn (s : State) (h : HubId) : Nat :=
  if hubUp s h then ((List.range 16).filter (fun c => (cellOf s (cellKey h c)).state = 0)).length else 0

/-- The 128 bytes of TSTONE.REPORT for a hub. In flight are the samples on its cells, at most one each; one that is suspended, or whose
verdict is on its way, is not counted (DESIGN CHOICE, log entry 157). -/
def tstoneHubReport (s : State) (h : HubId) : List Byte :=
  let k := cntOf s h
  let run := fun (cls : Nat) => ((List.range 16).filter (fun c => (cellOf s (cellKey h c)).work.any (fun w => w.cls = cls))).length
  let wait := fun (cls : Nat) => ((waitingAt s h cls).filter (fun e => e.2.hub = h)).length
  padTo 128
    (leBytes 1 (run 0) ++ leBytes 1 (run 1) ++ leBytes 1 (run 2) ++ leBytes 1 0 ++
     leBytes 4 (wait 0) ++ leBytes 4 (wait 1) ++ leBytes 4 (wait 2) ++
     leBytes 2 s.tst.auditThr ++ leBytes 1 (shareOf s) ++ leBytes 1 0 ++
     leBytes 2 (cellsIn s h) ++ leBytes 2 0 ++ leBytes 8 k.verd0 ++ leBytes 8 k.verd1 ++ leBytes 8 k.verd2 ++
     leBytes 8 k.drop1 ++ leBytes 8 k.drop2 ++ leBytes 8 k.drop3 ++ leBytes 8 k.coll ++
     leBytes 8 k.quanta0 ++ leBytes 8 k.quanta1 ++ leBytes 8 k.quanta2)

/-- Quanta of kernel work by tenant, both hubs together. -/
def tenantQuanta (s : State) : Tab Nat :=
  s.tst.cntB.tenQuanta.foldl (fun t e => tadd t e.1 e.2) s.tst.cntA.tenQuanta

def tstoneReportRow : CmdRow :=
  { op := 0x0403, roles := [0, 1], reads := true
    body := fun _ s => .done [] (tstoneHubReport s .a ++ tstoneHubReport s .b ++
      (tenantQuanta s).flatMap (fun e => leBytes 4 e.1 ++ leBytes 8 e.2)) 0 s }

def tstoneKloadRow : CmdRow :=
  { op := 0x0410, roles := [2], pieced := true, named := [(0, 1), (4, 4)], plen := fun _ _ => none
    body := fun c s =>
      let slot := parB c.pk 0
      if 64 ≤ slot then badAt 0
      else
        match tfind s.tst.kernels slot with
        | some k => if k.tenant = c.tenant then badAt 0 else ansDenied
        | none =>
          piece c s 0x0410 slot 10464 (fun all s =>
            match checkImage s c.tenant all with
            | .inl k => ansOk (modTst (fun t => { t with kernels := tset t.kernels slot k }) s)
            | .inr (cause, i) =>
              .errWith stBadParam 0xFFFF cause
                (raise (ev evKernelRejected [(1, c.tenant), (2, slot), (1, cause), (2, i)]) s)) }

def tstoneKunloadRow : CmdRow :=
  { op := 0x0411, roles := [0, 2], long := true, named := [(0, 1)]
    body := fun c s =>
      let slot := parB c.pk 0
      if 64 ≤ slot then badAt 0
      else
        match tfind s.tst.kernels slot with
        | none => if c.role = 2 then ansDenied else badAt 0
        | some k => if c.role = 2 ∧ k.tenant ≠ c.tenant then ansDenied else .both [] (unloadKernel slot s) }

def tstoneKattachRow : CmdRow :=
  { op := 0x0412, roles := [2], named := [(0, 1), (2, 2), (4, 1), (5, 1), (6, 1), (7, 1)]
    body := fun c s =>
      let slot := parB c.pk 0
      let src := parB c.pk 4
      let job := parN c.pk 2 2
      let foreign := (decide (slot < 64) && (tfind s.tst.kernels slot).all (fun k => decide (k.tenant ≠ c.tenant))) ||
        (decide (job < 4096) && !ownsJob c s job)
      if foreign then ansDenied
      else if 64 ≤ slot then badAt 0
      else needJob c.pk 2 (fun j =>
            need (decide (src ∈ [0, 1, 2, 5])) (badAt 4) <|
            need (decide (parB c.pk 5 ≤ 16)) (badAt 5) <|
            need (decide (parB c.pk 6 ≤ 1)) (badAt 6) <|
            need (decide ((s.tst.attaches.filter (fun a => a.2.slot = slot)).length < 8)) badAny <|
            match firstKey (fun i => (tfind s.tst.attaches i).isNone) 0 128 with
            | none => badAny
            | some i =>
              let a : Attach := { slot, tenant := c.tenant, job := j, source := src, k := parB c.pk 5,
                                  filter := if parB c.pk 6 = 1 then some (parB c.pk 7) else none }
              .done (leBytes 1 i) [] 0 (modTst (fun t => { t with attaches := tset t.attaches i a }) s)) }

def tstoneKdetachRow : CmdRow :=
  { op := 0x0413, roles := [0, 2], named := [(0, 1)]
    body := fun c s =>
      let i := parB c.pk 0
      if 128 ≤ i then badAt 0
      else
        match tfind s.tst.attaches i with
        | none => if c.role = 2 then ansDenied else badAt 0
        | some a => if c.role = 2 ∧ a.tenant ≠ c.tenant then ansDenied else ansOk (dropAttach i s) }

/-- The 16 bytes of a finding record (Table 7.4). -/
def findingBytes (f : Finding) : List Byte :=
  leBytes 2 f.code.toNat ++ leBytes 2 0 ++ leBytes 4 f.index.toNat ++ leBytes 4 f.value.toNat ++ leBytes 4 f.limit.toNat

def kresultBytes (r : KResult) : List Byte :=
  padTo 32
    (leBytes 1 r.verdict ++ leBytes 1 r.cause ++ leBytes 1 r.finds.length ++ leBytes 1 (flag r.isPartial) ++ leBytes 2 r.lost ++
     leBytes 2 r.job ++ leBytes 4 r.epoch ++ leBytes 4 r.id ++ leBytes 4 r.row ++ leBytes 1 r.slot ++ leBytes 1 r.att) ++
  r.finds.flatMap findingBytes

def tstoneKresultRow : CmdRow :=
  { op := 0x0414, roles := [0, 2], reads := true, named := [(0, 4)]
    body := fun c s =>
      match s.tst.results.find? (fun r => r.cid = parN c.pk 0 4) with
      | none => badAt 0
      | some r => if c.role = 2 ∧ r.tenant ≠ c.tenant then ansDenied else .done [] (kresultBytes r) 0 s }

def execTstoneDesc (pk : Packet) (s : State) : Res0 := nextOf s (runCmd tstoneDescRow (.tstoneDesc pk) pk s)
def execTstoneShare (pk : Packet) (s : State) : Res0 := nextOf s (runCmd tstoneShareRow (.tstoneShare pk) pk s)
def execTstoneReport (pk : Packet) (s : State) : Res0 := nextOf s (runCmd tstoneReportRow (.tstoneReport pk) pk s)
def execTstoneKload (pk : Packet) (s : State) : Res0 := nextOf s (runCmd tstoneKloadRow (.tstoneKload pk) pk s)
def execTstoneKunload (pk : Packet) (s : State) : Res0 := nextOf s (runCmd tstoneKunloadRow (.tstoneKunload pk) pk s)
def execTstoneKattach (pk : Packet) (s : State) : Res0 := nextOf s (runCmd tstoneKattachRow (.tstoneKattach pk) pk s)
def execTstoneKdetach (pk : Packet) (s : State) : Res0 := nextOf s (runCmd tstoneKdetachRow (.tstoneKdetach pk) pk s)
def execTstoneKresult (pk : Packet) (s : State) : Res0 := nextOf s (runCmd tstoneKresultRow (.tstoneKresult pk) pk s)

end Sys2Proof.Machine
end

