-- ==== Sys2Proof/Machine/SentryRows.lean ====
section
/-! DEFINITION. Lookups, map updates and their acknowledgements (R45 to R51, R226 to R229), the commit of the defect table
(R216), and core and cluster resets (R270, R271, R277). -/

namespace Sys2Proof.Machine
open Sys2Proof

/-! ### Lookups and updates -/

def sentryLookupAt (p ch site : Nat) (s : State) : State := drive (.answer p ch (answerAt s p site)) s

/-- Does a fence of a reset keep the entry of a site (Table 9.4, R24)? -/
def resetKeeps (s : State) (p site : Nat) : Bool :=
  let r := (war s p).reset
  decide (siteKey site ∈ r.coreWait) || (decide (siteKey site = partSite p) && (decide (r.step ≠ 0) || r.wafer || r.holdReset))

/-- The decision on an entry takes effect at its warden, and is acknowledged (R227, R228). Beneath a fence of a reset it is
kept for the fence's end. A warden without hub contact changes no entry except to Fenced (R24). A harvest waits for its core's. -/
def sentryUpdateAt (p site : Nat) (s : State) : State :=
  match takeMsg (fun m => match m with | .sentry q x st => if q = p ∧ siteKey x = siteKey site then some st else none | _ => none) s with
  | none => s
  | some (st, s1) =>
    if !(war s1 p).alive then s1
    else if (war s1 p).lease.isNone && decide (st ≠ stFenced) then s
    else
      let s2 :=
        if resetKeeps s1 p site then
          if isCoreSite site then modCore p (siteSrc site) (fun c => { c with before := some st }) s1 else s1
        else setEntry p site st s1
      let s3 := send (.switched p false [(siteKey site, st)]) s2
      let s4 := if isCoreSite site && decide (st = stQuarantined) then judgeAll s3 else s3
      if isCoreSite site && decide (st = stSpare) && decide ((cluOf s4 p (siteCluster site)).rot = 6) && !isShort s4 p (siteCluster site)
      then makeReady p (siteCluster site) s4 else s4

/-- Is a site one whose entry every warden holds: a whole partition or a whole link (R226)? -/
def sharedSite (site : Nat) : Bool := isPartSite site || isLinkSite site

/-- The owner's acknowledgement lets the Primary write the others' entries (R228); a batch's switch is counted, the
level of snt_gen kept for SNT_PART (R452), and what waited for it goes out (R227, R229). -/
def switchAckAt (p : Nat) (s : State) : State :=
  if (serving s).isNone then s
  else
    match takeMsg (fun m => match m with | .switched q b es => if q = p then some (b, es) else none | _ => none) s with
    | none => s
    | some ((b, es), s0) =>
      let s1 := if b then modW p (fun w => { w with switches := (w.switches + 1) % 4294967296, switchRep := w.gen }) s0 else s0
      let s2 := if b then sendDue p (war s1 p).mapDue s1 else s1
      forEach (es.filter (fun e => sharedSite e.1 && decide (sitePart e.1 = p))) (fun e s =>
        forEach (parts.filter (fun q => q ≠ p && (war s q).alive)) (fun q s => sendEntry q e.1 e.2 s) s) s2

/-- The working copy becomes the committed generation by one pointer update (R216). -/
def commitDefects (s : State) : State :=
  if s.defects.dirty then
    let s1 := modDefects (fun d => { d with committed := d.tab, gen := !d.gen, dirty := false, commits := d.commits + 1 }) s
    nvWrite nvDefects { s1 with boot := { s1.boot with nvTable := true } }
  else s

def defectCommitAt (s : State) : State := if (serving s).isSome then commitDefects s else s

/-! ### Core and cluster resets -/

/-- The cores of a core's or cluster's reset. -/
def resetSrcs (site : Nat) : List Nat :=
  if isCoreSite site then [siteSrc site] else (List.range 17).map (srcOf (siteCluster site))

/-- Is a site Retired, so that its reset fences nothing (Table 9.4)? -/
def siteRetired (s : State) (site : Nat) : Bool := decide (defState? s site = some 5)

/-- What the warden had in hand of a core's test is gone with a reset: the test begins again at the reset's end (R200). A pattern run
waits for its pattern's turn again. -/
def stopTest (p src : Nat) (s : State) : State :=
  modTest p src (fun t =>
      { t with slice := 0, rep := none, running := false
               step := if t.why = 4 ∨ t.why = 6 then (if t.step ≤ 4 ∨ t.step = 7 then 7 else 5) else 1 })
    (modW p (fun w => { w with
      directed := if w.directed = some src then none else w.directed
      patNext := if w.directed = some src then none else w.patNext
      dirWait := w.dirWait.filter (· ≠ src)
      heldW := w.heldW.filter (· ≠ .slice src) }) s)

/-- A cluster's reset abandons its swap before its remap (R200): the cluster, whose spare it still has, is Ready. -/
def stopSwap (p c : Nat) (s : State) : State :=
  let s1 := modW p (fun w => { w with heldW := w.heldW.filter (· ≠ .swap c) }) s
  match (war s p).swap with
  | none => s1
  | some sw => if sw.cluster = c then modClu p c (fun k => { k with rot := 0, cand := none }) (modW p (fun w => { w with swap := none }) s1) else s1

/-- Fence a core or cluster and order its reset (R277): its cores leave service, so that triages await them no more (R136) and an open offer
of one of them chooses again (R194); their tests and the cluster's swap are abandoned (R200). -/
def orderCoreReset (p site : Nat) (s : State) : State :=
  if siteKey site ∈ (war s p).reset.coreWait then s
  else
    let src := siteSrc site
    let s1 := if isCoreSite site then modCore p src (fun c => { c with before := some (coreState s p src) }) s else stopSwap p (siteCluster site) s
    let s2 := modW p (fun w => { w with reset := { w.reset with coreWait := w.reset.coreWait ++ [siteKey site] } }) s1
    let s3 := if siteRetired s site then s2 else fenceEntry p (siteKey site) s2
    let s4 := forEach (resetSrcs site) (fun src s => stopTest p src (leaveTriages p src s)) s3
    drive (.rst p (siteCluster site) (siteSlot site)) (chooseAgain p (siteCluster site) s4)

/-- A test on a core that was reset starts again from its step 1, a pattern run from its turn in the directed phase (R200). -/
def restartTest (p src : Nat) (s : State) : State :=
  match (coreOf s p src).test with
  | none => s
  | some t =>
    if t.step = 7 then enterDirected p src s
    else if t.step = 5 ∧ (t.why = 4 ∨ t.why = 6) then drive (.rst p (src / 32) (src % 32)) s
    else startTest p src t.why s

/-- A cluster whose reset ended goes on with its rotation: an offer left without a candidate chooses one, and one that is due opens. -/
def resumeRotation (p c : Nat) (s : State) : State :=
  let s1 := chooseAgain p c s
  if decide ((cluOf s1 p c).rot = 0) && offerNow s1 p c then openOffer p c s1 else s1

/-- The reset of a core or cluster is acknowledged: the remap of a cluster (R271), the entry it had, its tests, and what waited for it: a
replay's swap, and a harvest. -/
def coreResetDone (p site : Nat) (s : State) : State :=
  let c := siteCluster site
  let s1 := modW p (fun w => { w with reset := { w.reset with coreWait := w.reset.coreWait.filter (· ≠ siteKey site) } }) s
  let s2 :=
    if isCoreSite site then
      let src := siteSrc site
      let st := ((coreOf s1 p src).before).getD (defState site)
      let s2 := modCore p src (fun k => { k with before := none }) s1
      if siteRetired s2 site then s2 else ownEntry p site st s2
    else
      let s2 := forEach (List.range 16) (fun k s => drive (.remap p c k (posOfSlot s p c k)) s) s1
      if siteRetired s2 site then s2 else ownEntry p site ((defState? s2 site).getD stInService) s2
  let s3 := forEach (resetSrcs site) (restartTest p) s2
  judgeAll (replayAll p (resumeRotation p c s3))

/-! ### The rows -/

def execSentryLookup (p ch : Nat) (site : BitVec 32) (s : State) : Res0 := nextOf s (sentryLookupAt p ch site.toNat s)
def execDefectCommit (s : State) : Res0 := nextOf s (defectCommitAt s)

end Sys2Proof.Machine
end

