-- ==== Sys2Proof/Machine/KeyOps.lean ====
section
/-! DEFINITION. Memory key contexts, key loads, sweep passes and purges (R345 to R353, R356), and the progress
of a scrub (R358). Channels are numbered 2p + m. -/

namespace Sys2Proof.Machine
open Sys2Proof

/-! ### Channels -/

def chanOf (s : State) (ch : Nat) : Chan := if ch % 2 = 0 then (war s (ch / 2)).ch0 else (war s (ch / 2)).ch1

def modChan (ch : Nat) (f : Chan → Chan) (s : State) : State :=
  modW (ch / 2) (fun w => if ch % 2 = 0 then { w with ch0 := f w.ch0 } else { w with ch1 := f w.ch1 }) s

def allChans : List Nat := List.range 196

def chSite (ch : Nat) : Nat := chanSite (ch / 2) (ch % 2)

/-- Does the channel's partition run, with no reset or bring-up pending and its warden not failed (R351)? -/
def chanUp (s : State) (ch : Nat) : Bool :=
  partInService s (ch / 2) && !(war s (ch / 2)).failed && decide ((war s (ch / 2)).reset.step = 0)

/-! ### Contexts (Table 14.3) -/

def ctxOf (s : State) (c : Nat) : Ctx := tget {} s.keys.ctxs c

def modCtx (c : Nat) (f : Ctx → Ctx) (s : State) : State :=
  nvWrite nvCounters { s with keys := { s.keys with ctxs := tmod {} s.keys.ctxs c f } }

def keyTag (epoch : Nat) : Nat := epoch % 4

def slotOf (s : State) (n : Nat) : KSlot := tget {} s.keys.slots n

/-- The content key of a slot at a hub. -/
def slotKey (s : State) (h : HubId) (n : Nat) : Option (BitVec 512) := match h with | .a => (slotOf s n).keyA | .b => (slotOf s n).keyB

/-- Live epochs: number, slot where the source is a slot, and whether it is the write epoch. -/
def liveEpochs (x : Ctx) : List (Nat × Option Nat × Bool) :=
  (x.wepoch, (if x.wsrc = 1 then some x.wslot else none), true) ::
    (if x.state = 1 then [(x.oepoch, (if x.osrc = 1 then some x.oslot else none), false)] else [])

/-- A live epoch of the context comes from a slot whose key the serving hub has not (R353, R356). -/
def ctxBlocked (s : State) (c : Nat) : Bool :=
  (liveEpochs (ctxOf s c)).any (fun e => match e.2.1 with
    | some n => (slotKey s ((serving s).getD .a) n).isNone
    | none => false)

/-- 64 bytes of HKDF-SHA-384 of the memory root key, which the key unit of the hub that serves holds, with a salt of 48 zero bytes (R346). -/
def memKey (s : State) (info : List Byte) : BitVec 512 :=
  BitVec.ofNat 512 (leNat (Config.hkdf zeroSalt ((hubOf s ((serving s).getD .a)).rootKeys.take 32) info 64))

/-- A derived epoch key of a channel (R346). -/
def derivedKey (s : State) (ch c epoch : Nat) : BitVec 512 :=
  memKey s ([0x61, 0x6C, 0x61, 0x65, 0x72, 0x20, 0x6D, 0x65, 0x6D] ++ leBytes 4 (chSite ch) ++ leBytes 1 c ++ leBytes 4 epoch)

/-- P(c) of R352. -/
def purgeKey (s : State) (ch c epoch : Nat) : BitVec 512 :=
  memKey s ([0x61, 0x6C, 0x61, 0x65, 0x72, 0x20, 0x70, 0x75, 0x72, 0x67, 0x65] ++ leBytes 4 (chSite ch) ++ leBytes 1 c ++ leBytes 4 epoch)

def epochKey (s : State) (ch c epoch : Nat) (slot : Option Nat) : BitVec 512 :=
  match slot with | some n => (slotKey s ((serving s).getD .a) n).getD 0 | none => derivedKey s ch c epoch

/-- The number a new epoch takes (R348). -/
def newEpoch (x : Ctx) : Nat :=
  let out := (liveEpochs x).map (fun e => keyTag e.1) ++ x.zeroTags
  match (List.range 4).find? (fun i => keyTag (x.wepoch + 1 + i) ∉ out) with
  | some i => x.wepoch + 1 + i
  | none => x.wepoch + 1

/-! ### Key operations on a channel (R55, R56) -/

/-- Drive the beat that is due of the operation at the head of a channel's list. -/
def driveKey (ch : Nat) (s : State) : State :=
  let k := chanOf s ch
  match k.keyQ with
  | [] => s
  | (c, tag, op, key) :: _ => drive (.key (ch / 2) (ch % 2) c tag op k.keyBeat (key.extractLsb' (128 * k.keyBeat) 128)) s

/-- Key operations queued on a channel: 0 a key, 1 the write key, 2 a retirement. -/
def keyPush (ch : Nat) (l : List (Nat × Nat × Nat × BitVec 512)) (s : State) : State :=
  let idle := (chanOf s ch).keyQ.isEmpty
  let s1 := modChan ch (fun k => { k with keyQ := k.keyQ ++ l }) s
  if idle && !l.isEmpty then driveKey ch s1 else s1

/-- The loads of every live epoch of a context; none for a context without its slot's key. -/
def ctxLoads (s : State) (ch c : Nat) : List (Nat × Nat × Nat × BitVec 512) :=
  if ctxBlocked s c then []
  else (liveEpochs (ctxOf s c)).map (fun e => (c, keyTag e.1, (if e.2.2 then 1 else 0), epochKey s ch c e.1 e.2.1))

/-- Are all live epochs of a context loaded on a channel? -/
def ctxLoaded (s : State) (ch c : Nat) : Bool :=
  let k := chanOf s ch
  let x := ctxOf s c
  (liveEpochs x).all (fun e => (c, keyTag e.1) ∈ k.loaded) && decide (tfind k.wtag c = some (keyTag x.wepoch))

def isPurged (s : State) (c ch : Nat) : Bool := (c, ch) ∈ s.keys.purge

/-! ### Passes (R350, R351) -/

/-- The changes that a pass of the channel serves if it starts now: those made, of contexts whose live epochs are all loaded. -/
def passServes (s : State) (ch : Nat) : List Nat :=
  (List.range 64).filter (fun c => decide (ch ∈ (ctxOf s c).need) && !ctxBlocked s c && ctxLoaded s ch c)

/-- A pass starts: its first scrub order. -/
def beginPass (ch : Nat) (s : State) : State :=
  let cs := passServes s ch
  drive (.scrub (ch / 2) (ch % 2) 0 65536) (modChan ch (fun k => { k with pass := some (0, cs) }) s)

/-- Start a pass where one is due; while a purge waits for a Rotating context, passes serve the other changes (DEDUCED, log entry 168). -/
def startPass (ch : Nat) (s : State) : State :=
  if !chanUp s ch || (chanOf s ch).pass.isSome || decide (2 ≤ (chanOf s ch).purgeStep) || powerWarn s || decide (passServes s ch = []) then s
  else beginPass ch s

/-- A change of a context that was made now is served by no pass in progress (R350). -/
def unserve (c : Nat) (s : State) : State :=
  forEach (allChans.filter (fun ch => ((chanOf s ch).pass.map (·.2)).getD [] |>.contains c)) (fun ch s =>
    modChan ch (fun k => { k with pass := k.pass.map (fun x => (x.1, x.2.filter (· ≠ c))) }) s) s

/-- Retire a tag of a context on every channel in service. -/
def retireTag (c tag : Nat) (s : State) : State :=
  forEach (allChans.filter (chanUp s)) (fun ch s => keyPush ch [(c, tag, 2, 0)] s) s

/-- A change that every channel has served is completed (Table 14.4). -/
def ctxCheck (c : Nat) (s : State) : State :=
  let x := ctxOf s c
  if x.need ≠ [] ∨ x.loading ≠ [] then s
  else if x.state = 1 then
    let s1 := retireTag c (keyTag x.oepoch) s
    let s2 := raise (ev evKeyEpochRetired [(2, c), (4, x.oepoch), (4, x.wepoch)])
      (modCtx c (fun x => { x with state := 0, osrc := 0, oepoch := 0, oslot := 0, cid := if x.wsrc = 1 then x.cid else 0 }) s1)
    finishOpen (fun o => decide (o.opcode.toNat ∈ [0x0B04, 0x0B06, 0x0B07]) && decide (o.key = c)) stDone 0 (fun _ => []) s2
  else if x.state = 2 then
    finishOpen (fun o => decide (o.opcode.toNat ∈ [0x0B04, 0x0B06, 0x0B07]) && decide (o.key = c)) stDone 0 (fun _ => [])
      (raise (ev evKeyZeroed [(2, c), (4, x.wepoch)]) (modCtx c (fun x => { x with state := 0, tenant := 0, zeroTags := [] }) s))
  else s

/-- ACCEPTED once the new epoch is loaded on every channel in service (R349). -/
def acceptKeys (c : Nat) (s : State) : State :=
  if (ctxOf s c).loading = [] then forEach [0x0B04, 0x0B06, 0x0B07] (fun op s => acceptOpen op c s) s else s

/-! ### Purges (R352) -/

/-- The contexts marked on a channel. -/
def marked (s : State) (ch : Nat) : List Nat := (s.keys.purge.filter (fun x => x.2 = ch)).map (·.1)

/-- A tag that no live epoch of the context has. -/
def spareTag (x : Ctx) : Nat := ((List.range 4).find? (fun t => t ∉ (liveEpochs x).map (fun e => keyTag e.1))).getD 0

/-- Step 1 of a channel's purge after its join: each marked context in turn has its purge key loaded once it is not Rotating. Steps 2 and 4
are the two passes, step 3 the load of the live epochs. -/
def startPurge (ch : Nat) (s : State) : State :=
  let k := chanOf s ch
  let left := ((marked s ch).mergeSort (fun a b => decide (a ≤ b))).filter (fun c => !k.purgeCtx.any (fun y => y.1 = c))
  let ready := left.takeWhile (fun c => decide ((ctxOf s c).state ≠ 1))
  if !chanUp s ch || decide (ready = []) || decide (2 ≤ k.purgeStep) then s
  else
    keyPush ch (ready.map (fun c => (c, spareTag (ctxOf s c), 1, purgeKey s ch c (ctxOf s c).wepoch)))
      (modChan ch (fun k => { k with purgeStep := 1, purgeCtx := k.purgeCtx ++ ready.map (fun c => (c, spareTag (ctxOf s c))) }) s)

/-- A purge's pass starts when all its keys are loaded and no other pass runs. -/
def purgePass (ch : Nat) (s : State) : State :=
  let k := chanOf s ch
  let ready := k.purgeStep = 1 ∧ (marked s ch).all (fun c => k.purgeCtx.any (fun y => y.1 = c)) ∨ k.purgeStep = 3
  if ready ∧ k.keyQ = [] ∧ k.pass.isNone ∧ chanUp s ch then beginPass ch (modChan ch (fun k => { k with purgeStep := k.purgeStep + 1 }) s)
  else s

/-- A pass of a purge ends: the live keys after the first, the event after the second. -/
def purgeNext (ch : Nat) (s : State) : State :=
  let k := chanOf s ch
  if k.purgeStep = 2 then
    keyPush ch (k.purgeCtx.flatMap (fun x => (x.1, x.2, 2, 0) :: ctxLoads s ch x.1)) (modChan ch (fun k => { k with purgeStep := 3 }) s)
  else
    raise (evAt evKeyPurged (chSite ch) [(4, chSite ch), (8, (maskOf 64 (k.purgeCtx.map (·.1))).toNat)])
      (modChan ch (fun k => { k with purgeStep := 0, purgeCtx := [] })
        (nvWrite nvCounters { s with keys := { s.keys with purge := s.keys.purge.filter (fun x => !(x.2 = ch && k.purgeCtx.any (fun y => y.1 = x.1))) } }))

/-! ### The poll of key work -/

/-- What a channel may now do. -/
def chanPoll (ch : Nat) (s : State) : State := startPass ch (purgePass ch (startPurge ch s))

/-- What may now begin or complete after a change of keys or channels. -/
def keyWork (s : State) : State :=
  let busy := (List.range 64).filter (fun c => (ctxOf s c).state ≠ 0)
  let s1 := forEach busy (fun c s => ctxCheck c (acceptKeys c s)) s
  forEach (allChans.filter (fun ch => chanUp s1 ch && ((chanOf s1 ch).purgeStep ≠ 0 || (marked s1 ch ≠ []) ||
    busy.any (fun c => ch ∈ (ctxOf s1 c).need)))) chanPoll s1

/-- A channel's change completes without it: the purge bit (R351). -/
def setPurge (c ch : Nat) (s : State) : State :=
  let n := if isPurged s c ch then 0 else 1
  modCtx c (fun x => { x with need := x.need.filter (· ≠ ch), loading := x.loading.filter (· ≠ ch) })
    { s with keys := { s.keys with purge := insertOnce s.keys.purge (c, ch)
                                   scrubs := s.keys.scrubs.map (fun x => if c ∈ x.ctxs then { x with purged := x.purged + n } else x) } }

/-! ### A change of a context (R349, R351) -/

/-- A partition that is fenced in a reset or bring-up, so that a change must wait. -/
def changeWaits (s : State) : Bool :=
  parts.any (fun p => (!partInService s p || decide ((war s p).reset.step ≠ 0)) && decide (defState? s (partSite p) = none) && !(war s p).reset.stopped)

/-- Does a channel take part in a change of a context? One whose purge of it is still to begin does not: the purge loads the context's live
epochs and serves the change (DEDUCED, log entry 168). -/
def takesChange (s : State) (c ch : Nat) : Bool :=
  chanUp s ch && !(isPurged s c ch && !(chanOf s ch).purgeCtx.any (fun y => y.1 = c))

/-- The new epoch is to be loaded on every channel in service; the others take the purge bit. -/
def spreadChange (c : Nat) (before : List (Nat × Nat × Nat × BitVec 512)) (s0 : State) : State :=
  let s := unserve c s0
  let up := allChans.filter (takesChange s c)
  let s1 := forEach (allChans.filter (fun ch => !takesChange s c ch)) (fun ch s => setPurge c ch s)
    (modCtx c (fun x => { x with need := up, loading := up }) s)
  forEach up (fun ch s =>
    if (chanOf s ch).purgeCtx.any (fun y => y.1 = c) && decide ((chanOf s ch).purgeStep ≤ 2) then s
    else
      let x := ctxOf s c
      let load := if ctxBlocked s c then []
        else [(c, keyTag x.wepoch, 1, epochKey s ch c x.wepoch (if x.wsrc = 1 then some x.wslot else none))]
      keyPush ch (before ++ load) s) s1

/-- Live to Rotating: a derived epoch, or one from a slot. -/
def rotateCtx (c : Nat) (slot : Option Nat) (s : State) : State :=
  let n := newEpoch (ctxOf s c)
  let s1 := modCtx c (fun x => { x with
    state := 1, osrc := x.wsrc, oepoch := x.wepoch, oslot := x.wslot, wepoch := n
    wsrc := if slot.isSome then 1 else 0, wslot := slot.getD 0
    cid := match slot with | some k => (slotOf s k).cid | none => x.cid }) s
  spreadChange c [] s1

/-- Any state to Zeroing: every live tag retired, a new derived epoch (Table 14.4, R358). WSLOT, OSLOT and CID stand until step 5. -/
def zeroCtx (c : Nat) (s : State) : State :=
  let x := ctxOf s c
  let tags := (liveEpochs x).map (fun e => keyTag e.1)
  let n := newEpoch x
  let s1 := modCtx c (fun x => { x with
    state := 2, osrc := 0, oepoch := 0, wepoch := n, wsrc := 0
    zeroTags := (x.zeroTags ++ tags).eraseDups }) s
  spreadChange c (tags.map (fun t => (c, t, 2, 0))) s1

/-! ### Scrubs (R358, Table 14.6) -/

/-- Contexts, slots and captures of a tenant. -/
def ctxsOf (s : State) (t : Nat) : List Nat := (List.range 64).filter (fun c => decide (c ≠ 0) && decide ((ctxOf s c).tenant = t))
def slotsOf (s : State) (t : Nat) : List Nat := (s.keys.slots.filter (fun k => k.2.filled && decide (k.2.owner = t))).map (·.1)

def modScrub (t : Nat) (f : Scrub → Scrub) (s : State) : State :=
  { s with keys := { s.keys with scrubs := s.keys.scrubs.map (fun x => if x.tenant = t then f x else x) } }

/-- A capture of a departing tenant is freed; the shadow output area that an arbitration capture still holds is released with it. -/
def dropTenantCap (cid : Nat) (s : State) : State :=
  abandonCap cid (match capOf s cid with | some c => if c.stage < 3 then releaseS c.warden c s else s | none => s)

/-- Steps 2 to 4. -/
def beginScrub (t : Nat) (mask : BitVec 128) (jobs : List Nat) (s : State) : State :=
  let s1 := raise (ev evScrubBegin [(1, t), (16, mask.toNat), (4, jobs.length)]) (endJobs jobs s)
  let s2 := forEach ((s1.tst.kernels.filter (fun k => k.2.tenant = t)).map (·.1)) unloadKernel s1
  let s3 := forEach ((s2.tst.caps.filter (fun e => e.2.jobv && decide (e.2.tenant = t))).map (·.1)) dropTenantCap s2
  let cs := ctxsOf s3 t
  forEach cs zeroCtx { s3 with keys := { s3.keys with scrubs := s3.keys.scrubs ++ [{ tenant := t, mask, step := 4, ctxs := cs }] } }

/-- Step 5: the tenant's slots are zeroed in both hubs, and its contexts name none. Step 6 begins with cluster 0 of each partition in service. -/
def scrubSlots (x : Scrub) (s : State) : State :=
  let l := slotsOf s x.tenant
  let s1 := { s with keys := { s.keys with slots := s.keys.slots.filter (fun k => k.1 ∉ l) } }
  let s2 := forEach x.ctxs (fun c s => modCtx c (fun k => { k with wslot := 0, oslot := 0, cid := 0 }) s) s1
  let ps := (maskParts x.mask.toNat).filter (fun p => partInService s p && decide ((war s p).reset.level = none))
  forEach ps (fun p s => orderCoreReset p (clusterSite p 0) s)
    (modScrub x.tenant (fun k => { k with step := 6, slots := l.length, clusters := ps.map (fun p => (p, 0)) }) s2)

/-- A cluster reset of a scrub ends: the next cluster of its partition, unless the partition is to be reset. -/
def scrubCluster (p c : Nat) (s : State) : State :=
  forEach (s.keys.scrubs.filter (fun x => tfind x.clusters p = some c)) (fun x s =>
    let s1 := modScrub x.tenant (fun k => { k with resets := k.resets + 1 }) s
    if c < 639 ∧ (war s p).reset.level = none then
      orderCoreReset p (clusterSite p (c + 1)) (modScrub x.tenant (fun k => { k with clusters := tset k.clusters p (c + 1) }) s1)
    else modScrub x.tenant (fun k => { k with clusters := tdel k.clusters p }) s1) s

/-- Step 7: the scrub is done. -/
def endScrub (x : Scrub) (s : State) : State :=
  finish 0x0C01 x.tenant stDone []
    (raise (ev evScrubDone [(1, x.tenant), (4, x.ctxs.length), (4, x.slots), (4, x.resets), (4, x.purged)])
      { s with keys := { s.keys with scrubs := s.keys.scrubs.filter (fun y => y.tenant ≠ x.tenant) } })

/-- What a scrub may now do. -/
def scrubPoll (s : State) : State :=
  let s1 := forEach (s.keys.scrubs.filter (fun x => x.step = 4 && x.ctxs.all (fun c => (ctxOf s c).loading = []))) scrubSlots s
  forEach (s1.keys.scrubs.filter (fun x => x.step = 6 && x.clusters.isEmpty && x.ctxs.all (fun c => (ctxOf s1 c).state ≠ 2))) endScrub s1

/-- What key work and scrubs may now do. -/
def keyPoll (s : State) : State := scrubPoll (keyWork s)

/-! ### Channels leave and join -/

/-- The partition is fenced for a reset: its passes stop, and nothing of it is still to be loaded (R351). -/
def stopPasses (p : Nat) (s : State) : State :=
  forEach [2 * p, 2 * p + 1] (fun ch s =>
    forEach (List.range 64) (fun c s => if ch ∈ (ctxOf s c).loading then modCtx c (fun x => { x with loading := x.loading.filter (· ≠ ch) }) s else s)
      (modChan ch (fun k => { k with pass := none, purgeStep := 0, purgeCtx := [] }) s)) s

/-- A reset clears every key context of a partition's channels (R345). -/
def clearKeys (p : Nat) (s : State) : State :=
  forEach [2 * p, 2 * p + 1] (fun ch s =>
    modChan ch (fun k => { k with keyQ := [], keyBeat := 0, loaded := [], wtag := [], pass := none, purgeStep := 0, purgeCtx := [] }) s) s

/-- The partition does not come back: its channels take the purge bits of the changes they had not served (R351). -/
def loseChans (p : Nat) (s : State) : State :=
  keyPoll (forEach [2 * p, 2 * p + 1] (fun ch s =>
    forEach (List.range 64) (fun c s => if ch ∈ (ctxOf s c).need then setPurge c ch s else s) s) s)

/-- The loads before a join: every context not marked on the channel (R351, R352). -/
def joinLoads (p : Nat) (s : State) : State :=
  forEach [2 * p, 2 * p + 1] (fun ch s =>
    keyPush ch ((List.range 64).flatMap (fun c => if isPurged s c ch then [] else ctxLoads s ch c)) s) s

/-! ### Acknowledgements -/

/-- What an operation leaves in the controller. -/
def keyEffect (c tag op : Nat) (k : Chan) : Chan :=
  match op with
  | 0 => { k with loaded := insertOnce k.loaded (c, tag) }
  | 1 => { k with loaded := insertOnce k.loaded (c, tag), wtag := tset k.wtag c tag }
  | _ => { k with loaded := k.loaded.filter (· ≠ (c, tag)), wtag := if tfind k.wtag c = some tag then tdel k.wtag c else k.wtag }

/-- The controller has taken the beat driven (R56): four for a key, one for a retirement. -/
def keyLoadAckOps (ch : Nat) (s : State) : State :=
  let k := chanOf s ch
  match k.keyQ with
  | [] => s
  | (c, tag, op, _) :: rest =>
    if op ≠ 2 ∧ k.keyBeat < 3 then driveKey ch (modChan ch (fun k => { k with keyBeat := k.keyBeat + 1 }) s)
    else
      let s1 := driveKey ch (modChan ch (fun k => keyEffect c tag op { k with keyQ := rest, keyBeat := 0 }) s)
      let s2 := if ch ∈ (ctxOf s1 c).loading ∧ ctxLoaded s1 ch c then
          modCtx c (fun x => { x with loading := x.loading.filter (· ≠ ch) }) s1
        else s1
      keyPoll s2

/-- A scrub order of a channel ends: the next one, or the pass is complete (R350). -/
def scrubDoneOps (ch : Nat) (s : State) : State :=
  match (chanOf s ch).pass with
  | none => s
  | some (n, cs) =>
    if n < 83 then drive (.scrub (ch / 2) (ch % 2) ((n + 1) * 65536) 65536) (modChan ch (fun k => { k with pass := some (n + 1, cs) }) s)
    else
      let s1 := modChan ch (fun k => { k with pass := none }) s
      let s2 := if 2 ≤ (chanOf s1 ch).purgeStep then purgeNext ch s1 else s1
      keyPoll (forEach cs (fun c s => modCtx c (fun x => { x with need := x.need.filter (· ≠ ch) }) s) s2)

/-- A slot filled after a start: the contexts it names are loaded on every channel in service (R353, R355). -/
def loadBlocked (slot : Nat) (s : State) : State :=
  let cs := (List.range 64).filter (fun c => (liveEpochs (ctxOf s c)).any (fun e => e.2.1 = some slot))
  keyPoll (forEach (allChans.filter (chanUp s)) (fun ch s =>
    keyPush ch (cs.flatMap (fun c => if isPurged s c ch || ctxLoaded s ch c then [] else ctxLoads s ch c)) s) s)

/-- EV_KEY_SLOT_MISSING for every slot that a context names and whose key a new Primary lacks (R356). -/
def slotsMissing (s : State) : State :=
  let named := (List.range 64).flatMap (fun c => (liveEpochs (ctxOf s c)).filterMap (fun e => e.2.1.map (fun n => (n, c))))
  let slots := (named.map (·.1)).eraseDups.filter (fun n => (slotKey s ((serving s).getD .a) n).isNone)
  forEach slots (fun n s =>
    raise (ev evKeySlotMissing [(2, n), (8, (maskOf 64 ((named.filter (fun x => x.1 = n)).map (·.2))).toNat)]) s) s

end Sys2Proof.Machine
end

