-- ==== Sys2Proof/Machine/Resets.lean ====
section
/-! DEFINITION. Links (R58, R222, R307), fence and drain, partition resets, recovery, bring-up and join (R269 to R289, R295,
R304 to R314), and bank power-down (R278). -/

namespace Sys2Proof.Machine
open Sys2Proof

def modReset (p : Nat) (f : Reset → Reset) (s : State) : State := modW p (fun w => { w with reset := f w.reset }) s

def resetOf (s : State) (p : Nat) : Reset := (war s p).reset

/-! ### Links -/

/-- Licensed links of a partition, by local number. -/
def licensedLinks (s : State) (p : Nat) : List Nat :=
  (List.range (min 8 (linksAt s p))).filter (fun l => s.keys.variant.links.getLsbD (globalLink s p l))

/-- A global link's whole-link site. -/
def linkSiteOf (s : State) (j : Nat) : Nat := match linkPlace s j with | some (p, l) => linkSite p l | none => 0

/-- The first attempt of a training. -/
def trainLink (j why : Nat) (limit : BitVec 2) (s : State) : State :=
  drive (.train j limit) (modLink j (fun k => { k with trainMax := limit, trainReq := true, attempts := 1, limit, why, width := 0 }) s)

/-- Does the accepted variant certificate exclude a partition or link (R234)? -/
def unlicensed (s : State) (site : Nat) : Bool :=
  let p := sitePart site
  decide (s.boot.device ≠ 2) && !s.boot.refused &&
  ((isPartSite site && !s.keys.variant.parts.getLsbD p) ||
   (isLinkSite site && strapsOk s p && !s.keys.variant.links.getLsbD (globalLink s p (siteIdx site / 16))))

/-- A link's site is out: entry of KIND 9, and then EV_LINK_OUT (R307). -/
def linkSiteOut (site attempts width : Nat) (s : State) : State :=
  raise (evAt evLinkOut site [(4, site), (4, attempts), (1, width)]) (addEntry site 9 7 4 false s)

/-- A link is out after its attempts. -/
def linkOut (j attempts : Nat) (s : State) : State :=
  linkSiteOut (linkSiteOf s j) attempts (lnk s j).lastWidth.toNat (modLink j (fun k => { k with trainReq := false, attempts, width := 0 }) s)

/-- A link trained at 2 lanes or more (R307): its entry and its lanes'. -/
def linkTrained (j : Nat) (width : BitVec 2) (lanes : BitVec 8) (s : State) : State :=
  match linkPlace s j with
  | none => s
  | some (p, l) =>
    let site := linkSite p l
    let s1 := sentryTo site stInService (removeEntry site (modLink j (fun k => { k with trainReq := false, width, lastWidth := width, lanesOk := lanes }) s))
    forEach (List.range 8) (fun n s =>
      let lane := laneSite p l n
      if lanes.getLsbD n then (if hasEntry s lane then sentryTo lane stInService (removeEntry lane s) else s)
      else addEntry lane 9 7 4 false s) s1

/-- A failed attempt: the next, or the link is out. True while the training goes on. -/
def linkAgain (j : Nat) (s : State) : Bool × State :=
  let k := lnk s j
  if k.attempts < 3 then
    let s1 := modLink j (fun k => { k with attempts := k.attempts + 1, retrains := if k.why = 2 then k.retrains + 1 else k.retrains }) s
    (true, if k.why = 2 then drive (.retrain j) s1 else drive (.train j k.limit) s1)
  else (false, linkOut j 3 s)

/-! ### Stamps (R288) -/

def partWindow : Nat := 600000000000
def deviceWindow : Nat := 3600000000000

/-- Stamps of a window that ends at t. -/
def stampsIn (l : List Nat) (t width : Nat) : Nat := (l.filter (fun e => decide (e ≤ t) && decide (t < e + width))).length

/-- A counted reset begins: the stamp, and the partition's retirement with its entry at the third in the window (R288, R289). -/
def countReset (p : Nat) (s : State) : State :=
  let t := now s
  let s1 := nvWrite nvCounters <| modW p (fun w => { w with stamps := lastN 3 (w.stamps ++ [t]) }) s
  if 3 ≤ stampsIn (war s1 p).stamps t partWindow then addEntry (partSite p) 8 7 5 false (modReset p (fun r => { r with retire := true }) s1)
  else s1

/-! ### Fence and drain (R277) -/

/-- A core's part of what a partition's fence ends; it keeps the state it held before a fence of its own. A core that was urgent stays so until its
next full test (R195), and one whose confirmation is cut is to get it still (R219). -/
def clearCore (k : Core) : Core :=
  { k with
    confirm := k.confirm || (match k.test with | some t => decide (t.why = 2) | none => false)
    test := none, quarSet := none, untested := false, job := none }

/-- What a partition's warden had in hand is gone with the fence: swaps, tests, offers, shadows, transfers that wait, triages, tallies and
held work; a pattern run that is cut is none (R200). -/
def clearWork (p : Nat) (s : State) : State :=
  modW p (fun w => { w with
    swap := none, heldW := [], pend := [], triages := [], triWait := [], firsts := [], tallies := [], psnLate := [], tfRep := [], shdQ := [], patNext := none
    directed := none, dirWait := [], startOpen := false, probation := false
    cores := w.cores.map (fun k => (k.1, clearCore k.2))
    clus := w.clus.map (fun k => (k.1, { k.2 with rot := if k.2.rot = 3 then 3 else 6, cand := none }))
    pcsWait := [], droop := { w.droop with req := false } })
    { s with quarry := { s.quarry with runs := s.quarry.runs.filter (fun r => r.done || decide (r.part ≠ p)) } }

/-- QUAR.SET orders whose core no longer waits for its yield: the withdrawal takes effect with the fence (log entry 20). -/
def settleQuarSet (p : Nat) (s : State) : State :=
  forEach (((war s p).cores.filter (fun k => k.2.quarSet.isSome)).map (fun k => (k.1, k.2.quarSet.getD 4))) (fun e s =>
    finish 0x0703 (coreSite p e.1) stDone []
      (withdrawCore p e.1 0x3FF 12 6 e.2 (modCore p e.1 (fun k => { k with quarSet := none }) s))) s

/-- QUAR.RESTORE tests under way on cores of a partition that is fenced end without a result: FENCED. -/
def endRestores (p : Nat) (s : State) : State :=
  finishOpen (fun o => decide (o.opcode.toNat = 0x0704) && isCoreSite o.key && decide (sitePart o.key = p)) stNotInService 0 (fun _ => []) s

/-- The first line of R277 at a partition: fenced at the owner, then elsewhere. -/
def fencePart (p : Nat) (s : State) : State :=
  send (.switched p false [(partSite p, stFenced)])
    (fenceEntry p (partSite p) (stopPasses p (clearWork p (endRestores p (settleQuarSet p s)))))

/-- Begin a partition or deep reset. `byWhom` is numbered as in EV_RESET_BEGIN. -/
def beginPartition (p level byWhom jobs : Nat) (counted retry : Bool) (s : State) : State :=
  let s1 := if counted then countReset p s else s
  let s2 := modReset p (fun r => { r with
    level := some level, step := 1, by_ := byWhom, quiesce := true, transit := false, retry, startAt := (war s p).timer, stopped := false
    bringup := false, fwAsked := false, fwCheck := false, fwRetry := false, fwStart := false, linksLeft := [], jobs, counted
    wafer := false, holdReset := false, idle := 0, done := none, failDue := none }) (fencePart p s1)
  raise (evAt evResetBegin (partSite p) [(4, partSite p), (1, level), (1, byWhom), (4, jobs),
    (4, stampsIn (war s2 p).stamps (now s2) partWindow)]) s2

/-- The 10 µs of source-side fencing end. -/
def quiesceEnd (p : Nat) (s : State) : State :=
  if !(resetOf s p).quiesce then s
  else
    let f := fun (k : Chan) => { k with fenceReq := true, fenceAck := false, drainErr := false, drain := 1, stuck := 0, ready := false }
    modW p (fun w => { w with ch0 := f w.ch0, ch1 := f w.ch1, lnkFence := true, reset := { w.reset with quiesce := false } }) s

/-- Order the reset of the partition (R270): every key context of its channels is cleared (R345). -/
def orderReset (p : Nat) (s : State) : State :=
  let deep := decide ((resetOf s p).level = some 3) && !(resetOf s p).deepLost
  let f := fun (k : Chan) => { k with fenceAck := false, drainErr := false, drain := 0, ready := false }
  drive (.rst p (if deep then 0x3FE else 0x3FF) 0x1F)
    (clearKeys p (modW p (fun w => { w with ch0 := f w.ch0, ch1 := f w.ch1, reset := { w.reset with step := 2, transit := false } }) s))

/-- EV_DRAIN_STUCK for each channel that stuck. -/
def stuckEvents (p : Nat) (s : State) : State :=
  forEach [2 * p, 2 * p + 1] (fun ch s =>
    let k := chanOf s ch
    if k.stuck = 0 then s else raiseW p (evAt evDrainStuck (chSite ch) [(2, p), (2, ch % 2), (1, k.stuck)]) s) s

/-- A wafer order is complete once every warden has drained: the commit and the final reply, by the hub that serves (R286). -/
def waferCheck (s : State) : State :=
  if s.boot.wafReset = 1 ∧ (serving s).isSome ∧ parts.all (fun p => !(resetOf s p).wafer) then
    let jobs := ((s.cmd.opens.find? (fun o => o.opcode = 0x0901#16 ∧ o.key = 4294967296)).map (·.jobs)).getD 0
    finish 0x0901 4294967296 stDone (leBytes 2 jobs)
      (commitDefects <| nvWrite nvCounters { s with
        boot := { s.boot with wafReset := 2 }, strata := { s.strata with countNv := s.strata.nextCount - 1 }
        sync := { s.sync with rsnNv := s.sync.nextRsn - 1 } })
  else s

/-- Both channels have ended their drain. -/
def drainCheck (p : Nat) (s : State) : State :=
  let w := war s p
  if w.reset.step ≠ 1 ∨ w.ch0.drain ≠ 4 ∨ w.ch1.drain ≠ 4 then s
  else
    let s1 := modW p (fun w => { w with ch0 := { w.ch0 with drain := 0 }, ch1 := { w.ch1 with drain := 0 } }) (stuckEvents p s)
    if w.reset.wafer then waferCheck (modReset p (fun r => { r with wafer := false, step := 0 }) s1)
    else if w.reset.holdReset then modReset p (fun r => { r with step := 0, holdReset := !(r.barred && w.lease.isSome) }) s1
    else if w.reset.level = some 3 ∧ !w.reset.deepLost then modReset p (fun r => { r with transit := true }) s1
    else orderReset p s1

/-- A channel's drain ends, stuck at a stage or not. -/
def endDrain (p m stage : Nat) (s : State) : State :=
  drainCheck p (modChan (2 * p + m) (fun k => { k with drain := 4, stuck := stage }) s)

/-! ### The end of a recovery -/

/-- Recovery time of a partition's reset in ns, by the warden timer, without the time the warden held no lease (R284, R472). -/
def recoveryNs (s : State) (p : Nat) : Nat := 10 * ((war s p).timer - (resetOf s p).startAt - (resetOf s p).idle)

/-- The final reply of the order that reset a partition, and of a QUAR.RESTORE of it with its event (R223). -/
def resetReply (p st : Nat) (s : State) : State :=
  let s1 := finish 0x0901 (partSite p) st (leBytes 2 (resetOf s p).jobs ++ leBytes 2 0 ++ leBytes 4 (recoveryNs s p / 1000000)) s
  if isOpen 0x0704 (partSite p) s1 then
    let after := if st = stDone then stProbation else stFenced
    finish 0x0704 (partSite p) st [BitVec.ofNat 8 after]
      (raise (evAt evRestore (partSite p) [(4, partSite p), (1, if st = stDone then 1 else 2), (1, after)]) s1)
  else s1

/-- The partition stays out of service: FENCED; Retired where its entry says so. -/
def stayFenced (p : Nat) (s : State) : State :=
  let s1 := loseChans p (modReset p (fun r => { r with
      level := none, step := 0, quiesce := false, transit := false, retry := false, stopped := true, retire := false, done := none, failDue := none
      wafer := false })
    (resetReply p stNotInService s))
  if defState? s (partSite p) = some 5 then sentryTo (partSite p) stRetired s1 else s1

/-- The step of Table 11.6 or 12.3 at which a recovery stands; the return of a joined partition's entry elsewhere belongs to step 6. -/
def stepNow (r : Reset) : Nat := r.failDue.getD (if r.done.isSome then 6 else r.step)

/-- A recovery or bring-up fails at its step (R285, R305): the one further reset is ordered at once, or by the hub that next serves. -/
def recoveryFail (p : Nat) (s : State) : State :=
  let r := resetOf s p
  if (serving s).isNone then keepDue (.recovery p) (modReset p (fun r => { r with failDue := some (stepNow r) }) s)
  else
    let s1 := raise (evAt evRecoveryFail (partSite p) [(4, partSite p), (1, stepNow r), (1, flag (!r.retry))]) s
    if r.retry then stayFenced p s1
    else beginPartition p 2 3 r.jobs true true (if r.bringup then countReset p s1 else s1)

/-- A failure that waited for a hub (R285). -/
def recoveryDue (p : Nat) (s : State) : State := if (resetOf s p).failDue.isSome then recoveryFail p s else s

/-! ### Recovery and bring-up steps 3 to 6 -/

/-- Step 6: the channels' key contexts are loaded before the join (R306, R351). -/
def enterJoin (p : Nat) (s : State) : State := joinLoads p (modReset p (fun r => { r with step := 6, fwStart := false }) s)

/-- EV_COREFW_REQUEST names partitions, which then have 1.5 s; the load that it begins follows the manifest in force (R309). -/
def askFirmware (ps : List Nat) (s : State) : State :=
  raise (ev evCorefwRequest [(16, (partsMask ps).toNat), (4, ((s.boot.manifest).map (·.imgver)).getD 0)])
    (forEach ps (fun p s => modReset p (fun r => { r with fwAsked := true, fwMan := s.boot.manifest }) s) s)

/-- Step 5 begins, or waits for a manifest or a Primary; the request after a mismatch is not gathered (R309, R310, R320). -/
def enterFirmware (p : Nat) (s : State) : State :=
  let s1 := modReset p (fun r => { r with step := 5 }) s
  if s1.boot.manifest.isNone || !mayBegin s1 then s1
  else if (resetOf s1 p).bringup && !(resetOf s1 p).fwRetry then
    match s1.boot.gather with
    | some l => { s1 with boot := { s1.boot with gather := some (insertOnce l p) } }
    | none => { s1 with boot := { s1.boot with gather := some [p] } }
  else askFirmware [p] s1

/-- Partitions at step 5 that no request names yet begin it. -/
def firmwareAll (s : State) : State :=
  forEach (parts.filter (fun p => decide ((resetOf s p).step = 5) && !(resetOf s p).fwAsked && !(resetOf s p).fwCheck && !(resetOf s p).fwStart &&
    decide (p ∉ s.boot.gather.getD []))) enterFirmware s

/-- Does this start run the fast path (R315)? A path once chosen stays in force (R320). -/
def fastStart (s : State) : Bool := s.boot.fast

/-- Memory and links are both through step 3: the self-test, which the fast path skips. -/
def step3Check (p : Nat) (s : State) : State :=
  let w := war s p
  if w.reset.step ≠ 3 ∨ w.reset.linksLeft ≠ [] ∨ !w.ch0.ready ∨ !w.ch1.ready then s
  else if w.reset.bringup && fastStart s then enterFirmware p s
  else modReset p (fun r => { r with step := 4 }) s

/-- The reset has cleared both controllers: no request is outstanding (R277, R57). -/
def drainAll (p : Nat) (s : State) : State :=
  modW p (fun w => { w with ch0 := { w.ch0 with drained := true }, ch1 := { w.ch1 with drained := true } }) s

/-- The reset of a partition is acknowledged: step 3, or the end of a partition that is retired, now or earlier, or of a device that joins none (R289,
R234). -/
def resetDone (p : Nat) (s0 : State) : State :=
  let s := drainAll p s0
  if (resetOf s p).retire || decide (defState? s (partSite p) = some 5) || decide (s.boot.device ≠ 0) then stayFenced p s
  else
    let ls := if strapsOk s p then licensedLinks s p else []
    let s1 := modReset p (fun r => { r with step := 3, linksLeft := ls }) s
    let s2 := if strapsOk s p then s1 else forEach (List.range (min 8 (linksAt s p))) (fun l s => linkSiteOut (linkSite p l) 0 0 s) s1
    step3Check p (forEach ls (fun l s => trainLink (globalLink s p l) 0 3 s) s2)

/-- A training ends at a link: what it was for. -/
def trainDone (j : Nat) (up : Bool) (s : State) : State :=
  match linkPlace s j with
  | none => s
  | some (p, l) =>
    match (lnk s j).why with
    | 0 => step3Check p (modReset p (fun r => { r with linksLeft := r.linksLeft.filter (· ≠ l) }) s)
    | 1 =>
      finish 0x1101 (linkSite p l) (if up then stDone else stNotInService) [BitVec.ofNat 8 (if up then (lnk s j).width.toNat else 0)]
        (if up then s else sentryTo (linkSite p l) ((defState? s (linkSite p l)).getD stQuarantined) s)
    | _ => s

/-- An input of a link: its warden lives (R69). -/
def onLink (j : Nat) (f : State → State) (s : State) : State := match linkPlace s j with | some (p, _) => onAlive p f s | none => s

def linkTrainDoneAt (j : Nat) (width : BitVec 2) (lanes : BitVec 8) (s : State) : State :=
  if !(lnk s j).trainReq then s
  else if width ≠ 0 then trainDone j true (linkTrained j width lanes s)
  else
    let r := linkAgain j s
    if r.1 then r.2 else trainDone j false r.2

def linkTrainTimeoutAt (j : Nat) (s : State) : State :=
  if !(lnk s j).trainReq then s
  else
    let r := linkAgain j s
    if r.1 then r.2 else trainDone j false r.2

/-- A link in service is lost: it is retrained, three attempts (R222). -/
def linkDownAt (j : Nat) (s : State) : State :=
  match linkPlace s j with
  | none => s
  | some (p, _) =>
    let k := lnk s j
    if !(war s p).alive || (war s p).lnkFence || k.trainReq || decide (k.trainMax = 0) then s
    else drive (.retrain j) (modLink j (fun k => { k with trainReq := true, attempts := 1, why := 2, retrains := k.retrains + 1, width := 0 }) s)

/-- A link error record (R222): counted, and a lane lost three times within a day is withdrawn. -/
def linkErrorAt (j kind lane cnt : Nat) (s : State) : State :=
  match linkPlace s j with
  | none => s
  | some (p, l) =>
    if !(war s p).alive || decide (4 < kind) then s
    else
      let s1 := modLink j (fun k => { k with errs := tmod 0 k.errs kind (fun n => satTo 4294967295 (n + cnt)) }) s
      if kind ≠ 3 then s1
      else
        let site := laneSite p l lane
        let t := now s
        let hits := ((tget [] s1.defects.laneHits site).filter (fun e => decide (t < e + dayNs))) ++ List.replicate (min cnt 3) t
        let s2 := nvWrite nvCounters <| modDefects (fun d => { d with laneHits := tset d.laneHits site (lastN 3 hits) }) s1
        if 3 ≤ hits.length then addEntry site 9 7 4 false s2 else s2

/-! ### Fence and drain rows -/

def memoryFenceAckAt (p m : Nat) (s : State) : State :=
  let k := chanOf s (2 * p + m)
  if 2 ≤ m ∨ !k.fenceReq then s
  else if k.drain = 1 then modChan (2 * p + m) (fun k => { k with fenceAck := true, drain := 2 }) s
  else if (resetOf s p).step = 3 ∧ !k.ready then
    step3Check p (modChan (2 * p + m) (fun k => { k with fenceAck := true, ready := true }) s)
  else s

def fenceAckTimeoutAt (p m : Nat) (s : State) : State :=
  if m < 2 ∧ (chanOf s (2 * p + m)).drain = 1 then endDrain p m 1 s else s

/-- mch_drained rises at a fenced channel (R57). -/
def memoryDrainedAt (p m : Nat) (s : State) : State :=
  let k := chanOf s (2 * p + m)
  if 2 ≤ m ∨ !k.fenceReq then s
  else
    let s1 := modChan (2 * p + m) (fun k => { k with drained := true }) s
    if k.drain = 2 ∨ k.drain = 3 then endDrain p m 0 s1 else s1

def drainTimeoutAt (p m : Nat) (s : State) : State :=
  if m < 2 ∧ (chanOf s (2 * p + m)).drain = 2 then modChan (2 * p + m) (fun k => { k with drain := 3, drainErr := true }) s else s

def drainStuckAt (p m : Nat) (s : State) : State :=
  if m < 2 ∧ (chanOf s (2 * p + m)).drain = 3 then endDrain p m 2 s else s

def transitWaitAt (p : Nat) (s : State) : State := if (resetOf s p).transit then orderReset p s else s

/-- A partition order that waits begins when no core or cluster of it is being reset (R274). -/
def beginWaiting (p : Nat) (s : State) : State :=
  let r := resetOf s p
  match r.level with
  | some l =>
    if r.step = 0 ∧ r.coreWait = [] ∧ p ∉ s.boot.detour then beginPartition p l r.by_ r.jobs r.counted false s else s
  | none => s

def detourTimeoutAt (p : Nat) (s : State) : State :=
  if p ∈ s.boot.detour then
    beginWaiting p (modReset p (fun r => { r with deepLost := true }) { s with boot := { s.boot with detour := s.boot.detour.filter (· ≠ p) } })
  else s

/-- A step exceeds its limit (R285). The time for which a stop holds a join does not count (R388). -/
def recoveryFailAt (p : Nat) (s : State) : State :=
  let w := war s p
  let r := w.reset
  let held : Bool := decide (r.step = 6) && decide (s.cairn.state ≠ 0) && w.ch0.keyQ.isEmpty && w.ch1.keyQ.isEmpty
  if (r.step = 0 ∧ r.done.isNone) ∨ r.wafer ∨ r.holdReset ∨ r.failDue.isSome ∨ held then s else recoveryFail p s

/-- The self-test of step 4 ends: what fails is withdrawn, and recovery continues (R283, R222). -/
def selfTestDoneAt (p : Nat) (engines controls : List Nat) (s : State) : State :=
  let r := resetOf s p
  if r.step ≠ 4 then s
  else
    let layer := if r.bringup then 4 else 3
    let s1 := forEach (engines.filter (fun i => okSite s (engineSite p i))) (fun i s =>
      if defState? s (engineSite p i) = some 4 then retireEntry (engineSite p i) rcConfirm s
      else if hasEntry s (engineSite p i) then s
      else withdrawEngine p i 3 layer 4 s) s
    let s2 := forEach (controls.filter (fun i => okSite s (unitSite p 4 i))) (fun i s => addEntry (unitSite p 4 i) 3 layer 4 false s) s1
    enterFirmware p s2

/-- The 100 ms of gathering end (Table 12.6). -/
def corefwRequestAt (s : State) : State :=
  match s.boot.gather with
  | none => s
  | some l => if mayBegin s then askFirmware (l.filter (fun p => (resetOf s p).step = 5)) { s with boot := { s.boot with gather := none } } else s

/-- The digest of a partition's image is compared (Table 12.6 steps 4 to 6). -/
def corefwDigestAt (p : Nat) (digest : BitVec 384) (s : State) : State :=
  let r := resetOf s p
  if r.step ≠ 5 ∨ !r.fwCheck then s
  else
    let s1 := modReset p (fun r => { r with fwCheck := false, fwAsked := false }) s
    if some digest = r.fwMan.map (·.digest) then
      drive (.rst p 0x3FD 0x1F) (modReset p (fun r => { r with fwStart := true }) s1)
    else if r.fwRetry then recoveryFail p (raise (evAt evCorefwFail (partSite p) [(2, p), (1, 1)]) s1)
    else
      enterFirmware p (modReset p (fun r => { r with fwRetry := true })
        (raise (evAt evCorefwRetry (partSite p) [(2, p), (48, digest.toNat)]) s1))

/-- No BOOT.CHECK named the partition in time. -/
def corefwFailAt (p : Nat) (s : State) : State :=
  let r := resetOf s p
  if r.step = 5 ∧ r.fwAsked ∧ !r.fwCheck then recoveryFail p (raise (evAt evCorefwFail (partSite p) [(2, p), (1, 2)]) s) else s

/-! ### Join (R312, R314, R225) -/

/-- What a site's entry holds at a join: its defect entry's state, else its own default. A position that holds a slot is
InService, and one that holds none is the spare, or Testing where it was Testing before the fence (Table 9.4). -/
def joinState (s : State) (p site : Nat) : Nat :=
  match defState? s site with
  | some st => st
  | none =>
    if isCoreSite site then (if (slotOfPos s p (siteCluster site) (siteSlot site)).isSome then stInService
      else if beneath s p (siteSrc site) = stTesting then stTesting else stSpare)
    else if site = partSite p then stProbation
    else stInService

/-- The core of a cluster that was Testing before the fence and has no entry (Table 9.4). -/
def testingOf (s : State) (p c : Nat) : Option Nat :=
  (List.range 17).find? (fun i => decide (beneath s p (srcOf c i) = stTesting) && !hasEntry s (coreSite p (srcOf c i)))

/-- Remap every position 0 to 15 whose core has an entry to position 16; a cluster that has not enough becomes short (R225, R312). A core
that was Testing holds no slot (Table 9.4), so its position is remapped in the same way; a slot that is vacated while the cluster's
seventeenth core is under test waits for that test's end (R221). DEDUCED, log entry 163. -/
def joinRemap (p : Nat) (s : State) : State :=
  let s0 := modW p (fun w => { w with clus := w.clus.map (fun k => (k.1, { k.2 with map := [] })) }) s
  let cs := ((s0.defects.tab.map (fun e => defSite e.2)).filter (fun x => isCoreSite x && decide (sitePart x = p))).map siteCluster
  let ts := (((mapNow (war s0 p)).map (·.1)).filter (fun x => isCoreSite x && decide (beneath s0 p (siteSrc x) = stTesting))).map siteCluster
  let move := fun (c i : Nat) (s : State) => drive (.remap p c i 16) (modClu p c (fun k => { k with map := tset [] i 16 }) s)
  forEach (cs ++ ts).eraseDups (fun c s =>
    let bad := (List.range 16).filter (fun i => hasEntry s (coreSite p (srcOf c i)))
    match bad, testingOf s p c with
    | [], none => s
    | [i], none => if hasEntry s (coreSite p (srcOf c 16)) then makeShort p c s else move c i s
    | l, some i => if 2 ≤ l.length ∨ hasEntry s (coreSite p (srcOf c 16)) then makeShort p c s else if i < 16 then move c i s else s
    | _, none => makeShort p c s) s0

/-- The batch of a join: every own site that the map or the table lists. -/
def joinBatch (s : State) (p : Nat) : List (Nat × Nat) :=
  let own := (((mapNow (war s p)).map (·.1) ++ s.defects.tab.map (fun e => siteKey (defSite e.2))).filter (fun x => decide (sitePart x = p)))
  let moved := (war s p).clus.flatMap (fun k => k.2.map.flatMap (fun e => [coreSite p (srcOf k.1 e.1), coreSite p (srcOf k.1 e.2)]))
  ((partSite p :: own ++ moved).eraseDups).map (fun x => (x, joinState s p x))

/-- A cluster that is short or has no spare cannot rotate: its start test counts as complete, and its start-untested active cores take
the last-test time join − D (R314). -/
def noRotation (p c : Nat) (s : State) : State :=
  let s1 := modW p (fun w => { w with startNoRot := w.startNoRot + 1 }) (modClu p c (fun k => { k with rot := 6, startDone := true }) s)
  forEach (List.range 17) (fun i s => modCore p (srcOf c i) (fun k =>
    { k with untested := false, lastTest := if k.untested && (slotOfPos s p c i).isSome then (war s p).timer - dTicks s else k.lastTest }) s) s1

/-- The start test of a cluster begins (R314). A core left in Testing restarts its full test (R200). -/
def startCluster (p c : Nat) (s : State) : State :=
  let again := fun (s : State) => match testingOf s p c with | some i => startTest p (srcOf c i) 0 s | none => s
  if isShort s p c then again (noRotation p c s)
  else
    match spareOf s p c with
    | some d => startTest p (srcOf c d) 1 (modClu p c (fun k => { k with rot := 4, startDone := false }) s)
    | none =>
      if (testingOf s p c).isNone then noRotation p c s
      else again (modClu p c (fun k => { k with rot := 3, startDone := false }) s)

/-- The map of a joining partition: remapped clusters and the batch of the join. -/
def joinMap (p : Nat) (s : State) : State :=
  let s1 := joinRemap p s
  switchBatch p true (openBatch p (joinBatch s1 p) s1)

/-- The fences of a joining partition open, and its probation begins. -/
def joinOpen (p : Nat) (fast : Bool) (s : State) : State :=
  let f := fun (k : Chan) => { k with fenceReq := false, fenceAck := false, drained := false, ready := false, drain := 0, stuck := 0 }
  modW p (fun w => { w with
    ch0 := f w.ch0, ch1 := f w.ch1, lnkFence := false, probation := true, fastJoin := fast, joinedAt := w.timer
    startOpen := !fast, startTested := 0, startQuar := 0, startNoRot := 0
    cores := allSrcs.foldl (fun k src => tmod {} k src (fun c => { c with lastTest := w.timer, untested := !fast && !hasEntry s (coreSite p src), before := none })) w.cores
    reset := { w.reset with level := none, step := 0, retry := false } }) s

/-- The clusters of a joining partition: the fast path tests no core at its start (R314, R315). -/
def joinClusters (p : Nat) (fast : Bool) (s : State) : State :=
  forEach (List.range 640) (fun c s =>
    if fast then modClu p c (fun k => { k with rot := if (spareOf s p c).isSome then 0 else 6, startDone := true, cand := none, inDebt := false }) s
    else startCluster p c (modClu p c (fun k => { k with cand := none, inDebt := false }) s)) s

/-- The widths of a partition's links. -/
def linkWidths (s : State) (p : Nat) : List Nat := (List.range (min 8 (linksAt s p))).map (fun l => (lnk s (globalLink s p l)).width.toNat)

/-- The join's last events wait for the entry's return at the owner and elsewhere (R312, R283). `r` is the bring-up or reset that ends. -/
def joinReport (p : Nat) (r : Reset) (s : State) : State := modReset p (fun x => { x with done := some (r.level.getD 2, r.deepLost) }) s

/-- Is a joined partition's whole-partition entry returned at its owner and at every other warden that works (R228)? -/
def entryReturned (s : State) (p : Nat) : Bool :=
  let k := siteKey (partSite p)
  !s.net.any (fun m => match m with
    | .switched q _ es => decide (q = p) && es.any (fun e => siteKey e.1 = k)
    | .sentry q x _ => (war s q).alive && decide (siteKey x = k)
    | _ => false) &&
  parts.all (fun q => !(war s q).alive || !((war s q).batch.getD [] ++ (war s q).mapDue.flatMap (·.2)).any (fun e => e.1 = k))

/-- EV_PARTITION_JOIN (R312, R323). -/
def joinEvent (p : Nat) (s : State) : State :=
  let widths := linkWidths s p
  raise (evAt evPartitionJoin (partSite p) ([(2, p), (1, joinPath (war s p)),
    (8, now s - s.boot.releasedAt), (4, (widths.filter (· ≠ 0)).length)] ++ widths.map (fun w => (1, w)))) s

/-- The end of a join: EV_PARTITION_JOIN (R312); of a recovery, EV_RESET_DONE and the final reply of its order too (R283 step 6). -/
def joinEnd (p : Nat) (s : State) : State :=
  match (resetOf s p).done with
  | none => s
  | some (lv, lost) =>
    let s1 := modReset p (fun r => { r with done := none }) (joinEvent p s)
    if (resetOf s p).bringup then s1
    else resetReply p stDone (raise (evAt evResetDone (partSite p) ([(4, partSite p), (1, lv), (8, recoveryNs s p), (1, flag lost)] ++
      (linkWidths s p).map (fun w => (1, w)))) s1)

/-- Joins whose entries are now returned everywhere end. -/
def joinEnds (s : State) : State :=
  if (serving s).isNone then s
  else forEach (parts.filter (fun p => (resetOf s p).done.isSome && entryReturned s p)) joinEnd s

/-- May a partition join: its step 6 reached, its key loads taken, its channels drained (R57), the device joins partitions (R289), no
stop holds the join (R388)? -/
def readyToJoin (s : State) (p : Nat) : Bool :=
  let w := war s p
  w.alive && decide (w.reset.step = 6) && w.reset.failDue.isNone && decide (s.boot.device = 0) && decide (s.cairn.state = 0) &&
  w.ch0.keyQ.isEmpty && w.ch1.keyQ.isEmpty && w.ch0.drained && w.ch1.drained

/-- A partition joins in probation. While joins may not begin, or a batch is open at its warden (R229), the join is kept due (R472). -/
def partitionJoinAt (p : Nat) (s : State) : State :=
  let r := resetOf s p
  if !readyToJoin s p then s
  else if !mayBegin s || mapWaits s p then keepDue (.join p) s
  else
    let fast := r.bringup && fastStart s
    let s1 := joinReport p r (joinClusters p fast (joinOpen p fast (joinMap p s)))
    judgeAll (keyPoll (startTestCheck p (modReset p (fun r => { r with deepLost := false }) s1)))

/-- A probation ends after its start test, or is kept due while its batch may not begin (R313, R472). -/
def probationEndAt (p : Nat) (s : State) : State :=
  if (war s p).probation && !(war s p).startOpen then
    (if mayBegin s then endProbation p (joinPath (war s p)) s else keepDue (.probation p) s)
  else s

/-! ### Reset acknowledgements -/

def coreOrClusterDone (p site : Nat) (s : State) : State :=
  let s1 := modReset p (fun r => { r with ordered := tdel r.ordered (siteKey site) }) (coreResetDone p site s)
  let s2 := match tfind (resetOf s p).ordered (siteKey site) with
    | none => s1
    | some t => raise (evAt evResetDone site [(4, site), (1, if isCoreSite site then 0 else 1), (8, now s1 - t), (1, 0)]) s1
  keyPoll (beginWaiting p (if isClusterSite site then scrubCluster p (siteCluster site) s2 else s2))

/-- A reset order is acknowledged on the reset channel (Table 11.2). -/
def resetAckAt (p site : Nat) (s : State) : State :=
  let c := site / 32
  let sl := site % 32
  let r := resetOf s p
  if c = 0x3FF ∨ c = 0x3FE then (if r.step = 2 ∧ sl = 0x1F then resetDone p s else s)
  else if c = 0x3FD then (if r.step = 5 ∧ r.fwStart ∧ sl = 0x1F then enterJoin p s else s)
  else
    let full := siteOf p c sl 0x3FF
    if full ∈ r.coreWait then coreOrClusterDone p full s
    else if isCoreSite full && !isWithdrawn s p site then testResetAck p site s
    else if isCoreSite full then testResetAck p site s
    else s

/-! ### Banks (R222, R278) -/

/-- Begin the power-down of a bank. -/
def startBankOff (p bank : Nat) (s : State) : State :=
  modW p (fun w => { w with bankOff := w.bankOff.filter (fun b => b.bank ≠ bank) ++ [{ bank }] }) (fenceEntry p (bankSite p bank) s)

def modBankOff (p bank : Nat) (f : BankOff → BankOff) (s : State) : State :=
  modW p (fun w => { w with bankOff := w.bankOff.map (fun b => if b.bank = bank then f b else b) }) s

def bankQuiesceEndAt (p bank : Nat) (s : State) : State := modBankOff p bank (fun b => if b.idle then b else { b with idle := true, since := (war s p).timer }) s

/-- The idle bit reads 1: the enable bit is driven to 0 (R62). -/
def bankIdleAt (p bank : Nat) (s : State) : State :=
  if !(war s p).bankOff.any (fun b => b.bank = bank && b.idle) then s
  else
    let f := fun (k : Chan) => { k with bankEn := setBit k.bankEn (bank % 64) false, bankOn := setBit k.bankOn (bank % 64) false }
    let s1 := modChan (2 * p + bank / 64) f (modW p (fun w => { w with bankOff := w.bankOff.filter (fun b => b.bank ≠ bank) }) s)
    let s2 := match defState? s1 (bankSite p bank) with | some st => if st = 5 then ownEntry p (bankSite p bank) st s1 else s1 | none => s1
    finish 0x1003 (bankSite p bank) stDone [] s2

def bankOffWaitAt (p bank : Nat) (s : State) : State :=
  match (war s p).bankOff.find? (fun b => b.bank = bank && b.idle && !b.told) with
  | none => s
  | some b =>
    raiseW p (evAt evBankOffWait (bankSite p bank) [(4, bankSite p bank), (8, 10 * ((war s p).timer - b.since))])
      (modBankOff p bank (fun b => { b with told := true }) s)

/-- pwr_bank_on of a bank rises: its entry is returned (R336). -/
def bankPowerOnAt (p bank : Nat) (s : State) : State :=
  let k := chanOf s (2 * p + bank / 64)
  if 128 ≤ bank ∨ !k.bankEn.getLsbD (bank % 64) ∨ k.bankOn.getLsbD (bank % 64) then s
  else
    ownEntry p (bankSite p bank) ((defState? s (bankSite p bank)).getD stInService)
      (modChan (2 * p + bank / 64) (fun k => { k with bankOn := setBit k.bankOn (bank % 64) true }) s)

/-- An uncorrectable page of a bank: the fourth within a day withdraws it (R222). -/
def memoryPoisonAt (p bank : Nat) (s : State) : State :=
  if !hearsPart s p || decide (128 ≤ bank) then s
  else
    let site := bankSite p bank
    let t := now s
    let hits := ((tget [] s.defects.bankHits site).filter (fun e => decide (t < e + dayNs))) ++ [t]
    let s1 := nvWrite nvCounters <| modDefects (fun d => { d with bankHits := tset d.bankHits site (lastN 4 hits) }) s
    if 4 ≤ hits.length then addEntry site 7 5 4 false s1 else s1

/-- A scrub order ends, perhaps with an error at a page of a bank (R222, R350). -/
def scrubOrderDoneAt (p m : Nat) (errBank : Option Nat) (s : State) : State :=
  if 2 ≤ m ∨ ((chanOf s (2 * p + m)).pass).isNone then s
  else
    let s1 := match errBank with | some b => if b < 64 then addEntry (bankSite p (64 * m + b)) 7 5 4 false s else s | none => s
    scrubDoneOps (2 * p + m) s1

def keyLoadAckAt (p m : Nat) (s : State) : State := if m < 2 then keyLoadAckOps (2 * p + m) s else s

/-! ### Wardens that hold or fail (R295, R296) -/

/-- No hub has taken the lease within 100 ms: the warden fences on its own. -/
def holdExpiredAt (p : Nat) (s : State) : State :=
  let w := war s p
  if !w.alive || w.lease.isSome || !w.lapsed || w.reset.holdReset then s
  else
    let s1 := raiseW p (evAt evWardenHoldExpired (partSite p) [(2, p), (8, 10 * w.lapseAt), (8, 10 * w.timer)]) (fencePart p s)
    modReset p (fun r => { r with holdReset := true, step := 1, quiesce := true, level := none, startAt := w.timer }) s1

/-- Jobs of a partition end as FORCE ends them, and their number. -/
def endJobsOn (p : Nat) (s : State) : Nat × State := let js := jobsOn s p; (js.length, endJobs js s)

/-- A hub that takes the lease of such a warden resets its partition; that reset does not count. One that a power-fail warning stopped
stays Fenced (R331). -/
def holdRecover (p : Nat) (s : State) : State :=
  if (resetOf s p).barred then (if (resetOf s p).step = 1 then s else modReset p (fun r => { r with holdReset := false }) s)
  else if (resetOf s p).holdReset then
    let r := endJobsOn p s
    beginPartition p 2 4 r.1 false false r.2
  else s

/-- The Primary declares a warden failed: for want of renewals (1) or of a live path (2) (R296). -/
def failWarden (p cause : Nat) (s : State) : State :=
  if (war s p).failed || (serving s).isNone then s
  else
    let s1 := addEntry (partSite p) 14 7 4 false (modW p (fun w => { w with failed := true }) s)
    let s2 := forEach (parts.filter (fun q => q ≠ p && (war s1 q).alive)) (fun q s => sendEntry q (partSite p) stQuarantined s) s1
    let r := endJobsOn p s2
    let s3 := raise (evAt evWardenFailed (partSite p) [(2, p), (1, cause), (4, r.1)]) r.2
    let s4 := forEach ((s3.tst.caps.filter (fun e => e.2.warden = p)).map (·.1)) abandonCap s3
    waferCheck (stayFenced p s4)

/-! ### The rows

What a warden takes from its partition it takes only while it lives (R69). -/

def execResetAck (p : Nat) (site : BitVec 15) (s : State) : Res0 := nextOf s (onAlive p (resetAckAt p site.toNat) s)
def execFenceQuiesceEnd (p : Nat) (s : State) : Res0 := nextOf s (onAlive p (quiesceEnd p) s)
def execMemoryFenceAck (p m : Nat) (s : State) : Res0 := nextOf s (onAlive p (memoryFenceAckAt p m) s)
def execFenceAckTimeout (p m : Nat) (s : State) : Res0 := nextOf s (onAlive p (fenceAckTimeoutAt p m) s)
def execMemoryDrained (p m : Nat) (s : State) : Res0 := nextOf s (onAlive p (memoryDrainedAt p m) s)
def execDrainTimeout (p m : Nat) (s : State) : Res0 := nextOf s (onAlive p (drainTimeoutAt p m) s)
def execDrainStuck (p m : Nat) (s : State) : Res0 := nextOf s (onAlive p (drainStuckAt p m) s)
def execDetourTimeout (p : Nat) (s : State) : Res0 := nextOf s (detourTimeoutAt p s)
def execTransitEmptyWait (p : Nat) (s : State) : Res0 := nextOf s (onAlive p (transitWaitAt p) s)
def execRecoveryFail (p : Nat) (s : State) : Res0 := nextOf s (recoveryFailAt p s)
def execBankQuiesceEnd (p bank : Nat) (s : State) : Res0 := nextOf s (onAlive p (bankQuiesceEndAt p bank) s)
def execBankIdle (p bank : Nat) (s : State) : Res0 := nextOf s (onAlive p (bankIdleAt p bank) s)
def execBankOffWait (p bank : Nat) (s : State) : Res0 := nextOf s (onAlive p (bankOffWaitAt p bank) s)
def execBankPowerOn (p bank : Nat) (s : State) : Res0 := nextOf s (onAlive p (bankPowerOnAt p bank) s)
def execMemoryPoison (p m : Nat) (page : BitVec 28) (bank : Nat) (s : State) : Res0 :=
  nextOf s (if m < 2 ∧ bank < 64 ∧ page.toNat < 5505024 then memoryPoisonAt p (64 * m + bank) s else s)
def execKeyLoadAck (p m : Nat) (s : State) : Res0 := nextOf s (onAlive p (keyLoadAckAt p m) s)
def execScrubOrderDone (p m : Nat) (errBank : Option Nat) (s : State) : Res0 := nextOf s (onAlive p (scrubOrderDoneAt p m errBank) s)
def execLinkTrainDone (j : Nat) (width : BitVec 2) (lanes : BitVec 8) (s : State) : Res0 := nextOf s (onLink j (linkTrainDoneAt j width lanes) s)
def execLinkTrainTimeout (j : Nat) (s : State) : Res0 := nextOf s (onLink j (linkTrainTimeoutAt j) s)
def execLinkDown (j : Nat) (s : State) : Res0 := nextOf s (linkDownAt j s)
def execLinkErrorRecord (j : Nat) (kind lane : BitVec 3) (cnt : BitVec 16) (s : State) : Res0 :=
  nextOf s (linkErrorAt j kind.toNat lane.toNat cnt.toNat s)
def execSelfTestDone (p : Nat) (failEngines failControl : List Nat) (s : State) : Res0 := nextOf s (onAlive p (selfTestDoneAt p failEngines failControl) s)
def execCorefwRequest (s : State) : Res0 := nextOf s (corefwRequestAt s)
def execCorefwDigest (p : Nat) (digest : BitVec 384) (s : State) : Res0 := nextOf s (onAlive p (corefwDigestAt p digest) s)
def execCorefwFail (p : Nat) (s : State) : Res0 := nextOf s (corefwFailAt p s)
def execPartitionJoin (p : Nat) (s : State) : Res0 := nextOf s (partitionJoinAt p s)
def execProbationEnd (p : Nat) (s : State) : Res0 := nextOf s (probationEndAt p s)
def execWardenHoldExpired (p : Nat) (s : State) : Res0 := nextOf s (holdExpiredAt p s)
def execWardenFailed (p cause : Nat) (s : State) : Res0 := nextOf s (failWarden p cause s)

end Sys2Proof.Machine
end

