-- ==== Sys2Proof/Machine/FenceCmd.lean ====
section
/-! DEFINITION. The commands of classes FENCE, BOOT and LINK (R272 to R274, R281, R286, R300, R308 to R310, R322, R436, R437,
R440), and the switch of a batch in bring-up (R227, R304). FENCE.RESTORE stands with the starts. -/

namespace Sys2Proof.Machine
open Sys2Proof

/-! ### The map switch -/

/-- The generation switch of a batch, not without hub contact (R24); the first of a bring-up orders the deep domain's reset (Table 12.3
steps 1 and 2). -/
def sentryBatchAt (p : Nat) (s : State) : State :=
  let w := war s p
  if !w.alive || w.lease.isNone || w.batch.isNone then s
  else
    let s1 := switchBatch p false s
    if w.reset.bringup ∧ w.reset.step = 1 then drive (.rst p 0x3FE 0x1F) (modReset p (fun r => { r with step := 2 }) s1) else s1

/-- A batch's switch lets a join that waited for it begin (R229, R472); a recovery ends once its entry is returned everywhere (R283). -/
def joinsGoOn (p : Nat) (s : State) : State :=
  joinEnds (if .join p ∈ s.sync.due ∧ mayBegin s ∧ !mapWaits s p then partitionJoinAt p (dropDue (.join p) s) else s)

/-- snt_clk restarts: a switch pending when it stopped takes effect at the first edge (R49). -/
def sntClkRestartAt (p : Nat) (s : State) : State := sentryBatchAt p s

/-! ### FENCE.RESET -/

/-- The opcode of FENCE.RESET, and the key of a wafer order. -/
def opReset : Nat := 0x0901
def waferKey : Nat := 4294967296

/-- The site form of a level (R436). -/
def levelSite (lv site : Nat) : Bool :=
  match lv with
  | 0 => isCoreSite site && decide (siteUnit site = 0x3FF)
  | 1 => isClusterSite site
  | _ => isPartSite site

/-- Is a site inside a domain that is being reset (R274)? -/
def inReset (s : State) (lv site : Nat) : Bool :=
  let r := resetOf s (sitePart site)
  decide (s.boot.wafReset ≠ 0) || r.level.isSome || decide (r.step ≠ 0) || r.done.isSome ||
    (decide (lv ≤ 1) && (decide (siteKey site ∈ r.coreWait) || decide (clusterSite (sitePart site) (siteCluster site) ∈ r.coreWait)))

/-- Has the partition an entry of KIND 8, 11 or 14, or does the certificate exclude it (R274, R234)? -/
def partBarred (s : State) (p : Nat) : Bool :=
  unlicensed s (partSite p) || (match defFind s (partSite p) with | some (_, e) => decide (defKind e ∈ [8, 11, 14]) | none => false)

/-- Epochs with an open tally to which a core of a domain has reported (R273). -/
def domainEpochs (s : State) (site : Nat) : List Nat :=
  let srcs := if isCoreSite site then [siteSrc site] else (List.range 17).map (fun i => srcOf (siteCluster site) i)
  ((war s (sitePart site)).tallies.filter (fun t => t.cores.any (fun k => k ∈ srcs))).map (·.epoch)

/-- Jobs of the barriers those epochs belong to. -/
def epochJobs (s : State) (es : List Nat) : List Nat := (es.filterMap (fun e => (objAt s e).map (fun o => o.2.job))).eraseDups

/-- 1 host, 2 operator (EV_RESET_BEGIN). -/
def orderedBy (c : Caller) : Nat := if c.role = 1 then 1 else 2

/-- A core or cluster reset begins; its EV_RESET_DONE follows when it is acknowledged. -/
def beginSmall (c : Caller) (lv site : Nat) (jobs : List Nat) (s : State) : State :=
  orderCoreReset (sitePart site) site <| modReset (sitePart site) (fun r => { r with ordered := tset r.ordered (siteKey site) (now s) })
    (raise (evAt evResetBegin site [(4, site), (1, lv), (1, orderedBy c), (4, jobs.length),
      (4, stampsIn (war s (sitePart site)).stamps (now s) partWindow)]) (endJobs jobs s))

/-- A partition or deep order is accepted: it begins at once, or waits (R274, R281). -/
def beginLarge (c : Caller) (lv p : Nat) (jobs : List Nat) (s : State) : State :=
  let s1 := modReset p (fun r => { r with level := some lv, by_ := orderedBy c, jobs := jobs.length, counted := true, deepLost := false, retry := false })
    (endJobs jobs s)
  if lv = 3 then raise (evAt evDetourRequest (partSite p) [(2, p)]) { s1 with boot := { s1.boot with detour := insertOnce s1.boot.detour p } }
  else beginWaiting p s1

/-- A wafer order (R286): every job ends, every recovery in progress is abandoned, and every partition fences and drains. -/
def beginWafer (c : Caller) (jobs : List Nat) (s : State) : State :=
  let s1 := raise (ev evResetBegin [(4, 0), (1, 4), (1, orderedBy c), (4, jobs.length), (4, stampsIn s.boot.wafers (now s) deviceWindow)])
    (endJobs jobs s)
  let s2 := finishOpen (fun o => decide (o.opcode.toNat ∈ [opReset, 0x0704]) && isPartSite o.key && decide (o.key ≠ waferKey)) stNotInService 0 (fun _ => []) s1
  let s3 := { s2 with boot := { s2.boot with wafReset := 1, detour := [] } }
  waferCheck (forEach (parts.filter (fun p => (war s3 p).alive)) (fun p s =>
    modReset p (fun r => { r with level := none, wafer := true, step := 1, done := none, failDue := none, quiesce := true, transit := false, bringup := false, holdReset := false,
                                  fwAsked := false, fwCheck := false, fwStart := false, linksLeft := [], startAt := (war s p).timer })
      (fencePart p s)) s3)

/-- A core or cluster reset is answered DONE when its order goes out with the jobs ended, as one commit (R422): it takes at most 40 µs (R274),
which is 0 ms (DEDUCED, log entry 96). -/
def fenceResetRow : CmdRow :=
  { op := opReset, roles := [0, 1], force := true, long := true, longAt := fun pk => decide (2 ≤ parB pk 4), named := [(0, 4), (4, 1)]
    body := fun c s =>
      let lv := parB c.pk 4
      let site := parN c.pk 0 4
      need (decide (lv ≤ 4)) (badAt 4) <|
      if lv = 4 then
        need (decide (site = 0)) (badAt 0) <|
        need (decide (s.boot.wafReset = 0)) ansFenced <|
        let jobs := liveJobs s (fun _ => true)
        if parts.any (fun p => (war s p).alive) then .opened waferKey jobs.length (beginWafer c jobs s)
        else .both (leBytes 2 jobs.length) (beginWafer c jobs s)
      else
        need (okSite s site && levelSite lv site) (badAt 0) <|
        let p := sitePart site
        if 2 ≤ lv then
          let jobs := jobsOn s p
          if partBarred s p then ansDenied
          else
            need (isForce c.pk || decide (jobs = [])) ansBusy <|
            need (!inReset s lv site && !(resetOf s p).barred) ansFenced <|
            .opened (partSite p) jobs.length (beginLarge c lv p jobs s)
        else
          let es := domainEpochs s site
          let jobs := epochJobs s es
          need (isForce c.pk || decide (es = [])) ansBusy <|
          need (partInService s p && !inReset s lv site) ansFenced <|
          .done (leBytes 2 jobs.length ++ leBytes 6 0) [] 0 (beginSmall c lv site jobs s) }

/-! ### FENCE.DETOUR and FENCE.STATUS -/

def fenceDetourRow : CmdRow :=
  { op := 0x0902, roles := [1], named := [(0, 1)]
    body := fun c s =>
      let p := parB c.pk 0
      need (decide (p ∈ s.boot.detour)) (badAt 0) <|
      ansOk (beginWaiting p { s with boot := { s.boot with detour := s.boot.detour.filter (· ≠ p) } }) }

/-- Three stamps of 8 bytes, oldest first; a missing one is 0 (log entry 28). -/
def stampBytes (l : List Nat) : List Byte := padTo 24 ((lastN 3 l).flatMap (fun t => leBytes 8 t))

/-- Liveness of a warden in FENCE.STATUS: 0 alive, 1 failed, 2 holding. -/
def wardenLive (w : Warden) : Nat := if w.failed then 1 else if w.lease.isNone then 2 else 0

def fenceStatusRow : CmdRow :=
  { op := 0x0903, roles := [0, 1], reads := true
    body := fun _ s =>
      .done [] (parts.flatMap (fun p =>
          let w := war s p
          leBytes 1 (reported s (partSite p)) ++ leBytes 1 (if w.reset.bringup then 0xFF else (w.reset.done.map (·.1)).getD (w.reset.level.getD 0xFF)) ++
          leBytes 1 (if w.reset.bringup then 0 else if w.reset.done.isSome then 6 else w.reset.step) ++ leBytes 1 (wardenLive w) ++ leBytes 4 0 ++ stampBytes w.stamps) ++
        leBytes 1 (roleCode s.hubA.role) ++ leBytes 1 (roleCode s.hubB.role) ++ leBytes 6 0 ++ stampBytes s.boot.wafers) 0 s }

/-! ### BOOT -/

def bootCorefwRow : CmdRow :=
  { op := 0x0A01, roles := [0, 1], pieced := true, named := [(4, 4)], plen := fun _ _ => none
    body := fun c s => piece c s 0x0A01 0 4324 (fun all s =>
      let f := manifestFault 1 all
      if f ≠ 0 then .errWith stBadParam 0xFFFF f s
      else if fieldAt all 12 2 ≠ s.quarry.stepping then .errWith stBadParam 0xFFFF 4 s
      else
        let m : Manifest := { imgver := fieldAt all 8 4, step := fieldAt all 12 2, len := fieldAt all 16 4, offset := fieldAt all 20 4,
                              digest := manifestDigest all }
        ansOk (firmwareAll { s with boot := { s.boot with manifest := some m } })) }

/-- Does a partition wait at step 5 for its check (R310)? -/
def waitsCheck (s : State) (p : Nat) : Bool := let r := resetOf s p; decide (r.step = 5) && r.fwAsked && !r.fwCheck

/-- The warden orders bytes OFFSET to OFFSET + LEN − 1 of its load's manifest (Table 12.6 step 4). -/
def imageOrder (p : Nat) (s : State) : State :=
  match (resetOf s p).fwMan with
  | some m => drive (.image p m.offset m.len) s
  | none => s

def bootCheckRow : CmdRow :=
  { op := 0x0A02, roles := [0, 1], named := [(0, 16)]
    body := fun c s => needMask c.pk 0 (fun ps =>
      let go := ps.filter (waitsCheck s)
      .done (leBytes 16 (partsMask (ps.filter (fun p => !waitsCheck s p))).toNat) [] 0
        (forEach go (fun p s => imageOrder p (modReset p (fun r => { r with fwCheck := true }) s)) s)) }

/-- Start-test progress in thousandths (log entry 28): 0 before the join, 1,000 once no start test is under way. -/
def startProgress (s : State) (p : Nat) : Nat :=
  let w := war s p
  if !partInService s p then 0
  else if !w.startOpen then 1000
  else
    let left := (w.cores.filter (fun k => k.2.untested)).length
    if w.startTested + left = 0 then 1000 else 1000 * w.startTested / (w.startTested + left)

def bootStatusRow : CmdRow :=
  { op := 0x0A03, roles := [0, 1], reads := true
    body := fun c s =>
      let x := hubOf s c.hub
      .done [] (leBytes 1 x.kind ++ leBytes 1 (if s.boot.fast then 2 else 1) ++ leBytes 1 s.hubA.fwSlot ++ leBytes 1 s.hubB.fwSlot ++
        leBytes 4 s.hubA.imgver.toNat ++ leBytes 4 s.hubB.imgver.toNat ++ leBytes 4 0 ++
        parts.flatMap (fun p =>
          let w := war s p
          let widths := (List.range (min 8 (linksAt s p))).foldl (fun n l => n + (lnk s (globalLink s p l)).width.toNat * 4 ^ l) 0
          leBytes 1 (if w.reset.bringup then (if w.reset.done.isSome then 6 else w.reset.step) else 0) ++ leBytes 1 (flag w.probation) ++ leBytes 2 (startProgress s p) ++
          leBytes 2 widths ++ leBytes 2 0)) 0 s }

/-- Manifest and image go to the slot not running in each hub (R322); in the peer, where it takes mirrored writes (R19). -/
def writeFirmware (h : HubId) (all : List Byte) (s : State) : State :=
  let put := fun (g : HubId) => modHub g (fun x => { x with fwImg := tset x.fwImg (1 - x.fwSlot) all })
  nvWrite nvFirmware (put h (if writesAlone s h then s else put (other h) s))

def bootFwloadRow : CmdRow :=
  { op := 0x0A04, roles := [0], pieced := true, named := [(4, 4)], plen := fun _ _ => none
    body := fun c s => piece c s 0x0A04 0 1048576 (fun all s =>
      let f := imageFault all
      if f ≠ 0 then .errWith stBadParam 0xFFFF f s
      else
        ansOk (writeFirmware c.hub all s)) }

/-! ### LINK -/

def linkTrainRow : CmdRow :=
  { op := 0x1101, roles := [0, 1], long := true, named := [(0, 4), (4, 1)]
    body := fun c s => needSite s c.pk 0 isLinkSite (fun site =>
      let p := sitePart site
      let j := globalLink s p (siteIdx site / 16)
      let w := parB c.pk 4
      need (strapsOk s p && s.keys.variant.links.getLsbD j) (badAt 0) <|
      need (decide (1 ≤ w) && decide (w ≤ 3)) (badAt 4) <|
      need (!(lnk s j).trainReq) ansBusy <|
      need (partInService s p) ansFenced <|
      .opened site 0 (trainLink j 1 (BitVec.ofNat 2 w) (sendEntry p site stFenced s))) }

def linkStatusRow : CmdRow :=
  { op := 0x1102, roles := [0, 1], reads := true
    body := fun _ s =>
      .done [] ((List.range 48).flatMap (fun j =>
        match linkPlace s j with
        | none => leBytes 32 0
        | some (p, l) =>
          let k := lnk s j
          leBytes 1 (reported s (linkSite p l)) ++ leBytes 1 k.width.toNat ++ leBytes 1 k.lanesOk.toNat ++ leBytes 1 k.attempts ++
          (List.range 5).flatMap (fun i => leBytes 4 (satTo 4294967295 (tget 0 k.errs i))) ++ leBytes 4 k.retrains ++ leBytes 4 (linkSite p l))) 0 s }

/-! ### The rows -/

def execSntClkRestart (p : Nat) (s : State) : Res0 := nextOf s (joinEnds (sntClkRestartAt p s))
def execSentryBatch (p : Nat) (s : State) : Res0 := nextOf s (joinEnds (sentryBatchAt p s))
def execSentryEntryUpdate (p : Nat) (site : BitVec 32) (s : State) : Res0 := nextOf s (joinEnds (sentryUpdateAt p site.toNat s))
def execSentrySwitchAck (p : Nat) (s : State) : Res0 := nextOf s (joinsGoOn p (switchAckAt p s))
def execFenceReset (pk : Packet) (s : State) : Res0 := nextOf s (runCmd fenceResetRow (.fenceReset pk) pk s)
def execFenceDetour (pk : Packet) (s : State) : Res0 := nextOf s (runCmd fenceDetourRow (.fenceDetour pk) pk s)
def execFenceStatus (pk : Packet) (s : State) : Res0 := nextOf s (runCmd fenceStatusRow (.fenceStatus pk) pk s)
def execBootCorefw (pk : Packet) (s : State) : Res0 := nextOf s (runCmd bootCorefwRow (.bootCorefw pk) pk s)
def execBootCheck (pk : Packet) (s : State) : Res0 := nextOf s (runCmd bootCheckRow (.bootCheck pk) pk s)
def execBootStatus (pk : Packet) (s : State) : Res0 := nextOf s (runCmd bootStatusRow (.bootStatus pk) pk s)
def execBootFwload (pk : Packet) (s : State) : Res0 := nextOf s (runCmd bootFwloadRow (.bootFwload pk) pk s)
def execLinkTrain (pk : Packet) (s : State) : Res0 := nextOf s (runCmd linkTrainRow (.linkTrain pk) pk s)
def execLinkStatus (pk : Packet) (s : State) : Res0 := nextOf s (runCmd linkStatusRow (.linkStatus pk) pk s)

end Sys2Proof.Machine
end

