-- ==== Sys2Proof/Machine/KeyCmd.lean ====
section
/-! DEFINITION. The commands of classes KEY and SCRUB (R342, R349, R351, R354 to R358, R361, R362, R438). -/

namespace Sys2Proof.Machine
open Sys2Proof

/-! ### KEY.ID and KEY.ATTEST -/

/-- The object of KEY.ID for a hub. -/
def keyIdObject (s : State) (h : HubId) : List Byte :=
  let x := hubOf s h
  let chain := Config.hubChain (isB h)
  leBytes 8 x.keyId.toNat ++ leBytes 8 x.agKeyId.toNat ++ leBytes 4 chain.length ++ chain ++ x.agCert

def keyIdRow : CmdRow :=
  { op := 0x0B01, roles := [0, 1, 2], reads := true, named := [(0, 1), (4, 4)]
    body := fun c s =>
      let h : HubId := if parB c.pk 0 = 1 then .b else .a
      let off := parN c.pk 4 4
      let obj := keyIdObject s h
      need (decide (parB c.pk 0 ≤ 1)) (badAt 0) <|
      need (decide (off ≤ obj.length)) (badAt 4) <|
      need (decide ((hubOf s h).role ≠ .down)) ansFenced <|
      .done (leBytes 4 obj.length) ((obj.drop off).take 4096) 0 s }

/-- P_h of R80: Active patterns harvested or imported. -/
def harvested (s : State) : Nat := ((activePats s).filter (fun e => e.2.source ≠ 0)).length

/-- Bytes 0 to 191 of the attestation report (Table 14.2). -/
def attestReport (s : State) (h : HubId) (nonce : List Byte) : List Byte :=
  let x := hubOf s h
  leBytes 4 0x41545354 ++ leBytes 2 0x0062 ++ leBytes 2 0x0B01 ++ leBytes 8 s.hubA.keyId.toNat ++ leBytes 8 s.hubB.keyId.toNat ++
  leBytes 1 (roleCode s.hubA.role) ++ leBytes 1 (roleCode s.hubB.role) ++ leBytes 1 s.boot.profile.id ++ leBytes 1 0 ++
  leBytes 4 x.imgver.toNat ++ leBytes 48 x.fwDigest.toNat ++
  leBytes 48 ((s.boot.manifest.map (fun m => m.digest.toNat)).getD 0) ++ leBytes 8 s.keys.variant.digest.toNat ++ leBytes 8 x.time ++
  leBytes 4 s.defects.commits ++ leBytes 4 (harvested s) ++ leBytes 8 0 ++ nonce

def keyAttestRow : CmdRow :=
  { op := 0x0B02, roles := [0, 1, 2], reads := true, named := [(0, 32)]
    body := fun c s =>
      let r := attestReport s c.hub (leBytes 32 c.pk.param.toNat)
      .done [] (r ++ padTo 96 (signAs (isB c.hub) (Config.sha384 r))) 0 s }

/-! ### Contexts -/

/-- A context at a PARAM byte: in range, and the caller's (R367). -/
def needCtx (c : Caller) (s : State) (lo : Nat) (k : Nat → Ctx → Ans) : Ans :=
  let n := parB c.pk lo
  if 64 ≤ n then badAt lo
  else if c.role = 2 ∧ (ctxOf s n).tenant ≠ c.tenant then ansDenied
  else k n (ctxOf s n)

/-- A context that changes, and a change that no partition's reset holds back (R349, R351). -/
def mayChange (c : Caller) (s : State) (x : Ctx) (k : Ans) : Ans :=
  need (decide (x.state = 0)) ansBusy (need (isForce c.pk || !changeWaits s) ansBusy k)

def keyAssignRow : CmdRow :=
  { op := 0x0B03, roles := [1], named := [(0, 1), (1, 1)]
    body := fun c s =>
      let n := parB c.pk 0
      need (decide (1 ≤ n) && decide (n < 64)) (badAt 0) <|
      need (decide (1 ≤ parB c.pk 1)) (badAt 1) <|
      need (decide ((ctxOf s n).state = 0) && decide ((ctxOf s n).tenant = 0)) badAny <|
      ansOk (modCtx n (fun x => { x with tenant := parB c.pk 1 }) s) }

def keyRotateRow : CmdRow :=
  { op := 0x0B04, roles := [1, 2], force := true, long := true, named := [(0, 1)]
    body := fun c s => needCtx c s 0 (fun n x =>
      need (decide (x.state ≠ 0) || decide (x.wsrc = 0)) badAny <|
      mayChange c s x (.slow n 0 (rotateCtx n none s))) }

def keyUnbindRow : CmdRow :=
  { op := 0x0B07, roles := [1, 2], force := true, long := true, named := [(0, 1)]
    body := fun c s => needCtx c s 0 (fun n x =>
      need (decide (x.state ≠ 0) || decide (x.wsrc = 1)) badAny <|
      mayChange c s x (.slow n 0 (rotateCtx n none s))) }

/-! ### Slots -/

/-- A slot number at a PARAM byte: below KEYSLOTS (R234). -/
def needSlot (c : Caller) (s : State) (k : Nat → KSlot → Ans) : Ans :=
  let n := parN c.pk 0 2
  if s.keys.keySlots ≤ n then badAt 0 else k n (slotOf s n)

/-- Contexts whose record names a slot. -/
def namesSlot (s : State) (n : Nat) : List Nat :=
  (List.range 64).filter (fun i => let x := ctxOf s i; (decide (x.wsrc = 1) && decide (x.wslot = n)) || (decide (x.osrc = 1) && decide (x.oslot = n)))

/-- The content key a hub unwraps from a blob: from the record that bears its own agreement key ID (R354, R355). -/
def unwrapBlob (s : State) (h : HubId) (b : List Byte) : Option (BitVec 512) :=
  let recs := (List.range (fieldAt b 6 1)).map (fun i => slice b (32 + 197 * i) 197)
  match recs.find? (fun r => fieldAt r 0 8 = (hubOf s h).agKeyId.toNat) with
  | none => none
  | some r => unwrapRec (isB h) b r

/-- The fields of a blob (Table 14.5). -/
def blobOk (b : List Byte) : Bool :=
  decide (fieldAt b 0 4 = 0x574B4559) && decide (fieldAt b 4 2 = 1) && decide (1 ≤ fieldAt b 6 1) && decide (fieldAt b 6 1 ≤ 64) &&
  zeroAt b 7 1 && zeroAt b 24 8 && decide (b.length = 32 + 197 * fieldAt b 6 1)

/-- The whole blob at the last piece (R355). -/
def unwrapDone (c : Caller) (n : Nat) (b : List Byte) (s : State) : Ans :=
  let bad : Ans := .errWith stBadParam 0xFFFF 0 s
  let cid := BitVec.ofNat 128 (fieldAt b 8 16)
  if !blobOk b || (namesSlot s n).any (fun i => (ctxOf s i).cid ≠ cid) then bad
  else
    match unwrapBlob s c.hub b with
    | none => bad
    | some key =>
      let o := other c.hub
      let live := decide ((hubOf s o).role ≠ .down)
      let peer := if live then unwrapBlob s o b else none
      let one := live && peer.isNone
      let x : KSlot :=
        { filled := true, oneSided := one, owner := if c.role = 2 then c.tenant else 0, cid, blob := b,
          keyA := (match c.hub with | .a => some key | .b => peer), keyB := (match c.hub with | .a => peer | .b => some key) }
      let s1 := { s with keys := { s.keys with slots := tset s.keys.slots n x } }
      let s2 := if one then raise (ev evKeySlotOnesided [(2, n), (1, hubNum o)]) s1
        else raise (ev evKeySlotFilled [(2, n), (1, x.owner), (16, cid.toNat)]) s1
      .done [BitVec.ofNat 8 (flag one)] [] 0 (loadBlocked n s2)

def keyUnwrapRow : CmdRow :=
  { op := 0x0B05, roles := [1, 2], pieced := true, named := [(0, 2), (4, 4)], plen := fun _ _ => none
    body := fun c s => needSlot c s (fun n x =>
      if x.filled then (if c.role = 2 ∧ x.owner ≠ c.tenant then ansDenied else badAt 0)
      else piece c s 0x0B05 n 12640 (unwrapDone c n)) }

/-- A tenant's own slot and context come before the range of either (Table 17.3). -/
def keyBindRow : CmdRow :=
  { op := 0x0B06, roles := [1, 2], force := true, long := true, named := [(0, 2), (2, 1)]
    body := fun c s =>
      let slot := parN c.pk 0 2
      let ctx := parB c.pk 2
      if c.role = 2 ∧ (slot < s.keys.keySlots ∧ (slotOf s slot).owner ≠ c.tenant ∨ ctx < 64 ∧ (ctxOf s ctx).tenant ≠ c.tenant) then ansDenied
      else needSlot c s (fun n k => needCtx c s 2 (fun i x =>
        let both := decide (s.hubA.role ≠ .down) && decide (s.hubB.role ≠ .down)
        need (k.filled && (decide (c.role = 2) || (decide (k.owner = 0) && decide (x.tenant = 0)))) badAny <|
        need (decide (x.state ≠ 0) || decide (x.wsrc = 0)) badAny <|
        need (!(k.oneSided && both)) badAny <|
        mayChange c s x (.slow i 0 (rotateCtx i (some n) s)))) }

def keySlotfreeRow : CmdRow :=
  { op := 0x0B08, roles := [0, 1, 2], named := [(0, 2)]
    body := fun c s => needSlot c s (fun n k =>
      if c.role = 2 ∧ !(k.filled && decide (k.owner = c.tenant)) then ansDenied
      else
        need (decide (namesSlot s n = [])) badAny <|
        ansOk { s with keys := { s.keys with slots := tdel s.keys.slots n } }) }

/-! ### Roots and the variant certificate -/

/-- Kernels accepted under a root (R361). -/
def kernelsUnder (s : State) (t : Nat) (key : List Byte) : List Nat :=
  (s.tst.kernels.filter (fun k => decide (k.2.tenant = t) && decide (k.2.root = key))).map (·.1)

def keyTrootRow : CmdRow :=
  { op := 0x0B09, roles := [0], named := [(0, 1), (1, 1), (2, 1)], plen := fun _ _ => some 97
    body := fun c s =>
      let t := parB c.pk 1
      let key := payOf c.pk
      let mine := fun (r : Root) => decide (r.tenant = t) && decide (r.key = key)
      let rest := s.keys.roots.filter (fun r => !mine r)
      need (decide (parB c.pk 0 ≤ 1)) (badAt 0) <|
      need (decide (1 ≤ t)) (badAt 1) <|
      need (decide (parB c.pk 2 ≤ 3)) (badAt 2) <|
      if parB c.pk 0 = 0 then
        need (decide ((rest.filter (fun r => r.tenant = t)).length < 4) && decide (rest.length < 256)) badAny <|
        ansOk (nvWrite nvVariant { s with keys := { s.keys with roots := rest ++ [{ tenant := t, flags := parB c.pk 2, key }] } })
      else
        need (s.keys.roots.any mine) badAny <|
        let ks := kernelsUnder s t key
        let s1 := nvWrite nvVariant { s with keys := { s.keys with roots := rest } }
        if ks = [] then ansOk s1 else .both [] (forEach ks unloadKernel s1) }

/-- A variant certificate of a byte string (Table 9.7). -/
def parseVariant (b : List Byte) : Variant :=
  { member := fieldAt b 4 2, step := fieldAt b 6 2, huba := w64 (fieldAt b 8 8), hubb := w64 (fieldAt b 16 8),
    parts := BitVec.ofNat 104 (fieldAt b 24 13), links := BitVec.ofNat 48 (fieldAt b 37 6), cells := fieldAt b 43 1, lanes := fieldAt b 44 1,
    slots := fieldAt b 45 2, fail := 0, digest := (Config.sha384 b).setWidth 64 }

/-- Fields of a variant certificate in range, reserved ones 0. -/
def variantFields (b : List Byte) : Bool :=
  let v := parseVariant b
  let cl := fieldAt b 64 4
  decide (fieldAt b 0 4 = 0x56524E54) && decide (v.parts >>> 98 = 0) && decide (1 ≤ v.cells) && decide (v.cells ≤ 16) && decide (v.lanes ≤ 4) &&
  decide (1 ≤ v.slots) && decide (v.slots ≤ 256) && zeroAt b 47 17 && decide (1 ≤ cl) && decide (cl ≤ 4096) && decide (b.length = 68 + cl + 96)

/-- Cause of EV_VARIANT_INVALID for the identities of a certificate, 0 where they match: 4 member, 5 stepping, 6 hub key ID. A hub
that is not live is taken as stated (R302). -/
def variantIds (s : State) (v : Variant) : Nat :=
  let bad := fun (x : Hub) (k : BitVec 64) => x.started && decide (x.role ≠ .down) && decide (x.keyId ≠ k)
  if v.member ≠ 0x62 then 4 else if v.step ≠ 0x0B01 then 5 else if bad s.hubA v.huba || bad s.hubB v.hubb then 6 else 0

/-- The first failing check of R233, 0 where all pass. -/
def variantFault (s : State) (b : List Byte) : Nat :=
  let cert := slice b 68 (fieldAt b 64 4)
  if !variantFields b then 1
  else if !Config.sigVerifies (b.take (b.length - 96)) cert (b.drop (b.length - 96)) then 2
  else if !Config.chainOk cert then 3
  else variantIds s (parseVariant b)

def keyVariantRow : CmdRow :=
  { op := 0x0B0A, roles := [0], pieced := true, named := [(4, 4)], plen := fun _ _ => none
    body := fun c s => piece c s 0x0B0A 0 4260 (fun all s =>
      let f := variantFault s all
      if f ≠ 0 then .errWith stBadParam 0xFFFF f s
      else
        let v := parseVariant all
        ansOk (nvWrite nvVariant (raise (ev evVariantStaged [(8, v.digest.toNat)]) { s with keys := { s.keys with staged := some v } }))) }

/-! ### KEY.STATUS -/

/-- The 32 bytes of a context record (Table 14.3). -/
def ctxBytes (x : Ctx) : List Byte :=
  leBytes 1 x.state ++ leBytes 1 x.tenant ++ leBytes 1 x.wsrc ++ leBytes 1 x.osrc ++ leBytes 4 x.wepoch ++ leBytes 4 x.oepoch ++
  leBytes 2 x.wslot ++ leBytes 2 x.oslot ++ leBytes 16 x.cid.toNat

/-- May the caller see a context or slot of an owner? -/
def sees (c : Caller) (owner : Nat) : Bool := decide (c.role ≠ 2) || decide (owner = c.tenant)

/-- A channel of KEY.STATUS: contexts served by its pass, orders done, purge bits. -/
def chanBytes (c : Caller) (s : State) (ch : Nat) : List Byte :=
  let mine := fun (l : List Nat) => (maskOf 64 (l.filter (fun i => sees c (ctxOf s i).tenant))).toNat
  let pass := (chanOf s ch).pass
  leBytes 8 (mine ((pass.map (·.2)).getD [])) ++ leBytes 1 ((pass.map (·.1)).getD 0) ++ leBytes 7 0 ++ leBytes 8 (mine (marked s ch))

def slotBytes (c : Caller) (k : KSlot) : List Byte :=
  if k.filled && sees c k.owner then
    leBytes 1 k.owner ++ leBytes 1 (1 + 2 * flag k.oneSided) ++ leBytes 6 0 ++ leBytes 16 k.cid.toNat
  else leBytes 24 0

def keyStatusRow : CmdRow :=
  { op := 0x0B0B, roles := [0, 1, 2], reads := true, named := [(0, 1), (1, 1), (2, 2)]
    body := fun c s =>
      match parB c.pk 0 with
      | 0 => .done [] ((List.range 64).flatMap (fun i => if sees c (ctxOf s i).tenant then ctxBytes (ctxOf s i) else leBytes 32 0)) 0 s
      | 1 =>
        let p := parB c.pk 1
        need (decide (p < 98)) (badAt 1) (.done [] (chanBytes c s (2 * p) ++ chanBytes c s (2 * p + 1)) 0 s)
      | 2 =>
        let n := parN c.pk 2 2
        need (decide (n < s.keys.keySlots)) (badAt 2) <|
        .done [] ((List.range (min 128 (s.keys.keySlots - n))).flatMap (fun i => slotBytes c (slotOf s (n + i)))) 0 s
      | _ => badAt 0 }

/-! ### SCRUB -/

def scrubTenantRow : CmdRow :=
  { op := 0x0C01, roles := [0, 1], force := true, long := true, named := [(0, 1), (16, 16)]
    body := fun c s =>
      let t := parB c.pk 0
      need (decide (1 ≤ t)) (badAt 0) <|
      needMask c.pk 16 (fun _ =>
        let jobs := liveJobs s (fun x => decide (tfind s.sync.jobs x.job = some t))
        need (!underScrub s t) ansBusy <|
        need (isForce c.pk || decide (jobs = [])) ansBusy <|
        need (isForce c.pk || decide (ctxsOf s t = []) || !changeWaits s) ansBusy <|
        .opened t jobs.length (beginScrub t (BitVec.ofNat 128 (parN c.pk 16 16)) jobs s)) }

/-- Step of Table 14.6 that a scrub has reached. -/
def scrubStep (x : Scrub) : Nat := if x.step = 6 ∧ x.clusters.isEmpty then 7 else x.step

def scrubStatusRow : CmdRow :=
  { op := 0x0C02, roles := [0, 1], reads := true, named := [(0, 1)]
    body := fun c s =>
      need (decide (1 ≤ parB c.pk 0)) (badAt 0) <|
      match s.keys.scrubs.find? (fun x => x.tenant = parB c.pk 0) with
      | none => .done (leBytes 8 0) [] 0 s
      | some x => .done (leBytes 1 (scrubStep x) ++ leBytes 3 0 ++ leBytes 4 ((x.ctxs.map (fun i => (ctxOf s i).need.length)).sum)) [] 0 s }

/-! ### The rows -/

def execKeyId (pk : Packet) (s : State) : Res0 := nextOf s (runCmd keyIdRow (.keyId pk) pk s)
def execKeyAttest (pk : Packet) (s : State) : Res0 := nextOf s (runCmd keyAttestRow (.keyAttest pk) pk s)
def execKeyAssign (pk : Packet) (s : State) : Res0 := nextOf s (runCmd keyAssignRow (.keyAssign pk) pk s)
def execKeyRotate (pk : Packet) (s : State) : Res0 := nextOf s (keyPoll (runCmd keyRotateRow (.keyRotate pk) pk s))
def execKeyUnwrap (pk : Packet) (s : State) : Res0 := nextOf s (keyPoll (runCmd keyUnwrapRow (.keyUnwrap pk) pk s))
def execKeyBind (pk : Packet) (s : State) : Res0 := nextOf s (keyPoll (runCmd keyBindRow (.keyBind pk) pk s))
def execKeyUnbind (pk : Packet) (s : State) : Res0 := nextOf s (keyPoll (runCmd keyUnbindRow (.keyUnbind pk) pk s))
def execKeySlotfree (pk : Packet) (s : State) : Res0 := nextOf s (runCmd keySlotfreeRow (.keySlotfree pk) pk s)
def execKeyTroot (pk : Packet) (s : State) : Res0 := nextOf s (runCmd keyTrootRow (.keyTroot pk) pk s)
def execKeyVariant (pk : Packet) (s : State) : Res0 := nextOf s (runCmd keyVariantRow (.keyVariant pk) pk s)
def execKeyStatus (pk : Packet) (s : State) : Res0 := nextOf s (runCmd keyStatusRow (.keyStatus pk) pk s)
def execScrubTenant (pk : Packet) (s : State) : Res0 := nextOf s (keyPoll (runCmd scrubTenantRow (.scrubTenant pk) pk s))
def execScrubStatus (pk : Packet) (s : State) : Res0 := nextOf s (runCmd scrubStatusRow (.scrubStatus pk) pk s)

end Sys2Proof.Machine
end

