-- ==== Sys2Proof/Machine/QuarCmd.lean ====
section
/-! DEFINITION. The commands of class QUAR (R223, R224, R235, R434). -/

namespace Sys2Proof.Machine
open Sys2Proof

/-! ### QUAR.LIST and QUAR.STATE -/

def quarListRow : CmdRow :=
  { op := 0x0701, roles := [0, 1], reads := true, named := [(0, 2), (2, 2)]
    body := fun c s =>
      let first := parN c.pk 0 2
      let n := parN c.pk 2 2
      need (decide (first < 32768)) (badAt 0) <|
      need (decide (1 ≤ n) && decide (n ≤ 400)) (badAt 2) <|
      let l := s.defects.tab.filter (fun e => decide (first ≤ e.1))
      let next := match (l.drop n).head? with | some e => e.1 | none => 32768
      .done (leBytes 2 next ++ leBytes 2 s.defects.tab.length) ((l.take n).flatMap (fun e => leBytes 8 e.2.toNat)) 0 s }

/-- The state held for a site and the answer the owning warden's map gives; a hub's own resources have no sentry. -/
def siteStatus (s : State) (site : Nat) : List Byte :=
  leBytes 1 (reported s site) ++ leBytes 1 (match ownerOf site with | some p => (answerAt s p site).toNat | none => 0)

def quarStateRow : CmdRow :=
  { op := 0x0702, roles := [0, 1], reads := true, named := [(0, 2)], plen := fun _ pk => some (4 * parN pk 0 2)
    body := fun c s =>
      let n := parN c.pk 0 2
      let pay := payOf c.pk
      need (decide (1 ≤ n) && decide (n ≤ 256)) (badAt 0) <|
      match (List.range n).find? (fun i => !okSite s (fieldAt pay (4 * i) 4)) with
      | some i => .err stBadParam (64 + 4 * i) 0
      | none => .done [] ((List.range n).flatMap (fun i => siteStatus s (fieldAt pay (4 * i) 4))) 0 s }

/-! ### QUAR.SET -/

/-- A whole hub is no resource of Tables 9.4 and 9.5. -/
def isHubSite (site : Nat) : Bool := decide (0x7E ≤ sitePart site) && decide (siteCluster site = 0x3FF)

/-- A hub's own resource is put out of use or back: a cell, a management core, a trace lane. -/
def hubUnitTo (site st : Nat) (s : State) : State :=
  let h := siteHub site
  let i := siteIdx site
  if isCellSite site then
    let key := cellKey h i
    let s1 := match (cellOf s key).work with
      | some w => modCap w.cid (fun c => { c with stage := 4, susp := none }) s
      | none => s
    let s2 := modCell key (fun x => { x with state := st, kat := 0, work := if st = 0 then x.work else none }) s1
    offerCells h (if (cellOf s key).kat = 2 then finish 0x0704 site stDone [BitVec.ofNat 8 (if st = 0 then stInService else st)] s2 else s2)
  else if isMgmtSite site then modHub h (fun x => { x with mgmtOut := if st = 0 then x.mgmtOut else insertOnce x.mgmtOut i }) s
  else if 0x7E ≤ sitePart site ∧ siteKind site = 2 ∧ i < 4 then
    modHub h (fun x => { x with trace := { x.trace with lanesOut := setBit x.trace.lanesOut i (decide (st ≠ 0)) } }) s
  else s

/-- What a Retired bank adds, its power-down (R222); and what a withdrawn partition adds: its channels serve no change of
keys (R351). -/
def withdrawMore (site st : Nat) (s : State) : State :=
  if isBankSite site ∧ st = 5 then startBankOff (sitePart site) (siteIdx site) s
  else if isPartSite site then loseChans (sitePart site) (stopPasses (sitePart site) s)
  else s

def quarSetRow : CmdRow :=
  { op := 0x0703, roles := [0], long := true, named := [(0, 4), (4, 1)]
    body := fun c s => needSite s c.pk 0 (fun x => !isHubSite x) (fun raw =>
      let site := siteKey raw
      let p := sitePart site
      let st := parB c.pk 4
      need (decide (st = 4 ∨ st = 5)) (badAt 4) <|
      match defState? s site with
      | some old =>
        if old = st then ansOk s
        else
          need (decide (old = 4)) (badAt 4) <|
          ansOk (withdrawMore site 5 (hubUnitTo site 5 (retireEntry site rcOperator s)))
      | none =>
        if isCoreSite site then
          let src := siteSrc site
          need ((coreOf s p src).quarSet.isNone) ansBusy <|
          if (slotOfPos s p (src / 32) (src % 32)).isSome && (spareOf s p (src / 32)).isSome && partInService s p then
            .opened site 0 (callOffer p (src / 32) (modCore p src (fun k => { k with quarSet := some st }) s))
          else ansOk (withdrawCore p src 0x3FF 12 6 st s)
        else ansOk (withdrawMore site st (hubUnitTo site st (addEntry site 12 6 st false s)))) }

/-! ### QUAR.RESTORE -/

/-- An entry that QUAR.RESTORE does not return (R223). -/
def noRestore (site kind st : Nat) : Bool :=
  decide (kind ∈ [10, 11, 14, 15]) ||
    (decide (st = 5) && (isCoreSite site || isEngineSite site || isBankSite site || isCellSite site))

/-- The entry is removed at once, with EV_RESTORE and the state after. -/
def restoreNow (site after : Nat) (s : State) : Ans :=
  let s1 := raise (evAt evRestore site [(4, site), (1, 1), (1, after)]) (removeEntry site s)
  .done [BitVec.ofNat 8 after] [] 0 (if after = stInService then sentryTo site stInService s1 else s1)

def quarRestoreRow : CmdRow :=
  { op := 0x0704, roles := [0], long := true, named := [(0, 4)]
    body := fun c s => needSite s c.pk 0 (fun _ => true) (fun raw =>
      let site := siteKey raw
      let p := sitePart site
      match defFind s site with
      | none => badAt 0
      | some (_, e) =>
        need (!noRestore site (defKind e) (defSt e) && !unlicensed s site) (badAt 0) <|
        if isCoreSite site then
          let src := siteSrc site
          need ((coreOf s p src).test.isNone && !harvesting s p src && !isOpen 0x0704 site s) ansBusy <|
          need (partInService s p) ansFenced <|
          .opened site 0 (startTest p src 3 s)
        else if isCellSite site then
          let key := cellKey (siteHub site) (siteIdx site)
          need (decide ((cellOf s key).kat ≠ 2)) ansBusy <|
          .opened site 0 (modCell key (fun x => { x with kat := 2 }) s)
        else if isPartSite site then
          need ((war s p).alive && !inReset s 2 site && !(resetOf s p).barred) ansFenced <|
          let s1 := removeEntry site (modW p (fun w => { w with stamps := [] }) s)
          .opened site 0 (beginWaiting p (modReset p (fun r => { r with level := some 2, by_ := 2, jobs := 0, counted := true, deepLost := false }) s1))
        else if isEngineSite site then restoreNow site stQuarantined s
        else if isMgmtSite site then restoreNow site stQuarantined s
        else restoreNow site stInService (hubUnitTo site 0 s)) }

/-! ### The rows -/

def execQuarList (pk : Packet) (s : State) : Res0 := nextOf s (runCmd quarListRow (.quarList pk) pk s)
def execQuarState (pk : Packet) (s : State) : Res0 := nextOf s (runCmd quarStateRow (.quarState pk) pk s)
def execQuarSet (pk : Packet) (s : State) : Res0 := nextOf s (runCmd quarSetRow (.quarSet pk) pk s)
def execQuarRestore (pk : Packet) (s : State) : Res0 := nextOf s (runCmd quarRestoreRow (.quarRestore pk) pk s)

end Sys2Proof.Machine
end

