-- ==== Sys2Proof/Machine/Counters.lean ====
section
/-! DEFINITION. Counters, program-counter samples, control-core trace and the warden's staging buffer (R369 to R378). -/

namespace Sys2Proof.Machine
open Sys2Proof

/-! ### Staging and losses (R376, R378) -/

/-- Occupancy limits in eighths of a per cent: a class of drop priority 1 to 3 is admitted below its share of the buffer
(Table 15.5); the other classes always are. -/
def classLimit (cls : Nat) : Option (Nat × Nat) :=
  match cls with
  | 0x10 => some (950, 1000)
  | 0x11 => some (875, 1000)
  | 0x12 => some (750, 1000)
  | _ => none

/-- May a record of a class enter a buffer of a size at an occupancy (R376)? -/
def admits (cls occ size : Nat) : Bool :=
  match classLimit cls with
  | some (a, b) => decide (occ * b < size * a)
  | none => true

def stagingCap : Nat := 262144

/-- Add a loss to what a drop point has accumulated; the counts saturate (R378). -/
def addLoss (l : Loss) : List Loss → List Loss
  | [] => [l]
  | x :: r =>
    if x.part = l.part ∧ x.cls = l.cls ∧ x.cause = l.cause ∧ x.node = l.node then
      { x with recs := satTo 4294967295 (x.recs + l.recs), words := satTo 4294967295 (x.words + l.words) } :: r
    else x :: addLoss l r

/-- Low 32 bits of a warden's timer, as a record's WT (R384). -/
def wtOf (s : State) (p : Nat) : Nat := (war s p).timer % 4294967296

def wardenLoss (p cls cause recs words : Nat) (s : State) : State :=
  modW p (fun w => { w with losses := addLoss { part := p, cls, cause, node := 0, recs, words, wt := w.timer % 4294967296 } w.losses }) s

/-- A record a warden forms goes to its staging buffer or is lost there (cause 1). A halted warden forms no trace of the
classes of Table 15.5 (R390). -/
def stage (p : Nat) (r : TRec) (s : State) : State :=
  let w := war s p
  if w.halt.isSome then s
  else if admits r.cls w.stagOcc stagingCap then
    modW p (fun w => { w with staging := w.staging ++ [r], stagOcc := w.stagOcc + 8 * r.len }) s
  else wardenLoss p r.cls 1 1 r.len s

/-! ### Tap records (R369 to R372) -/

/-- Key of a source in the counters: a core's group and SRC field, or a ring engine above all cores. -/
def ctrKey (g : Nat) (ring : Bool) (field : Nat) : Nat := if ring then 32768 + field else g * 1024 + field

/-- Engine kind 0 to 6 of a source in the order of R430: tensor core, then ring kinds 1 to 6. -/
def ctrKind (p : Nat) (ring : Bool) (field : Nat) : Nat := if ring then (Config.ringKind p field).getD 0 else 0

structure Tap where
  sk    : Nat
  field : Nat
  why   : Nat
  seq   : Nat
  rsv   : Nat
  busy  : Nat
  stall : Nat
  idle  : Nat

/-- The fields of a tap record (Table 15.1). -/
def tapOf (r : BitVec 64) : Tap :=
  { sk := bitsIn r 63 62, field := bitsIn r 61 52, why := bitsIn r 51 48, seq := bitsIn r 47 46, rsv := bitsIn r 45 42,
    busy := bitsIn r 41 28, stall := bitsIn r 27 14, idle := bitsIn r 13 0 }

/-- Is a tap record one the warden counts (R371)? A position above 16 and an engine the ring does not have name no source. -/
def tapOk (p : Nat) (t : Tap) : Bool :=
  decide (t.sk ≤ 1) && decide (t.rsv = 0) && (decide (t.why = 0) == decide (t.stall = 0)) &&
  decide (t.busy + t.stall + t.idle ≤ 8192) &&
  (if t.sk = 0 then decide (t.field % 32 ≤ 16) else decide (t.field < 128) && (Config.ringKind p t.field).isSome)

/-- A source's counters after a record. -/
def ctrAdd (t : Tap) (gaps : Nat) (c : Ctr) : Ctr :=
  { busy := c.busy + BitVec.ofNat 48 t.busy, stall := c.stall + BitVec.ofNat 48 t.stall, idle := c.idle + BitVec.ofNat 48 t.idle,
    why := t.why, seq := some t.seq, gaps := c.gaps + gaps }

/-- Records skipped before a record, by SEQ (R372). -/
def gapOf (c : Ctr) (seq : Nat) : Nat := match c.seq with | some q => (seq + 7 - q) % 4 | none => 0

/-- Is a class of trace enabled at a warden: bit 0 COUNTER, 1 CCTRACE, 2 PCSAMPLE? -/
def traceOn (s : State) (p i : Nat) : Bool := (war s p).trcOn.getLsbD i

/-- Counters of a source, its cluster and its kind after a record (R371). -/
def countTap (p g : Nat) (t : Tap) (s : State) : State :=
  let ring := decide (t.sk = 1)
  let k := ctrKey g ring t.field
  let gap := gapOf (tget {} (war s p).ctrs k) t.seq
  let s1 := modW p (fun w => { w with
    ctrs := tmod {} w.ctrs k (ctrAdd t gap)
    cluSum := if ring then w.cluSum else tmod {} w.cluSum (32 * g + t.field / 32) (fun c => { ctrAdd t gap c with why := 0, seq := none })
    stallSum := tmod 0 w.stallSum (ctrKind p ring t.field * 16 + t.why) (fun n => n + BitVec.ofNat 48 t.stall) }) s
  if gap ≠ 0 ∧ traceOn s p 0 then wardenLoss p 0x10 4 gap 0 s1 else s1

def counterTapAt (p g : Nat) (rec : BitVec 64) (s : State) : State :=
  if !hearsPart s p || decide (20 ≤ g) then s
  else
    let t := tapOf rec
    if tapOk p t then
      let s1 := countTap p g t s
      if traceOn s p 0 then stage p { cls := 0x10, len := 2, src := p + 512 * g, wt := wtOf s p, body := [rec] } s1 else s1
    else modW p (fun w => { w with tapBad := w.tapBad + 1 }) s

/-! ### Program-counter samples (R374) -/

/-- The sample period expires: one pulse, while no group still owes a set and the partition is not halted. -/
def pcsPulseAt (p : Nat) (s : State) : State :=
  let w := war s p
  if !hearsPart s p || !traceOn s p 2 || w.haltReq || w.halt.isSome || decide (w.pcsWait ≠ []) then s
  else
    drive (.pcs p false)
      (modW p (fun w => { w with pcsNum := w.pcsNum + 1, pcsAt := w.timer, pcsWait := (List.range 20).map (fun g => (g, 544)) }) s)

/-- A sample of a group. From a halted partition, one with ST 11 is of the halt edge: the warden keeps it for the scan-out (R386, R390). -/
def pcSampleAt (p g : Nat) (rec : BitVec 64) (s : State) : State :=
  let owed := tget 0 (war s p).pcsWait g
  if !hearsPart s p || decide (20 ≤ g) then s
  else if isHalted s p && decide (bitsIn rec 53 52 = 3) then
    modW p (fun w => { w with haltPcs := tmod [] w.haltPcs g (fun l => if l.length < 544 then l ++ [rec] else l) }) s
  else if owed = 0 then s
  else
    let s1 := modW p (fun w => { w with pcsWait := tput 0 w.pcsWait g (owed - 1) }) s
    stage p { cls := 0x12, len := 2, src := p + 512 * g, wt := wtOf s p, body := [rec] } s1

/-- 2,048 cycles after the pulse a group's missing records are lost with cause 5. The silence of a fenced partition is no loss (R378). -/
def pcsTimeoutAt (p g : Nat) (s : State) : State :=
  let owed := tget 0 (war s p).pcsWait g
  if !hearsPart s p || decide (owed = 0) then s
  else wardenLoss p 0x12 5 owed 0 (modW p (fun w => { w with pcsWait := tput 0 w.pcsWait g 0 }) s)

/-! ### HUB.COUNTERS (R373, R430) -/

/-- The 32 bytes of a source. -/
def ctrBytes (c : Ctr) (ident : Nat) : List Byte :=
  leBytes 6 c.busy.toNat ++ leBytes 6 c.stall.toNat ++ leBytes 6 c.idle.toNat ++ leBytes 1 c.why ++ leBytes 1 0 ++
  leBytes 2 ident ++ leBytes 2 0 ++ leBytes 4 c.gaps ++ leBytes 4 0

/-- Sums of a list of counters; the last WHY of a sum reads 0. -/
def ctrSum (l : List Ctr) : Ctr :=
  l.foldl (fun a c => { busy := a.busy + c.busy, stall := a.stall + c.stall, idle := a.idle + c.idle, why := 0, seq := none,
                        gaps := a.gaps + c.gaps }) {}

/-- May a tenant read a partition's counters (R373)? -/
def tenantReads (s : State) (tenant p : Nat) : Bool :=
  let l := s.sync.objs.filter (fun o => isLive o.2 && o.2.pmap.getLsbD p)
  !l.isEmpty && l.all (fun o => (tget 0 s.sync.jobs o.2.job) == tenant)

/-- The result of HUB.COUNTERS for a scope. -/
def countersBytes (s : State) (scope site count : Nat) : List Byte :=
  let p := sitePart site
  let w := war s p
  let c := siteCluster site
  match scope with
  | 0 => (List.range 17).flatMap (fun i => ctrBytes (tget {} w.ctrs (srcOf c i)) (c % 32 * 32 + i))
  | 1 => (List.range count).flatMap (fun k => ctrBytes (tget {} w.cluSum (c + k)) ((c + k) % 32 * 32 + 31))
  | 2 => ((List.range 128).filter (fun i => (Config.ringKind p i).isSome)).flatMap (fun i =>
      ctrBytes (tget {} w.ctrs (32768 + i)) (1024 + i))
  | 3 => ctrBytes (ctrSum (w.ctrs.map (·.2))) 0
  | _ => (List.range 112).flatMap (fun k => leBytes 6 (tget 0 w.stallSum k).toNat)

/-- A partition that a tenant may not read is refused before the other parameters are looked at (R373, Table 17.3). -/
def hubCountersRow : CmdRow :=
  { op := 0x0106, roles := [0, 1, 2], reads := true, named := [(0, 1), (4, 4), (8, 2)]
    body := fun c s =>
      let scope := parB c.pk 0
      let count := parN c.pk 8 2
      let p := sitePart (parN c.pk 4 4)
      if c.role = 2 ∧ p ≤ 97 ∧ tenantReads s c.tenant p = false then ansDenied
      else need (decide (scope ≤ 4)) (badAt 0)
        (needSite s c.pk 4 (if scope ≤ 1 then isClusterSite else isPartSite) (fun site =>
          need (if scope = 1 then decide (1 ≤ count) && decide (count ≤ 128) && decide (siteCluster site + count ≤ 640) else decide (count = 0))
            (badAt 8) (.done [] (countersBytes s scope site count) 0 s))) }

/-! ### The rows -/

def execHubCounters (pk : Packet) (s : State) : Res0 := nextOf s (runCmd hubCountersRow (.hubCounters pk) pk s)
def execCounterTap (p g : Nat) (rec : BitVec 64) (s : State) : Res0 := nextOf s (counterTapAt p g rec s)
def execPcSamplePulse (p : Nat) (s : State) : Res0 := nextOf s (pcsPulseAt p s)
def execPcSample (p g : Nat) (rec : BitVec 64) (s : State) : Res0 := nextOf s (pcSampleAt p g rec s)
def execPcSampleTimeout (p g : Nat) (s : State) : Res0 := nextOf s (pcsTimeoutAt p g s)

end Sys2Proof.Machine
end

