-- ==== Sys2Proof/Machine/Trace.lean ====
section
/-! DEFINITION. The hubs' trace buffers, triggers, lane frames and the commands of class TRACE (R375 to R384, R439). -/

namespace Sys2Proof.Machine
open Sys2Proof

def modTrace (h : HubId) (f : TraceBuf → TraceBuf) (s : State) : State := modHub h (fun x => { x with trace := f x.trace }) s

def traceOf (s : State) (h : HubId) : TraceBuf := (hubOf s h).trace

/-- The hub that drains a partition's trace (Table 1.6): the Primary partitions 0 to 48, and the rest too while its peer is Down; a Sole
hub all; a Secondary the rest. A peer that is still Starting or Claiming drains none. -/
def drainHub (s : State) (p : Nat) : Option HubId :=
  (serving s).bind (fun h =>
    if p ≤ 48 ∨ (hubOf s h).role = .sole ∨ (hubOf s (other h)).role = .down then some h
    else if (hubOf s (other h)).role = .secondary then some (other h) else none)

/-- Partitions a hub drains. -/
def drained (s : State) (h : HubId) : List Nat := parts.filter (fun p => drainHub s p = some h)

/-- Does a hub drain every partition (ALL of TRC_STAT)? -/
def drainsAll (s : State) (h : HubId) : Bool := parts.all (fun p => decide (drainHub s p = some h))

/-- Is a lane of a hub in service (R382)? -/
def laneUp (s : State) (h : HubId) (l : Nat) : Bool :=
  decide (l < min 4 s.keys.variant.lanes) && !(traceOf s h).lanesOut.getLsbD l

def lanesMask (s : State) (h : HubId) : Nat := ((List.range 4).filter (laneUp s h)).foldl (fun n l => n + 2 ^ l) 0

/-! ### Losses at a hub -/

/-- The column of a class in EV_TRACE_LOSS; what a Vein node drops has no class of its own. -/
def classColumn (cls : Nat) : Nat := if cls = 0x11 then 1 else if cls = 0x12 then 2 else 0

/-- EV_TRACE_LOSS with what was lost since the last one, at most once a second (R393). -/
def lossEvent (h : HubId) (s : State) : State :=
  let b := traceOf s h
  let t := (hubOf s h).time
  let due : Bool := match b.lossEvAt with | some e => decide (e + 1000000000 ≤ t) | none => true
  if b.lossAcc ≠ [] ∧ due then
    raise (ev evTraceLoss ((1, hubNum h) :: (List.range 15).map (fun i => (4, satTo 4294967295 (tget 0 b.lossAcc i)))))
      (modTrace h (fun b => { b with lossAcc := [], lossEvAt := some t }) s)
  else s

/-- Count lost records at a hub: TRC_LOSS, the counts by cause, the next event. -/
def countLoss (h : HubId) (cause cls recs : Nat) (s : State) : State :=
  lossEvent h (modHub h (fun x => { x with
    trcLost := BitVec.ofNat 32 (satTo 4294967295 (x.trcLost.toNat + recs))
    trace := { x.trace with
      lossByCause := tmod 0 x.trace.lossByCause cause (fun n => satTo 4294967295 (n + recs))
      lossAcc := tadd x.trace.lossAcc (3 * (cause - 1) + classColumn cls) recs } }) s)

/-- Low 32 bits of a hub's Strata local time divided by 10 (R384). -/
def hubWt (s : State) (h : HubId) : Nat := (hubOf s h).time / 10 % 4294967296

/-- Losses at a hub's own drop point. -/
def hubLoss (h : HubId) (l : Loss) (s : State) : State :=
  countLoss h l.cause l.cls l.recs (modTrace h (fun b => { b with losses := addLoss l b.losses }) s)

/-! ### The buffer (Table 15.6) -/

/-- Overwrite the oldest records while more than the pre-trigger share is held. -/
def trimTo (pre : Nat) : Nat → List TRec → Nat × List TRec
  | occ, [] => (occ, [])
  | occ, r :: rest => if pre < occ then trimTo pre (occ - 8 * r.len) rest else (occ, r :: rest)

/-- A record is admitted under R376, or lost with cause 3. -/
def bufAdmit (h : HubId) (r : TRec) (s : State) : State :=
  let b := traceOf s h
  if admits r.cls b.occ traceCap then
    bufPut h r (modTrace h (fun b => { b with admitted := if b.state = 3 then b.admitted + 8 * r.len else b.admitted }) s)
  else hubLoss h { part := r.src % 128, cls := r.cls, cause := 3, node := 0, recs := 1, words := r.len, wt := hubWt s h } s

/-- A record arrives at a hub's buffer. -/
def bufArrive (h : HubId) (r : TRec) (s : State) : State :=
  let b := traceOf s h
  match b.state with
  | 1 => bufAdmit h r s
  | 2 =>
    let s1 := bufPut h r s
    let t := trimTo b.pre (traceOf s1 h).occ (traceOf s1 h).recs
    modTrace h (fun b => { b with occ := t.1, recs := t.2 }) s1
  | 3 =>
    if b.admitted + 8 * r.len ≤ b.quota then bufAdmit h r s
    else
      raise (ev evTraceHeld [(1, hubNum h), (4, b.admitted), (4, b.occ)])
        (irqBit h 13 (modTrace h (fun b => { b with state := 4, refused := b.refused + 1 }) s))
  | 4 => modTrace h (fun b => { b with refused := b.refused + 1 }) s
  | _ => s

/-- A control-core exception record triggers the hubs that TRACE.ARM told to (R381). -/
def exceptionTrigger (r : TRec) (s : State) : State :=
  if r.cls = 0x11 ∧ r.body.any (fun w => decide (w.toNat / 2 ^ 60 = 2)) then
    forEach [HubId.a, HubId.b] (fun h s => if (traceOf s h).excTrig then trigHub raise 4 0 h s else s) s
  else s

/-- The losses that a received loss record tells of. -/
def noteLoss (h : HubId) (r : TRec) (s : State) : State :=
  match r.cls, r.body with
  | 1, a :: _ => countLoss h (a.toNat / 256 % 16) (a.toNat % 256) (a.toNat / 4294967296) s
  | _, _ => s

/-- The oldest record of a warden's staging buffer reaches its draining hub. -/
def traceRecordAt (h : HubId) (p : Nat) (s : State) : State :=
  match (war s p).staging with
  | [] => s
  | r :: rest =>
    if drainHub s p = some h ∧ (war s p).alive then
      let s1 := modW p (fun w => { w with staging := rest, stagOcc := w.stagOcc - 8 * r.len }) s
      exceptionTrigger r (bufArrive h r (noteLoss h r s1))
    else s

/-- The words of a loss record (R378). -/
def lossRec (l : Loss) (wt : Nat) : TRec :=
  { cls := 1, len := 3, src := l.part, wt
    body := [w64 (l.cls + 256 * l.cause + 65536 * l.node + 4294967296 * l.recs), w64 (l.words + 4294967296 * l.wt)] }

/-- A hub's loss record goes to its own buffer; one that the buffer refuses leaves its counts to accumulate further (R376). -/
def sendLoss (h : HubId) (l : Loss) (s : State) : State :=
  let s1 := if (traceOf s h).state = 4 then s else bufArrive h (lossRec l (hubWt s h)) s
  if (traceOf s1 h).state = 4 then modTrace h (fun b => { b with losses := addLoss l b.losses }) s1 else s1

/-- Each millisecond a drop point sends one loss record per source, class and cause: points 0 to 97 are the wardens, 98 and
99 the hubs. What cannot be sent waits. -/
def lossTickAt (point : Nat) (s : State) : State :=
  if point < 98 then
    if (war s point).halt.isSome then s
    else
      let ls := (war s point).losses
      forEach ls (fun l s => stage point (lossRec l (wtOf s point)) s) (modW point (fun w => { w with losses := [] }) s)
  else if 100 ≤ point then s
  else
    let h : HubId := if point = 98 then .a else .b
    let b := traceOf s h
    if b.state = 0 ∨ b.state = 4 then lossEvent h s
    else
      lossEvent h (forEach b.losses (sendLoss h) (modTrace h (fun b => { b with losses := [] }) s))

/-- A node's counts of dropped packets reach the draining hubs of their partitions (R377). -/
def veinDropAt (n : Nat) (s : State) : State :=
  let v := tget {} s.vein.nodes n
  forEach v.drops (fun d s =>
    match drainHub s d.1 with
    | none => s
    | some h =>
      hubLoss h { part := d.1, cls := 0, cause := 2, node := n, recs := d.2.1, words := d.2.2 / 8, wt := hubWt s h }
        { s with vein := { s.vein with nodes := tmod {} s.vein.nodes n (fun v => { v with drops := tdel v.drops d.1 }) } }) s

/-- The TIMEPAIR records of a draining hub (R379). -/
def timepairAt (h : HubId) (s : State) : State :=
  if (traceOf s h).state = 0 ∨ (hubOf s h).refLost then s
  else
    forEach ((drained s h).filter (fun p => (war s p).alive)) (fun p s =>
      bufArrive h { cls := 2, len := 3, src := p, wt := hubWt s h, body := [w64 (war s p).timer, w64 (hubOf s h).time] } s) s

/-! ### Control-core trace (R375) -/

def ccTraceAt (p i : Nat) (rec : BitVec 64) (s : State) : State :=
  if hearsPart s p && traceOn s p 1 && decide (i < 4) && (war s p).ccOn.getLsbD i then
    stage p { cls := 0x11, len := 2, src := p + 128 * i, wt := wtOf s p, body := [rec] } s
  else s

/-! ### Lane frames (R383, R384) -/

/-- The bytes of a record: its header and its body, to LEN words. -/
def trecBytes (r : TRec) : List Byte :=
  padTo (8 * r.len) (leBytes 1 r.cls ++ leBytes 1 r.len ++ leBytes 2 r.src ++ leBytes 4 r.wt ++ r.body.flatMap (fun w => leBytes 8 w.toNat))

/-- Whole records of a list, in order, that fit in the room left, and the rest. -/
def packRecs : Nat → List (List Byte) → List (List Byte) × List (List Byte)
  | _, [] => ([], [])
  | room, r :: rest =>
    if r.length ≤ room then
      let x := packRecs (room - r.length) rest
      (r :: x.1, x.2)
    else ([], r :: rest)

/-- A PAD record that fills the rest of a payload. -/
def padRec (h : HubId) (n wt : Nat) : List Byte :=
  if n = 0 then [] else trecBytes { cls := 0, len := n / 8, src := hubPart h, wt }

/-- A frame before scrambling: header, payload, CRC and four zero bytes (Table 15.8). -/
def frameBytes (h : HubId) (lane type seq : Nat) (payload : List Byte) : List Byte :=
  let b := leBytes 8 (type + 4 * lane + 16 * hubNum h + 65536 * (seq % 4294967296)) ++ padTo 256 payload
  b ++ leBytes 4 (crc32c b).toNat ++ leBytes 4 0

/-- A frame leaves on a lane through the lane's scrambler (R383). -/
def sendFrame (h : HubId) (lane : Nat) (f : List Byte) (s : State) : State :=
  let r := scramble (tget 0 (hubOf s h).scr lane) f
  drive (.frame h lane r.2) (modHub h (fun x => { x with scr := tput 0 x.scr lane r.1 }) s)

/-- Records the lanes may take from the buffer: none while it is Armed. -/
def drainable (b : TraceBuf) : List TRec := if b.state = 2 then [] else b.recs

def sendData (h : HubId) (lane : Nat) (s : State) : State :=
  let b := traceOf s h
  let a := packRecs 256 b.scan
  let used := (a.1.map List.length).sum
  let c : List (List Byte) × List (List Byte) := if a.2 = [] then packRecs (256 - used) ((drainable b).map trecBytes) else ([], [])
  let body := a.1.flatten ++ c.1.flatten
  let k := c.1.length
  let occ := (c.1.map List.length).sum
  let s1 := modTrace h (fun b => { b with
    scan := a.2, recs := b.recs.drop k, occ := b.occ - occ, seq := b.seq + 1, bytesSent := b.bytesSent + body.length
    sinceAlign := tadd b.sinceAlign lane 1 }) s
  let s2 := { s1 with keys := { s1.keys with dbg := s1.keys.dbg.map (fun d => { d with bytes := d.bytes + body.length }) } }
  sendFrame h lane (frameBytes h lane 1 (b.seq + 1).toNat (body ++ padRec h (256 - body.length) (hubWt s h))) s2

/-- A lane finishes sending a frame: an alignment frame after 1,023 others, else data, else an idle frame that repeats the
last SEQ. -/
def frameSentAt (h : HubId) (lane : Nat) (s : State) : State :=
  let b := traceOf s h
  let x := hubOf s h
  if x.role = .down ∨ x.rstLow ∨ x.refLost ∨ !laneUp s h lane then s
  else if 1023 ≤ tget 0 b.sinceAlign lane then
    sendFrame h lane (frameBytes h lane 2 (b.seq + 1).toNat
        (leBytes 8 x.time ++ leBytes 8 x.keyId.toNat ++ leBytes 1 (lanesMask s h)))
      (modTrace h (fun b => { b with seq := b.seq + 1, sinceAlign := tput 0 b.sinceAlign lane 0 }) s)
  else if b.scan = [] ∧ drainable b = [] then
    sendFrame h lane (frameBytes h lane 0 b.seq.toNat []) (modTrace h (fun b => { b with sinceAlign := tadd b.sinceAlign lane 1 }) s)
  else sendData h lane s

/-- A Held buffer is drained: END goes out, and the buffer is Armed again or Off (Table 15.6). -/
def traceDrainedAt (h : HubId) (s : State) : State :=
  let b := traceOf s h
  if b.state ≠ 4 ∨ b.recs ≠ [] then s
  else
    let next := if b.auto then 2 else 0
    let endRec : TRec := { cls := 4, len := 3, src := hubPart h, wt := hubWt s h, body := [w64 b.refused, w64 b.trigIgn] }
    raise (ev evTraceDone [(1, hubNum h), (4, b.refused), (4, b.trigIgn), (1, next)])
      (irqBit h 13 (modTrace h (fun b => { b with
        state := next, scan := b.scan ++ [trecBytes endRec], admitted := 0, refused := 0, trigIgn := 0, occ := 0 }) s))

/-! ### The commands of class TRACE -/

/-- Hubs that a byte names, those Down left out. -/
def hubsNamed (s : State) (v : Nat) : List HubId :=
  ([HubId.a, HubId.b].filter (fun h => v.testBit (hubNum h))).filter (fun h => (hubOf s h).role ≠ .down)

/-- TRACE.SET at one hub's buffer. -/
def setMode (stream discard : Bool) (b : TraceBuf) : TraceBuf :=
  if stream then (if b.state = 0 then { b with state := 1 } else b)
  else if discard then { b with state := 0, recs := [], occ := 0, admitted := 0, refused := 0, trigIgn := 0 }
  else if b.state = 1 then { b with state := 0 }
  else b

def traceSetRow : CmdRow :=
  { op := 0x0D01, roles := [0], named := [(0, 1), (1, 1), (2, 1), (3, 1), (4, 4), (8, 1), (16, 16)]
    body := fun c s =>
      let period := parN c.pk 4 4
      need (decide (parB c.pk 0 ≤ 1)) (badAt 0) <|
      need (decide (parB c.pk 1 ≤ 1)) (badAt 1) <|
      need (decide (parB c.pk 2 ≤ 7)) (badAt 2) <|
      need (decide (parB c.pk 3 ≤ 15)) (badAt 3) <|
      need (decide (1024 ≤ period) && decide (period ≤ 16777216)) (badAt 4) <|
      need (decide (parB c.pk 8 ≤ 3)) (badAt 8) <|
      needMask c.pk 16 (fun ps =>
        let s1 := forEach (hubsNamed s (parB c.pk 8)) (fun h s =>
          modTrace h (setMode (decide (parB c.pk 0 = 1)) (decide (parB c.pk 1 = 1))) s) s
        ansOk (forEach parts (fun p s => modW p (fun w =>
          if p ∈ ps then { w with trcOn := BitVec.ofNat 3 (parB c.pk 2), ccOn := BitVec.ofNat 4 (parB c.pk 3), pcsPeriod := period }
          else { w with trcOn := 0, ccOn := 0 }) s) s1)) }

/-- TRACE.ARM at one hub's buffer. -/
def armBuf (pre : Nat) (auto exc match_ : Bool) (code mask : Nat) (b : TraceBuf) : TraceBuf :=
  if b.state ≤ 1 then
    { b with state := 2, recs := [], occ := 0, pre, quota := traceCap - pre, auto, excTrig := exc, evMatch := match_, evCode := code, evMask := mask }
  else b

def traceArmRow : CmdRow :=
  { op := 0x0D02, roles := [0], named := [(0, 1), (1, 1), (2, 2), (4, 2), (6, 1)]
    body := fun c s =>
      let f := parB c.pk 1
      need (decide (parB c.pk 0 ≤ 15)) (badAt 0) <|
      need (decide (f ≤ 7)) (badAt 1) <|
      need (decide (parB c.pk 6 ≤ 3)) (badAt 6) <|
      ansOk (forEach (hubsNamed s (parB c.pk 6)) (fun h s =>
        modTrace h (armBuf (4194304 * parB c.pk 0) (f.testBit 0) (f.testBit 1) (f.testBit 2) (parN c.pk 2 2) (parN c.pk 4 2)) s) s) }

def traceTriggerRow : CmdRow :=
  { op := 0x0D03, roles := [0]
    body := fun _ s => ansOk (forEach [HubId.a, HubId.b] (fun h s => trigHub raise 1 0 h s) s) }

/-- The 64 bytes of a hub. -/
def traceBytes (s : State) (h : HubId) : List Byte :=
  let b := traceOf s h
  leBytes 1 b.state ++ leBytes 1 (lanesMask s h) ++ leBytes 2 0 ++ leBytes 4 b.occ ++ leBytes 4 b.admitted ++
  (List.range 5).flatMap (fun i => leBytes 4 (tget 0 b.lossByCause (i + 1))) ++ leBytes 32 0

def traceStatusRow : CmdRow :=
  { op := 0x0D04, roles := [0], reads := true
    body := fun _ s => .done [] (traceBytes s .a ++ traceBytes s .b) 0 s }

/-! ### The rows -/

def execTraceSet (pk : Packet) (s : State) : Res0 := nextOf s (runCmd traceSetRow (.traceSet pk) pk s)
def execTraceArm (pk : Packet) (s : State) : Res0 := nextOf s (runCmd traceArmRow (.traceArm pk) pk s)
def execTraceTrigger (pk : Packet) (s : State) : Res0 := nextOf s (runCmd traceTriggerRow (.traceTrigger pk) pk s)
def execTraceStatus (pk : Packet) (s : State) : Res0 := nextOf s (runCmd traceStatusRow (.traceStatus pk) pk s)
def execControlCoreTrace (p i : Nat) (rec : BitVec 64) (s : State) : Res0 := nextOf s (ccTraceAt p i rec s)
def execTraceRecord (h : HubId) (p : Nat) (s : State) : Res0 := nextOf s (traceRecordAt h p s)
def execTraceDrained (h : HubId) (s : State) : Res0 := nextOf s (traceDrainedAt h s)
def execTraceTimepair (h : HubId) (s : State) : Res0 := nextOf s (timepairAt h s)
def execVeinDropReport (node : Nat) (s : State) : Res0 := nextOf s (veinDropAt node s)
def execTraceFrameSent (h : HubId) (lane : Nat) (s : State) : Res0 := nextOf s (frameSentAt h lane s)
def execTraceLossRecordTick (point : Nat) (s : State) : Res0 := nextOf s (lossTickAt point s)

end Sys2Proof.Machine
end

