-- ==== Sys2Proof/Machine/Stop.lean ====
section
/-! DEFINITION. Cairn, the global stop: halting, the cut, scan-out, resuming, and the commands of class STOP (R30, R385 to
R391, R439). -/

namespace Sys2Proof.Machine
open Sys2Proof

def modCairn (f : Cairn → Cairn) (s : State) : State := { s with cairn := f s.cairn }

/-! ### Halting (R386, R388) -/

/-- Does a partition halt when Cairn arrives? One that is fenced, resetting, in bring-up, withdrawn or of a failed warden
lies outside the cut. -/
def mayHalt (s : State) (p : Nat) : Bool :=
  hearsPart s p && !(war s p).failed && decide ((resetOf s p).step = 0)

/-- Does a Cairn raise directly follow a partition's sample pulse? No record of the set has come; within the timer period of the pulse the
order of edges is free, and later it does not (DESIGN CHOICE, log entry 171). -/
def rightAfterPulse (p : Nat) (s : State) : Bool × State :=
  let w := war s p
  if w.pcsWait ≠ [] ∧ w.pcsAt = w.timer ∧ (List.range 20).all (fun g => tget 0 w.pcsWait g == 544) then ((freeRead s).1.getLsbD 0, (freeRead s).2)
  else (false, s)

/-- Captures of a partition that are incomplete. -/
def openCaps (s : State) (p : Nat) : List Nat := (s.tst.caps.filter (fun e => decide (e.2.warden = p) && decide (e.2.stage < 4))).map (·.1)

/-- A warden halts its partition once per stop (R385): wcl_pcs_req is held at 1, and the halt is stamped with the warden's timer and reported. A
sample set whose pulse the raise directly follows is superseded (R374). -/
def haltPart (p edges : Nat) (s0 : State) : State :=
  if (war s0 p).halt.isSome || decide (p ∈ s0.cairn.haltedOnce) then s0
  else
    let x := rightAfterPulse p s0
    let s := x.2
    let t := (war s p).timer
    send (.halted p t) (drive (.pcs p true) (modW p (fun w => { w with
      halt := some t, haltReq := true, haltEdge := edges, haltPcs := [], haltCaps := openCaps s p
      pcsWait := if x.1 then [] else w.pcsWait, pcsOver := if x.1 then w.pcsOver + 1 else w.pcsOver })
        (modCairn (fun c => { c with haltedOnce := insertOnce c.haltedOnce p }) s)))

/-! ### The cut (R388) -/

/-- Is a partition accounted for: halted, or outside the cut? -/
def accounted (s : State) (p : Nat) : Bool :=
  decide (p ∈ s.cairn.halted) || decide (p ∈ s.cairn.outside) || !(war s p).alive || (war s p).failed

/-- Partitions a hub still has to scan out, ascending (R390). -/
def toScan (s : State) (h : HubId) : List Nat :=
  (drained s h).filter (fun p => (war s p).alive && !(war s p).failed && decide (p ∉ s.cairn.scanned))

/-- Has a hub closed its scan-out with EV_SCANOUT_DONE? -/
def scanDone (s : State) (h : HubId) : Bool := if isB h then s.cairn.scanDoneB else s.cairn.scanDoneA

def setScanDone (h : HubId) (v : Bool) (s : State) : State :=
  modCairn (fun c => if isB h then { c with scanDoneB := v } else { c with scanDoneA := v }) s

/-- EV_SCANOUT_DONE of a hub that has read all it drains; one that drains nothing has no scan-out to close. -/
def closeScan (h : HubId) (s : State) : State :=
  let c := s.cairn
  if c.state ≠ 3 ∨ scanDone s h ∨ toScan s h ≠ [] ∨ drained s h = [] then s
  else
    raise (ev evScanoutDone [(1, hubNum h), (4, if isB h then c.scanB else c.scanA), (4, if isB h then c.scanBytesB else c.scanBytesA),
      (1, c.level)]) (irqBit h 15 (setScanDone h true s))

/-- A hub's scan-out may be through; when neither hub has a partition left to read, the stop stands at its cut. -/
def scanCheck (h : HubId) (s : State) : State :=
  let s1 := closeScan h s
  if s1.cairn.state = 3 ∧ toScan s1 .a = [] ∧ toScan s1 .b = [] then modCairn (fun c => { c with state := 2 }) s1 else s1

/-- The scan-out of the next partition a hub reads begins: its warden, halted, asks over wcl_cap for the channel state of the partition's
inbound links, and at level 1 for the scratch of each of its named cores (R387, R390). -/
def askScan (h : HubId) (s : State) : State :=
  match toScan s h with
  | [] => s
  | p :: _ =>
    if s.cairn.state ≠ 3 ∨ p ∈ s.cairn.asked ∨ (war s p).halt.isNone then s
    else
      let named := (s.cairn.cores.map (fun c => c.toNat * 1024 + 0x3FF)).filter (fun x => decide (s.cairn.level = 1) && decide (sitePart x = p))
      forEach named (fun x => drive (.scratch p x)) (drive (.channels p) (modCairn (fun c => { c with asked := c.asked ++ [p] }) s))

/-- The cut is made: EV_CAIRN_CUT, and scan-out begins. -/
def makeCut (missing : List Nat) (s : State) : State :=
  let s1 := modCairn (fun c => { c with state := 3, complete := decide (missing = []), missing
                                        outside := parts.filter (fun p => p ∉ c.halted && p ∉ missing) }) s
  let c := s1.cairn
  let s2 := raise (ev evCairnCut [(16, (partsMask c.halted).toNat), (16, (partsMask c.outside).toNat), (16, (partsMask missing).toNat),
    (1, flag c.complete)]) s1
  askScan .b (askScan .a (scanCheck .b (closeScan .a s2)))

/-- The partitions a hub drains change during a scan-out: it reads those that were not read through, from their first record. -/
def rescan (h : HubId) (s : State) : State :=
  if s.cairn.state ≠ 3 then s
  else
    let s1 := modCairn (fun c => { c with asked := c.asked.filter (· ∈ c.scanned), lastCls := c.lastCls.filter (fun x => x.1 ∈ c.scanned), left := [] }) s
    askScan h (scanCheck h (if toScan s1 h = [] then s1 else setScanDone h false s1))

/-- A hub takes role Primary or Sole during a stop: every halted warden reports its halt again, and the hub scans out what it now drains
and has not been read through (R388, R390). -/
def recollect (h : HubId) (s : State) : State :=
  if s.cairn.state = 0 then s
  else
    rescan h (forEach parts (fun p s => match (war s p).halt with
      | some t => if inFlight (.halted p t) s then s else send (.halted p t) s
      | none => s)
      (modCairn (fun c => { c with halted := if c.state = 1 then [] else c.halted }) s))

def cutCheck (s : State) : State := if s.cairn.state = 1 ∧ parts.all (accounted s) then makeCut [] s else s

/-- Cairn reaches a node, which forwards the first one on all of its outputs; a further one is passed on once the node's own stop is
complete: at a warden that halted with its resumption, at another node with the end of the stop (R30; DESIGN CHOICE, log entry 129). At a hub it
triggers the trace buffer (R381); at a warden it halts the partition, or the partition lies outside the cut, which may be the last that the cut
waited for. The node of a hub that is Down forwards nothing (Table 2.12). `edges` is the partition clock's edge count at the halt edge. -/
def cairnArrivalAt (n edges : Nat) (s : State) : State :=
  if !inFlight (.cairn n) s then s
  else
    let s1 := recv (.cairn n) s
    if !nodeUp s1 n then s1
    else if n ∈ s1.cairn.passed then modCairn (fun c => { c with further := insertOnce c.further n }) s1
    else
      let s2 := cairnForward n (modCairn (fun c => { c with passed := c.passed ++ [n] }) s1)
      match partOfNode n with
      | some p =>
        let s3 := modW p (fun w => { w with cairnAt := w.timer }) s2
        if mayHalt s2 p && decide (s2.cairn.state ≠ 4) then haltPart p edges s3
        else if p ∈ s2.cairn.haltedOnce then s2
        else cutCheck (modCairn (fun c => { c with outside := insertOnce c.outside p }) s3)
      | none => match hubOfNode n with
        | some h => trigHub raise 3 0 h s2
        | none => s2

/-- A halt report reaches the hubs. One that comes after the cut only stores its stamp. -/
def haltReportAt (p : Nat) (s : State) : State :=
  if (serving s).isNone then s
  else
    match takeMsg (fun m => match m with | .halted q t => if q = p then some t else none | _ => none) s with
    | none => s
    | some (t, s1) =>
      cutCheck (modCairn (fun c => { c with stamps := tset c.stamps p t, halted := if c.state = 1 then insertOnce c.halted p else c.halted }) s1)

/-- 1 ms after issue the partitions without a report are missing. -/
def cutTimeoutAt (s : State) : State :=
  if s.cairn.state = 1 then makeCut (parts.filter (fun p => !accounted s p)) s else s

/-! ### Scan-out (R390) -/

/-- The body of CUTHEAD: arrival stamp, halt stamp, halt edge count, then state, reason outside the cut, and records to follow. The manual gives
neither the places of these fields nor the reason codes: 0 for a partition that halted, and any other's is free (DESIGN CHOICE, log entry 169). -/
def cutHead (s : State) (p reason follow : Nat) : List Byte :=
  let w := war s p
  leBytes 8 w.cairnAt ++ leBytes 8 (w.halt.getD 0) ++ leBytes 8 (if w.halt.isSome then w.haltEdge else 0) ++
  leBytes 1 (partState s p) ++ leBytes 1 (if w.halt.isSome then 0 else reason) ++ leBytes 2 0 ++ leBytes 4 follow

/-- The three words of a source in COUNTERS: SK and SRC of Table 15.1 over the count, which the warden holds (R371). -/
def sourceWords (s : State) (p g src : Nat) : List Nat :=
  let c := tget {} (war s p).ctrs (ctrKey g (decide (src / 1024 % 4 = 1)) (src % 1024))
  [c.busy, c.stall, c.idle].map (fun n => src * 2 ^ 48 + n.toNat)

/-- A scan-out record of a partition has the header of Table 15.9 and a body of its class (Table 15.10): the cut's head, the samples of the
halt edge (ST 11, R386), three words for each source, a whole SCRATCH record of a core that the stop names. -/
def scanRecOk (s : State) (p : Nat) (r : List Byte) : Bool :=
  let n := r.length / 8
  let cls := fieldAt r 0 1
  let words := (List.range (n - 1)).map (fun i => fieldAt r (8 + 8 * i) 8)
  decide (r.length % 8 = 0) && decide (1 ≤ n) && decide (n ≤ 32) && decide (fieldAt r 1 1 = n) && decide (fieldAt r 2 2 % 128 = p) &&
  decide (fieldAt r 2 2 < 16384) &&
  match cls with
  | 0x20 => decide (r.drop 8 = cutHead s p (fieldAt r 33 1) (fieldAt r 36 4))
  | 0x21 => decide (2 ≤ n) && words.all (fun w => decide (BitVec.ofNat 64 w ∈ tget [] (war s p).haltPcs (fieldAt r 2 2 / 512)))
  | 0x22 => decide ((n - 1) % 3 = 0) && (List.range ((n - 1) / 3)).all (fun i =>
      decide ((words.drop (3 * i)).take 3 = sourceWords s p (fieldAt r 2 2 / 512) (words.getD (3 * i) 0 / 2 ^ 48)))
  | 0x25 => decide (s.cairn.level = 1) && decide (n = 32) &&
      s.cairn.cores.any (fun c => decide (c.toNat * 1024 + 0x3FF = fieldAt r 8 4) && decide (sitePart (fieldAt r 8 4) = p))
  | _ => decide (0x20 ≤ cls) && decide (cls ≤ 0x24)

/-- Are the classes of records in the order of Table 15.10, after the class `last` of the record before them? CUTHEAD comes once, first. -/
def scanOrder (last : Nat) : List (List Byte) → Bool
  | [] => true
  | r :: rest =>
    let cls := fieldAt r 0 1
    (if last = 0 then decide (cls = 0x20) else decide (last ≤ cls) && decide (cls ≠ 0x20)) && scanOrder cls rest

/-- Records that follow after a request: CUTHEAD, the first, gives their number. -/
def scanLeft (s : State) (p : Nat) (recs : List (List Byte)) : Option Nat :=
  let after := fun (n k : Nat) => if k ≤ n then some (n - k) else none
  match tfind s.cairn.left p, recs with
  | some n, l => after n l.length
  | none, r :: rest => after (fieldAt r 36 4) rest.length
  | none, [] => none

/-- What a request returns: at most 16 records of the partition, in order, and no more than CUTHEAD announced. -/
def scanOk (s : State) (p : Nat) (recs : List (List Byte)) : Bool :=
  decide (recs.length ≤ 16) && recs.all (scanRecOk s p) && scanOrder (tget 0 s.cairn.lastCls p) recs && (scanLeft s p recs).isSome

/-- A request of a hub returns records of the partition it reads, up to the last that CUTHEAD announced. -/
def scanoutPullAt (h : HubId) (recs : List (List Byte)) (s : State) : State :=
  match toScan s h with
  | [] => s
  | p :: _ =>
    if s.cairn.state ≠ 3 ∨ scanOk s p recs = false then s
    else
      let n := recs.length
      let bytes := (recs.map List.length).sum
      let s1 := modTrace h (fun b => { b with scan := b.scan ++ recs }) (askScan h s)
      askScan h <| scanCheck h (modCairn (fun c =>
        let c1 := if isB h then { c with scanB := c.scanB + n, scanBytesB := c.scanBytesB + bytes }
                  else { c with scanA := c.scanA + n, scanBytesA := c.scanBytesA + bytes }
        let c2 := match recs.getLast? with | some r => { c1 with lastCls := tset c1.lastCls p (fieldAt r 0 1) } | none => c1
        let c3 := { c2 with left := tset c2.left p ((scanLeft s p recs).getD 0) }
        if scanLeft s p recs = some 0 then { c3 with scanned := c3.scanned ++ [p] } else c3) s1)

/-! ### Resuming (R391) -/

/-- Every warden has lowered wcl_pcs_req: EV_CAIRN_RESUMED, and the stop is over. -/
def resumeCheck (s : State) : State :=
  if s.cairn.state = 4 ∧ parts.all (fun p => !(war s p).alive || (war s p).halt.isNone) then
    let c := s.cairn
    raise (ev evCairnResumed [(8, (hubOf s c.issuer).time - c.issuedAt), (1, flag c.abandoned)])
      { s with net := s.net.filter (fun m => match m with | .cairn _ => false | _ => true)
               cairn := { armed := c.armed, armLevel := c.armLevel, armCode := c.armCode, armMask := c.armMask, armCores := c.armCores } }
  else s

/-- A warden's own stop is complete: its node passes on a Cairn that came meanwhile, and the next one (R30). -/
def passFurther (n : Nat) (s : State) : State :=
  let s1 := modCairn (fun c => { c with passed := c.passed.filter (· ≠ n), further := c.further.filter (· ≠ n) }) s
  if n ∈ s.cairn.further then cairnForward n s1 else s1

/-- The halted cycles of a source: stalled with reason 13 where it held a slot, else idle (R386). -/
def creditCtr (held : Bool) (n : Nat) (c : Ctr) : Ctr :=
  if held then { c with stall := c.stall + BitVec.ofNat 48 n, why := 13 } else { c with idle := c.idle + BitVec.ofNat 48 n }

/-- Credit a halt to every source of a partition, its clusters and its kinds. -/
def creditHalt (p n : Nat) (s : State) : State :=
  let held : Nat → Bool := fun src => (slotOfPos s p (src / 32) (src % 32)).isSome
  let rings := (List.range 128).filter (fun i => (Config.ringKind p i).isSome)
  let sumAdd : Nat → Ctr → Ctr := fun c k =>
    let hs := ((List.range 17).filter (fun i => held (srcOf c i))).length
    { k with stall := k.stall + BitVec.ofNat 48 (n * hs), idle := k.idle + BitVec.ofNat 48 (n * (17 - hs)) }
  modW p (fun w => { w with
    ctrs := rings.foldl (fun t i => tmod {} t (32768 + i) (creditCtr false n)) (allSrcs.foldl (fun t src => tmod {} t src (creditCtr (held src) n)) w.ctrs)
    cluSum := (List.range 640).foldl (fun t c => tmod {} t c (sumAdd c)) w.cluSum
    stallSum := tmod 0 w.stallSum 13 (fun x => x + BitVec.ofNat 48 (n * (allSrcs.filter held).length)) }) s

/-- A resume order reaches a halted warden, which lowers wcl_pcs_req on its own. The number of partition clock cycles of the
halt is not the warden timer's, and is a free value. -/
def resumeOrderAt (p : Nat) (s : State) : State :=
  if !inFlight (.resume p) s then s
  else
    let s1 := recv (.resume p) s
    if !(war s1 p).alive || (war s1 p).halt.isNone then resumeCheck s1
    else
      let v := freeRead s1
      resumeCheck (passFurther (nodeOfPart p)
        (drive (.pcs p false) (modW p (fun w => { w with halt := none, haltReq := false, haltPcs := [], haltCaps := [] }) (creditHalt p v.1.toNat v.2))))

/-! ### The commands of class STOP -/

/-- Level and cores of STOP.ISSUE and STOP.ARM: level at PARAM byte `lv`, NCORE at `nc`. -/
def needCores (c : Caller) (lv nc : Nat) (k : Nat → List (BitVec 22) → Ans) : Ans :=
  let level := parB c.pk lv
  let n := parN c.pk nc 2
  need (decide (level ≤ 1)) (badAt lv) <|
  need (if level = 0 then decide (n = 0) else decide (1 ≤ n) && decide (n ≤ 1088)) (badAt nc) <|
  let raw := (List.range n).map (fun i => fieldAt (payOf c.pk) (3 * i) 3)
  match (List.range n).find? (fun i =>
    let v := raw[i]?.getD 0
    let site := v * 1024 + 0x3FF
    !(decide (v < 4194304) && decide (sitePart site ≤ 97) && isCoreSite site)) with
  | some i => .err stBadParam (64 + 3 * i) 0
  | none => k level (raw.map (BitVec.ofNat 22))

def stopIssueRow : CmdRow :=
  { op := 0x0E01, roles := [0], named := [(0, 1), (2, 2)], plen := fun _ pk => some (3 * parN pk 2 2)
    body := fun c s => needCores c 0 2 (fun level cores =>
      need (decide (s.cairn.state = 0)) badAny (ansOk (cairnIssue raise c.hub level cores 1 0 s))) }

def stopArmRow : CmdRow :=
  { op := 0x0E02, roles := [0], named := [(0, 1), (1, 1), (2, 2), (4, 2), (6, 2)], plen := fun _ pk => some (3 * parN pk 6 2)
    body := fun c s =>
      need (decide (parB c.pk 0 ≤ 1)) (badAt 0) <|
      needCores c 1 6 (fun level cores =>
        ansOk (modCairn (fun k => { k with
          armed := decide (parB c.pk 0 = 1), armLevel := level, armCode := parN c.pk 2 2, armMask := parN c.pk 4 2, armCores := cores }) s)) }

/-- Resume orders go out to every halted warden; at a node that halted no partition the stop is complete, and it passes a further Cairn on (R30). -/
def beginResume (s : State) : State :=
  let s1 := modCairn (fun c => { c with state := 4, abandoned := decide (c.state = 3) }) s
  let s2 := forEach (parts.filter (fun p => (war s p).halt.isSome)) (fun p s => send (.resume p) s) s1
  let own := s.cairn.further.filter (fun n => match partOfNode n with | some p => (war s p).halt.isNone | none => true)
  resumeCheck (forEach own passFurther s2)

def stopResumeRow : CmdRow :=
  { op := 0x0E03, roles := [0], named := [(0, 1)]
    body := fun c s =>
      let f := parB c.pk 0
      need (decide (f ≤ 1)) (badAt 0) <|
      match s.cairn.state with
      | 0 => badAny
      | 2 => ansOk (beginResume s)
      | 3 => if f = 1 then ansOk (beginResume s) else ansBusy
      | _ => ansBusy }

def stopStatusRow : CmdRow :=
  { op := 0x0E04, roles := [0], reads := true
    body := fun _ s =>
      let c := s.cairn
      .done [] (leBytes 1 c.state ++ leBytes 1 (flag c.complete) ++ leBytes 2 c.scanned.length ++ leBytes 12 0 ++
        leBytes 16 (partsMask c.halted).toNat ++ leBytes 16 (partsMask c.outside).toNat ++ leBytes 16 (partsMask c.missing).toNat ++
        parts.flatMap (fun p => leBytes 8 (tget 0 c.stamps p))) 0 s }

/-! ### The rows -/

def execStopIssue (pk : Packet) (s : State) : Res0 := nextOf s (runCmd stopIssueRow (.stopIssue pk) pk s)
def execStopArm (pk : Packet) (s : State) : Res0 := nextOf s (runCmd stopArmRow (.stopArm pk) pk s)
def execStopResume (pk : Packet) (s : State) : Res0 := nextOf s (runCmd stopResumeRow (.stopResume pk) pk s)
def execStopStatus (pk : Packet) (s : State) : Res0 := nextOf s (runCmd stopStatusRow (.stopStatus pk) pk s)
def execCairnArrival (node edges : Nat) (s : State) : Res0 := nextOf s (cairnArrivalAt node edges s)
def execCairnHaltReport (p : Nat) (s : State) : Res0 := nextOf s (haltReportAt p s)
def execCairnCutTimeout (s : State) : Res0 := nextOf s (cutTimeoutAt s)
def execScanoutPull (h : HubId) (recs : List (List Byte)) (s : State) : Res0 := nextOf s (scanoutPullAt h recs s)
def execCairnResumeOrder (p : Nat) (s : State) : Res0 := nextOf s (resumeOrderAt p s)

end Sys2Proof.Machine
end

