-- ==== Sys2Proof/Machine/Governor.lean ====
section
/-! DEFINITION. The undetected-result bound and its governor (R74 to R92), and the commands of classes SCREEN and SHADOW
(R431). Quantities are exact rationals (log entry 7). -/

namespace Sys2Proof.Machine
open Sys2Proof

/-! ### Constants (Table 3.2, R78 to R81) -/

def kCert : Rat := 980 / 1000
def kShd : Rat := 999 / 1000
def kShdSame : Rat := 990 / 1000

/-- κ of a ring engine kind 1 to 6: EXP, NRM, GSX, CDC, RED, DMA. -/
def kRing (kind : Nat) : Rat :=
  match kind with
  | 1 => 95 / 100
  | 2 => 95 / 100
  | 3 => 9999 / 10000
  | 4 => 90 / 100
  | 5 => 999 / 1000
  | _ => 9999 / 10000

def theta : Rat := 1 / 1000000000
def rhoDroop : Rat := 1 / 100000
def nuZero : Rat := 6 / 10000000
def patternZero : Rat := 512
def qZero : Rat := 4559168 / 10000000000000000
def betaZero : Rat := 5000000000

def clusterKey (p c : Nat) : Nat := 640 * p + c
def ringKey (p kind : Nat) : Nat := 62720 + 6 * p + (kind - 1)

/-! ### Activity (R77) -/

/-- Busy and total cycles of a list of counters. -/
def busyTotal (l : List Ctr) : Nat × Nat :=
  let c := ctrSum l
  (c.busy.toNat, (c.busy + c.stall + c.idle).toNat)

/-- Counters of a unit as they stand: a cluster's sums, or the ring engines of a kind. -/
def clusterCycles (s : State) (p c : Nat) : Nat × Nat := busyTotal [tget {} (war s p).cluSum c]
def ringCycles (s : State) (p kind : Nat) : Nat × Nat :=
  busyTotal (((List.range 128).filter (fun i => Config.ringKind p i = some kind)).map (fun i => tget {} (war s p).ctrs (32768 + i)))

/-- What a wrapping 48-bit count gained. -/
def gained (new old : Nat) : Nat := (new + 281474976710656 - old) % 281474976710656

/-- Busy cycles and busy share of a unit in the period; 0 for a partition out of service. -/
def activity (s : State) (p u : Nat) (cyc : Nat × Nat) : Nat × Rat :=
  let old := tget (0, 0) s.gov.busy u
  let b := gained cyc.1 old.1
  let t := gained cyc.2 old.2
  if partInService s p && decide (t ≠ 0) then (b, (b : Rat) / t) else (0, 0)

/-! ### The estimator (R81, R82) -/

/-- Relative tolerance of the governor's irrational values (PRESUMED, log entry 7). -/
def govEps : Rat := pow2 (-40)

/-- √k: exact for a square that has an exact root, else the governor's candidate where it lies within the tolerance of the true root. -/
def sqrtOf (k : Rat) : Rat := let r := ratSqrt k; if r * r = k then r else nearly govEps (Config.sqrtRat k) r

/-- 2^(-Δ / 168 h) for Δ in ns: exact at whole half-lives, else the governor's candidate where it lies within the tolerance (R82). -/
def decayOf (deltaNs : Nat) : Rat :=
  let w := halfPow deltaNs 604800000000000
  if deltaNs % 604800000000000 = 0 then w else nearly govEps (Config.decay deltaNs) w

/-- r_i of a unit's evidence and exposure: the Wilson–Hilferty upper 90 % point. -/
def rateOf (g : GUnit) : Rat :=
  let k := 1 + g.n
  let x := 1 - 1 / (9 * k) + (12816 / 10000) / (3 * sqrtOf k)
  k * (x * x * x) / (betaZero + g.e)

/-- Evidence and exposure after a period (R82 to R84). -/
def unitStep (decay hours a cobs : Rat) (g : GUnit) : GUnit :=
  let n := g.n * decay + (g.ev : Rat) - (g.sub : Rat)
  { n := if n < 0 then 0 else n, e := g.e * decay + a * cobs * hours, ev := 0, sub := 0 }

/-! ### A cluster's inputs -/

/-- What the governor knows of a cluster in a period. `real` is 1 − m/n of R131, `kx` is k_i of R75. -/
structure ClIn where
  p    : Nat
  c    : Nat
  a    : Rat
  busy : Nat
  lam  : Rat
  d    : Rat
  w    : Rat
  prob : Bool
  fl   : Nat
  kx   : Rat
  real : Rat

/-- Realised share of the selections of a cluster (R131). -/
def realised (x : SCnt) : Rat := if x.sel = 0 then 1 else if x.sel < x.miss then 0 else 1 - (x.miss : Rat) / x.sel

/-- x_i: the share of a cluster's shadows placed within it. Where the cluster placed no shadow in the period the spec gives no value, and the
model takes 0 (DESIGN CHOICE, log entry 147). -/
def sameShare (x : SCnt) : Rat := if x.placed = 0 then 0 else (x.same : Rat) / x.placed

def kOf (x : Rat) : Rat := kShd - (kShd - kShdSame) * x

/-- c_i for a fraction of `steps` 256ths (R75). -/
def coverage (steps : Nat) (real kx : Rat) : Rat := 1 - (1 - kCert) * (1 - (steps : Rat) / 256 * real * kx)

/-- Open time of a partition's droop windows in the last 3,600 s, in seconds (R79), on the warden timer. -/
def droopSeconds (s : State) (p : Nat) : Rat :=
  let w := war s p
  let t := w.timer
  let lo := t - 360000000000
  let closed : Nat := (w.droop.wins.map (fun x => min x.2 t - max x.1 lo)).foldl (· + ·) 0
  let cur := if w.droop.open_ then t - max w.droop.openAt lo else 0
  ((closed + cur : Nat) : Rat) / 100000000

/-- f_i of R87. -/
def floorOf (s : State) (u : Nat) : Nat := max s.boot.profile.floor (min (tget 0 s.gov.floors u) s.boot.profile.ceil)

/-- The value a cluster was last given before probation; the profile floor before the first. -/
def fracOf (s : State) (u : Nat) : Nat := tget s.boot.profile.floor s.gov.fracs u

def withProbation (prob : Bool) (steps : Nat) : Nat := if prob then min 32 (4 * steps) else steps

def clusterIn (s : State) (p c : Nat) : ClIn :=
  let u := clusterKey p c
  let x := tget {} (war s p).scnt c
  let act := activity s p u (clusterCycles s p c)
  { p, c, a := act.2, busy := act.1, lam := act.2 * rateOf (tget {} s.gov.units u)
    d := theta * act.2 * clusterDebt s p c, w := rhoDroop * act.2 * droopSeconds s p, prob := inProbation s p c
    fl := floorOf s u, kx := kOf (sameShare x), real := realised x }

def clusters : List (Nat × Nat) := parts.flatMap (fun p => (List.range 640).map (fun c => (p, c)))
def rings : List (Nat × Nat) := parts.flatMap (fun p => (List.range 6).map (fun k => (p, k + 1)))

/-! ### Fractions and the bound (R76, R87, R88) -/

/-- The demand ratio ρ_i. -/
def demand (targeting : Bool) (x : ClIn) : Rat :=
  if x.a = 0 then 1 else (x.lam + x.d + (if targeting then 0 else x.w)) / (x.a * qZero)

/-- s_i before probation for a gain. -/
def stepsFor (f : Profile) (g : Nat) (x : ClIn) : Nat := min f.ceil (x.fl + (ratRound .up ((g : Rat) * demand f.target_on x)).toNat)

def stepsProb (f : Profile) (g : Nat) (x : ClIn) : Nat := withProbation x.prob (stepsFor f g x)

/-- The four terms of U and s̄ in steps. -/
structure Bound where
  units : Rat
  debt  : Rat
  droop : Rat
  unk   : Rat
  sbar  : Rat

def Bound.total (b : Bound) : Rat := b.units + b.debt + b.droop + b.unk

def sumRat (l : List Rat) : Rat := l.foldl (· + ·) 0

/-- s̄: the mean of the fractions weighted by busy cycles, unweighted where no cluster worked (R77). -/
def meanSteps (l : List (Nat × ClIn)) : Rat :=
  let wt : Nat := (l.map (fun e => e.2.busy)).foldl (· + ·) 0
  if wt = 0 then sumRat (l.map (fun e => (e.1 : Rat))) / 62720
  else sumRat (l.map (fun e => (e.1 : Rat) * e.2.busy)) / wt

/-- U for a choice of fractions; `ring` is the ring units' share of U_units. -/
def boundOf (f : Profile) (ph : Nat) (ring : Rat) (steps : ClIn → Nat) (xs : List ClIn) : Bound :=
  let l := xs.map (fun x => (steps x, x))
  let miss := fun (e : Nat × ClIn) => 1 - coverage e.1 e.2.real e.2.kx
  let sbar := meanSteps l
  let abar := sumRat (xs.map (fun x => x.a)) / 62720
  { units := ring + sumRat (l.map (fun e => e.2.lam * miss e))
    debt := sumRat (l.map (fun e => e.2.d * miss e))
    droop := sumRat (l.map (fun e => e.2.w * (if f.target_on then (1 - kCert) * (1 - kShd) else miss e)))
    unk := nuZero * abar * patternZero / (patternZero + (ph : Rat)) * (1 - sbar / 256 * kShd)
    sbar }

/-- The smallest gain from g on whose bound meets a limit, 32 where none does. -/
def leastGain (meets : Nat → Bool) : (fuel g : Nat) → Nat
  | 0, g => g
  | n + 1, g => if meets g then g else leastGain meets n (g + 1)

/-- The gain after a period (R89). -/
def nextGain (old : Nat) (raiseOk lowerOk : Nat → Bool) : Nat :=
  let new := leastGain raiseOk 32 0
  if old ≤ new then new else if lowerOk (old - 1) then old - 1 else old

/-- The largest term, lowest number on a tie (R90, Table 3.6). -/
def largestTerm (b : Bound) : Nat × Rat :=
  [(2, b.debt), (3, b.droop), (4, b.unk)].foldl (fun m t => if m.2 < t.2 then t else m) (1, b.units)

/-! ### Governor start (R85) -/

/-- n_i and E_i start from the transient log of the last day; EV_GOVERNOR_START. -/
def governorStart (s : State) : State :=
  let t := now s
  let seeds := s.gov.log.filter (fun e => decide (e.2 ≤ t) && decide (t < e.2 + dayNs))
  let s1 := { s with gov := { s.gov with started := true, units := [], gain := 0, unmet := false, lastAt := t, evid := [], auditN := [] } }
  let s2 := forEach seeds (fun e s => match unitOf e.1 with | some u => modUnit u (fun g => { g with n := g.n + 1 }) s | none => s) s1
  raise (ev evGovernorStart [(1, s.boot.profile.id), (4, seeds.length)]) s2

/-! ### The update (R89) -/

/-- u_i of a cluster and of a ring unit (R157). Where a unit had no operation that audit could judge the spec gives no value, and the model
takes 0; operations judged in a later period than they ran in may outnumber the period's, and the model caps the share at 1 (DESIGN CHOICE,
log entry 147). -/
def shareJudged (judged all : Nat) : Rat := if all = 0 then 0 else min 1 ((judged : Rat) / all)

def clusterShare (s : State) (p c : Nat) : Rat :=
  shareJudged (tget [] s.gov.auditN (clusterKey p c)).length (tget {} (war s p).scnt c).elig

def ringShare (s : State) (p kind : Nat) : Rat :=
  shareJudged (tget [] s.gov.auditN (ringKey p kind)).length (tget 0 (war s p).engOps kind)

/-- Evidence and exposure of every unit. Exposure uses the coverage of the fractions in force during the period. -/
def stepUnits (deltaNs : Nat) (s : State) : State :=
  let dk := decayOf deltaNs
  let hours : Rat := (deltaNs : Rat) / 3600000000000
  let cobs := fun (c u : Rat) => 1 - (1 - c) * (1 - u)
  let s1 := forEach clusters (fun (e : Nat × Nat) t =>
    let u := clusterKey e.1 e.2
    let x := tget {} (war s e.1).scnt e.2
    let a := (activity s e.1 u (clusterCycles s e.1 e.2)).2
    let c := coverage (fracSteps s e.1 e.2) (realised x) (kOf (sameShare x))
    modUnit u (unitStep dk hours a (cobs c (clusterShare s e.1 e.2))) t) s
  forEach rings (fun (e : Nat × Nat) t =>
    let u := ringKey e.1 e.2
    let a := (activity s e.1 u (ringCycles s e.1 e.2)).2
    modUnit u (unitStep dk hours a (cobs (kRing e.2) (ringShare s e.1 e.2))) t) s1

/-- The ring units' share of U_units. -/
def ringBound (s : State) : Rat :=
  sumRat (rings.map (fun e =>
    let u := ringKey e.1 e.2
    (activity s e.1 u (ringCycles s e.1 e.2)).2 * rateOf (tget {} s.gov.units u) * (1 - kRing e.2)))

/-- A cluster's value is kept, and sent when it, the probation of the cluster or that of its partition changed (R89). -/
def applySteps (steps : Nat) (x : ClIn) (s : State) : State :=
  let u := clusterKey x.p x.c
  let v := (withProbation x.prob steps, coreProbation s x.p x.c, decide (partState s x.p = 1))
  let s1 := { s with gov := { s.gov with fracs := tset s.gov.fracs u steps } }
  if tfind s.gov.sent u = some v ∨ !(war s x.p).alive then s1
  else send (.frac x.p x.c v.1) { s1 with gov := { s1.gov with sent := tset s1.gov.sent u v } }

/-- EV_BOUND_UNMET or EV_BOUND_MET, once each (R90). -/
def boundEvents (b : Bound) (g : Nat) (s : State) : State :=
  let t := s.boot.profile.target
  let u := b.total
  if t < u ∧ !s.gov.unmet then
    let m := largestTerm b
    raise (ev evBoundUnmet [(4, f32n u), (4, f32n t), (1, g), (1, m.1), (4, f32n m.2)]) { s with gov := { s.gov with unmet := true } }
  else if u ≤ t ∧ s.gov.unmet then
    raise (ev evBoundMet [(4, f32n u), (4, f32n t), (1, g)]) { s with gov := { s.gov with unmet := false } }
  else s

/-- Mean realised fraction of a partition's clusters in steps (R131). -/
def meanReal (s : State) (p : Nat) : Rat :=
  sumRat ((List.range 640).map (fun c => (fracSteps s p c : Rat) * realised (tget {} (war s p).scnt c))) / 640

/-- The period's counts are taken in, and those of the next begin. -/
def closePeriod (s : State) : State :=
  let s1 := { s with gov := { s.gov with
    same := clusters.map (fun e => (clusterKey e.1 e.2, (ratRound .nearest (256 * sameShare (tget {} (war s e.1).scnt e.2))).toNat))
    real := parts.map (fun p => (p, meanReal s p))
    busy := clusters.map (fun e => (clusterKey e.1 e.2, clusterCycles s e.1 e.2)) ++ rings.map (fun e => (ringKey e.1 e.2, ringCycles s e.1 e.2))
    auditN := [] } }
  forEach parts (fun p s => modW p (fun w => { w with scnt := [], engOps := [] }) s) s1

/-- The debt a core accrued in a period, in core-nanoseconds: the part of the period after its age passed D. -/
def debtGain (deltaNs : Nat) (s : State) (p src : Nat) : Nat :=
  if coreGone s p src then 0 else min deltaNs (10 * (ageOf s p src - dTicks s))

/-- The debt that the cores of a partition accrued in the period joins its 8-byte count of core-hours; what is left of an hour is carried
(R199). -/
def accrueDebt (deltaNs p : Nat) (s : State) : State :=
  let n := (allSrcs.map (debtGain deltaNs s p)).foldl (· + ·) 0
  if n = 0 then s
  else
    modW p (fun w =>
      let t := w.debtRem + n
      { w with debtTot := w.debtTot + BitVec.ofNat 64 (t / 3600000000000), debtRem := t % 3600000000000 }) s

/-- A value from lo to hi, open beyond that. -/
def freeBetween (lo hi : Nat) (s : State) : Nat × State :=
  let v := freeRead s
  (lo + v.1.toNat % (hi + 1 - lo), v.2)

/-- Had a warden a tile in the period that could have been drawn for audit? -/
def anyEligible (s : State) : Bool := s.wardens.any (fun w => w.2.scnt.any (fun x => decide (x.2.elig ≠ 0)))

/-- The largest audit threshold at which the samples waiting in each hub would have stayed at 16 or fewer (R157). The period shows that for
the threshold it ran at: where they stayed so it is at least that one, else below it; with no tile to draw, every threshold has the same
samples. What other thresholds would have shown is open: the value is free within those bounds (log entry 63). -/
def bestThreshold (s : State) : Nat × State :=
  let cur := s.tst.auditThr
  if s.tst.waitA ≤ 16 ∧ s.tst.waitB ≤ 16 then (if anyEligible s then freeBetween cur 65535 s else (65535, s))
  else if anyEligible s then freeBetween 0 (cur - 1) s
  else (0, s)

/-- A new audit threshold at every warden; the next period's count of waiting samples begins at those that wait now. -/
def newThreshold (s : State) : State :=
  let v := bestThreshold s
  forEach (parts.filter (fun p => (war s p).alive)) (fun p s => modW p (fun w => { w with auditThr := v.1 }) s)
    (modTst (fun t => { t with auditThr := v.1, waitA := auditsWaiting s .a, waitB := auditsWaiting s .b }) v.2)

/-- Staged patterns are judged again: what further clusters could run may have changed (R210). -/
def judgeStagedAll (s : State) : State := forEach (s.quarry.index.filter (fun e => e.2.state = 1)) (fun e s => judgePattern e.2.origin e.2.seq s) s

/-- A governor period begins: ages and debt are judged against D as it was set last (R433). -/
def takeD (s : State) : State :=
  if s.test.dMin = s.test.dNext then s else clearDebts { s with test := { s.test with dMin := s.test.dNext } }

/-- One update of the governor on the Primary or Sole hub. -/
def governorUpdate (deltaNs : Nat) (s0 : State) : State :=
  let t := now s0
  let s := takeD (forEach parts (accrueDebt deltaNs)
    { s0 with gov := { s0.gov with log := s0.gov.log.filter (fun e => decide (t ≤ e.2 + dayNs)), lastAt := t } })
  let s1 := stepUnits deltaNs s
  let f := s1.boot.profile
  let xs := clusters.map (fun e => clusterIn s1 e.1 e.2)
  let ring := ringBound s1
  let ph := harvested s1
  let bAt := fun (g : Nat) => boundOf f ph ring (stepsProb f g) xs
  let g := nextGain s1.gov.gain (fun g => decide ((bAt g).total ≤ f.target * f.raise / 1000)) (fun g => decide ((bAt g).total ≤ f.target * f.lower / 1000))
  let b := bAt g
  let s2 := forEach xs (fun x s => applySteps (stepsFor f g x) x s) { s1 with gov := { s1.gov with gain := g } }
  let s3 := boundEvents b g { s2 with gov := { s2.gov with uUnits := b.units, uDebt := b.debt, uDroop := b.droop, uUnk := b.unk, sbar := b.sbar } }
  nvWrite nvCounters (judgeStagedAll (closePeriod (newThreshold s3)))

def governorUpdateAt (deltaNs : Nat) (s : State) : State :=
  if clockRuns s && s.gov.started then governorUpdate deltaNs s else s

/-! ### The commands of classes SCREEN and SHADOW (R431) -/

/-- The 72 bytes of the device. -/
def screenDevice (s : State) : List Byte :=
  let g := s.gov
  leBytes 4 (f32n (g.uUnits + g.uDebt + g.uDroop + g.uUnk)) ++ leBytes 4 (f32n s.boot.profile.target) ++ leBytes 4 (f32n g.uUnits) ++
  leBytes 4 (f32n g.uDebt) ++ leBytes 4 (f32n g.uDroop) ++ leBytes 4 (f32n g.uUnk) ++ leBytes 1 g.gain ++ leBytes 1 s.boot.profile.id ++
  leBytes 2 0 ++ leBytes 4 (f32n g.sbar) ++ leBytes 8 g.cnt.ordinary ++ leBytes 8 g.cnt.droop ++ leBytes 8 g.cnt.unchecked ++
  leBytes 8 g.cnt.repeats ++ leBytes 8 g.cnt.replays

/-- The 96 bytes of a partition. -/
def screenPart (s : State) (p : Nat) : List Byte :=
  let k := (war s p).cnt
  [k.sel, k.forced, k.miss, k.same, k.orphan, k.timeout, k.triPerm, k.triTran, k.triSub, k.triFalse, k.triNone].flatMap (leBytes 8) ++
  leBytes 4 (f32n (tget 0 s.gov.real p)) ++ leBytes 4 0

def screenReportRow : CmdRow :=
  { op := 0x0201, roles := [0, 1], reads := true, named := [(0, 1)]
    body := fun c s =>
      let p := parB c.pk 0
      need (decide (p ≤ 97 ∨ p = 0xFF)) (badAt 0)
        (.done [] (screenDevice s ++ (if p = 0xFF then [] else screenPart s p)) 0 s) }

def shadowSetRow : CmdRow :=
  { op := 0x0301, roles := [1], named := [(0, 4), (4, 1)]
    body := fun c s => needSite s c.pk 0 (fun x => isClusterSite x || isPartSite x) (fun site =>
      let v := parB c.pk 4
      let p := sitePart site
      need (decide (v ≤ 32)) (badAt 4)
        (ansOk (forEach (if isPartSite site then List.range 640 else [siteCluster site]) (fun k s =>
          { s with gov := { s.gov with floors := tput 0 s.gov.floors (clusterKey p k) v } }) s))) }

def shadowGetRow : CmdRow :=
  { op := 0x0302, roles := [0, 1], reads := true, named := [(0, 4), (4, 2)]
    body := fun c s => needSite s c.pk 0 isClusterSite (fun site =>
      let n := parN c.pk 4 2
      let p := sitePart site
      let c0 := siteCluster site
      need (decide (1 ≤ n) && decide (n ≤ 640) && decide (c0 + n ≤ 640)) (badAt 4)
        (.done [] ((List.range n).flatMap (fun i =>
          let u := clusterKey p (c0 + i)
          leBytes 1 (fracSteps s p (c0 + i)) ++ leBytes 1 (tget 0 s.gov.floors u) ++ leBytes 1 (fracOf s u) ++
          leBytes 1 (satTo 255 (tget 0 s.gov.same u)))) 0 s)) }

/-! ### The rows -/

def execScreenReport (pk : Packet) (s : State) : Res0 := nextOf s (runCmd screenReportRow (.screenReport pk) pk s)
def execShadowSet (pk : Packet) (s : State) : Res0 := nextOf s (runCmd shadowSetRow (.shadowSet pk) pk s)
def execShadowGet (pk : Packet) (s : State) : Res0 := nextOf s (runCmd shadowGetRow (.shadowGet pk) pk s)
def execGovernorUpdate (deltaNs : Nat) (s : State) : Res0 := nextOf s (governorUpdateAt deltaNs s)

end Sys2Proof.Machine
end

