-- ==== Sys2Proof/Machine/Strata.lean ====
section
/-! DEFINITION. Strata: warden events on their way to the record (R400, R401), the freeze (R408, R409), reading (R406,
R407), the Secondary's time (R397), and the commands of class STRATA (R410). -/

namespace Sys2Proof.Machine
open Sys2Proof

def modStrata (f : StrataB → StrataB) (s : State) : State := { s with strata := f s.strata }

/-! ### Warden events (R400, R401) -/

/-- The next warden event number to be ingested. -/
def nextEvent (s : State) (p : Nat) : Nat := tget 0 s.strata.ingested p

/-- How far a number lies ahead of the next one to be ingested, in 16 bits. -/
def aheadOf (s : State) (p n : Nat) : Nat := (n + 65536 - nextEvent s p) % 65536

/-- Ingest a warden's event of a number in its turn. -/
def ingestTurn (p n : Nat) (e : Ev) (s : State) : State :=
  raise e (modStrata (fun b => { b with ingested := tset b.ingested p ((n + 1) % 65536) }) s)

/-- Events held for a gap that is now filled, in number order; the fuel bounds their number. -/
def drainHeld (p : Nat) : Nat → State → State
  | 0, s => s
  | k + 1, s =>
    match (tget [] s.strata.early p).find? (fun x => x.1 = nextEvent s p) with
    | none => s
    | some x => drainHeld p k (ingestTurn p x.1 x.2 (modStrata (fun b => { b with early := tput [] b.early p ((tget [] b.early p).erase x) }) s))

/-- An event of a number arrives: in its turn, early, inside a gap already passed, or known already. -/
def takeEvent (p n : Nat) (e : Ev) (s : State) : State :=
  let d := aheadOf s p n
  if d = 0 then
    let s1 := ingestTurn p n e s
    drainHeld p (tget [] s1.strata.early p).length s1
  else if d < 32768 then
    if (tget [] s.strata.early p).any (fun x => x.1 = n) then s
    else modStrata (fun b => { b with early := tput [] b.early p (tget [] b.early p ++ [(n, e)]) }) s
  else if n ∈ tget [] s.strata.late p then
    raise e (modStrata (fun b => { b with late := tput [] b.late p ((tget [] b.late p).erase n) }) s)
  else s

/-- A warden's event reaches the Primary, which mirrors it before it acknowledges it. -/
def eventRecordAt (p n : Nat) (s : State) : State :=
  if (serving s).isNone then s
  else
    match (war s p).evs.find? (fun x => x.1 = n) with
    | none => s
    | some x => if (war s p).alive then mirWrite (.event p n) (takeEvent p n x.2 s) else s

/-- The acknowledgement reaches the warden, which keeps the event no more. -/
def eventAckAt (p n : Nat) (s : State) : State :=
  if inFlight (.evAck p n) s then modW p (fun w => { w with evs := w.evs.filter (fun x => x.1 ≠ n) }) (recv (.evAck p n) s)
  else s

/-- The held event nearest to the gap. -/
def firstHeld (s : State) (p : Nat) : Option (Nat × Ev) :=
  (tget [] s.strata.early p).foldl (fun b x =>
    match b with
    | none => some x
    | some y => if aheadOf s p x.1 < aheadOf s p y.1 then some x else b) none

/-- A gap has been open for 10 ms: the events that follow it are ingested, and EV_STRATA_WARDEN_GAP. -/
def wardenGapAt (p : Nat) (s : State) : State :=
  match firstHeld s p with
  | none => s
  | some x =>
    if (serving s).isNone then s
    else
      let first := nextEvent s p
      let n := aheadOf s p x.1
      let lost := (war s p).evLost
      let miss := (List.range n).map (fun i => (first + i) % 65536)
      let s1 := modStrata (fun b => { b with
        late := tput [] b.late p (tget [] b.late p ++ miss), ingested := tset b.ingested p x.1 }) s
      let s2 := drainHeld p (tget [] s1.strata.early p).length s1
      raise (evAt evStrataWardenGap (partSite p) [(2, p), (2, first), (4, n), (4, lost)]) (modW p (fun w => { w with evLost := 0 }) s2)

/-- Events that hubs held while none served are ingested by the hub that takes the role (R401). -/
def ingestHubHeld (s : State) : State :=
  forEach s.strata.hubHeld (fun e s => raise e.2 s) (modStrata (fun b => { b with hubHeld := [] }) s)

/-! ### The freeze (R408, R409) -/

/-- Causes of EV_STRATA_UNFREEZE. -/
def ufCommand : Nat := 1
def ufLimit : Nat := 2
def ufFailover : Nat := 3
def ufPower : Nat := 4

/-- The end of a freeze: the held records, EV_STRATA_LOST if any were discarded, EV_STRATA_UNFREEZE. -/
def endFreeze (cause : Nat) (s : State) : State :=
  let b := s.strata
  if !b.frozen then s
  else
    let s0 := modStrata (fun b => { appendRecs b.hold b with
      frozen := false, hold := [], lost := 0, lostFirst := 0, lostLast := 0, lostSev := 0, lostCls := 0 }) s
    let s1 := if s0.strata.perm.length = b.perm.length then s0 else nvWrite nvPermanent s0
    let s2 := if b.lost = 0 then s1
      else raise (ev evStrataLost [(4, b.lost), (8, b.lostFirst), (8, b.lostLast), (1, b.lostSev), (4, b.lostCls.toNat)]) s1
    raise (ev evStrataUnfreeze [(1, cause), (4, b.hold.length)]) s2

/-- EV_STRATA_FREEZE, and the freeze. -/
def beginFreeze (role tag : Nat) (s : State) : State :=
  if s.strata.frozen then s
  else
    let s1 := raise (ev evStrataFreeze [(1, role), (2, tag)]) s
    modStrata (fun b => { b with frozen := true, frozenAt := now s1 }) s1

def freezeLimitAt (s : State) : State := if clockRuns s then endFreeze ufLimit s else s

/-! ### The Secondary's time (R397) -/

/-- A hub brings its time to the other's: forward at once, or slower until the two agree. -/
def followTime (h : HubId) (s : State) : State :=
  let mine := (hubOf s h).time
  let theirs := (hubOf s (other h)).time
  if mine ≤ theirs then modHub h (fun x => { x with time := theirs, slowAdj := 0 }) s
  else modHub h (fun x => { x with slowAdj := (mine - theirs + 4) / 5 }) s

def timeCompareAt (s : State) : State :=
  match serving s with
  | none => s
  | some h => if (hubOf s (other h)).role = .secondary ∧ !(hubOf s (other h)).refLost then followTime (other h) s else s

/-! ### Reading (R406, R407) -/

/-- Records grouped with their continuations, in count order. A continuation whose first record was overwritten stands
alone. -/
def pairUp : List Rec → List (List Rec)
  | [] => []
  | r :: rest =>
    match pairUp rest with
    | [] => [[r]]
    | u :: us =>
      match u with
      | c :: _ => if !r.cont && c.cont && decide (c.count = r.count + 1) then (r :: u) :: us else [r] :: u :: us
      | [] => [r] :: us

/-- The records a reply may carry, as a filter on the first record of a group. -/
structure Sel where
  cls    : Nat
  sev    : Nat
  tenant : Option Nat

/-- Is a record selected? A tenant sees its own records only. -/
def Sel.takes (f : Sel) (r : Rec) : Bool :=
  f.cls.testBit (evClass r.ev.code) && decide (f.sev ≤ severity r.ev.code) &&
  (match f.tenant with | some t => r.ev.jobv && decide (r.ev.tenant = t) | none => true)

/-- The first count of a group, and the count after its last. -/
def groupFirst (u : List Rec) : Nat := (u.head?.map (·.count)).getD 0
def groupNext (u : List Rec) : Nat := groupFirst u + u.length

/-- Is a group a continuation alone? -/
def groupBroken (u : List Rec) : Bool := u.head?.any (·.cont)

/-- What a read returns: records, the count to go on at, and whether it reached past the oldest record held. -/
structure ReadOut where
  recs : List Rec
  cont : Nat
  past : Bool

/-- A window read, newest group first (R407). `c` is the count the selection stands at. -/
def readWindow (f : Sel) (t w max : Nat) : List (List Rec) → List Rec → Nat → ReadOut
  | [], out, c => { recs := out, cont := c, past := true }
  | u :: us, out, c =>
    if groupBroken u then { recs := out, cont := c, past := true }
    else if (u.head?.map (·.time)).getD 0 + w ≤ t then { recs := out, cont := c, past := false }
    else if u.head?.any (fun r => f.takes r) then
      if max < out.length + u.length then { recs := out, cont := c, past := false }
      else readWindow f t w max us (u ++ out) (groupFirst u - 1)
    else readWindow f t w max us out (groupFirst u - 1)

/-- A read in ascending order from a count (R406). -/
def readUp (f : Sel) (max : Nat) : List (List Rec) → List Rec → Nat → Bool → ReadOut
  | [], out, c, past => { recs := out, cont := c, past }
  | u :: us, out, c, past =>
    if groupBroken u then readUp f max us out (groupNext u) true
    else if u.head?.any (fun r => f.takes r) then
      if max < out.length + u.length then { recs := out, cont := c, past }
      else readUp f max us (out ++ u) (groupNext u) past
    else readUp f max us out (groupNext u) past

/-- The oldest and the newest count held in the circulating area. -/
def oldestHeld (s : State) : Nat := (s.strata.circ.head?.map (·.count)).getD 0
def newestHeld (s : State) : Nat := (s.strata.circ.getLast?.map (·.count)).getD 0

def readStrata (s : State) (mode max from_ : Nat) (f : Sel) : ReadOut :=
  let us := pairUp s.strata.circ
  if mode = 0 then
    let l := us.filter (fun u => decide (from_ < groupNext u))
    readUp f max l [] ((l.head?.map groupFirst).getD from_) (decide (s.strata.circ ≠ []) && decide (from_ < oldestHeld s))
  else readWindow f (now s) from_ max us.reverse [] (newestHeld s)

/-! ### The commands -/

def strataStatusRow : CmdRow :=
  { op := 0x0F01, roles := [0, 1, 2], reads := true
    body := fun c s =>
      let b := s.strata
      .done [] (padTo 64 (leBytes 8 (oldestHeld s) ++ leBytes 8 (newestHeld s) ++ leBytes 2 b.perm.length ++ leBytes 2 (hubOf s c.hub).pfail.length ++
        leBytes 1 (flag b.frozen) ++ leBytes 1 0 ++ leBytes 2 b.hold.length ++ leBytes 4 b.lostAll ++ leBytes 4 0 ++ leBytes 8 b.countNv)) 0 s }

def strataReadRow : CmdRow :=
  { op := 0x0F02, roles := [0, 1, 2], reads := true, named := [(0, 1), (1, 1), (2, 1), (4, 4), (8, 8)]
    body := fun c s =>
      let mode := parB c.pk 0
      let max := parB c.pk 1
      need (decide (mode ≤ 1)) (badAt 0) <|
      need (decide (1 ≤ max) && decide (max ≤ 60)) (badAt 1) <|
      need (decide (parB c.pk 2 ≤ 4)) (badAt 2) <|
      let r := readStrata s mode max (parN c.pk 8 8)
        { cls := parN c.pk 4 4, sev := parB c.pk 2, tenant := if c.role = 2 then some c.tenant else none }
      .done (leBytes 8 r.cont ++ [BitVec.ofNat 8 (flag r.past)]) (r.recs.flatMap recBytes) 0 s }

def strataFreezeRow : CmdRow :=
  { op := 0x0F03, roles := [0, 1], body := fun c s => ansOk (beginFreeze c.role c.pk.tag.toNat s) }

def strataUnfreezeRow : CmdRow :=
  { op := 0x0F04, roles := [0, 1], body := fun _ s => ansOk (endFreeze ufCommand s) }

/-- The time pair's record carries SRCK 5 (R399). -/
def strataTimepairRow : CmdRow :=
  { op := 0x0F05, roles := [0, 1], named := [(0, 8), (8, 8), (16, 4), (20, 1)]
    body := fun c s =>
      let t := parN c.pk 8 8
      need (decide (t ≤ now s)) (badAt 8)
        (ansOk (raise { ev evStrataTimepair [(8, parN c.pk 0 8), (8, t), (4, parN c.pk 16 4), (1, parB c.pk 20)] with srck := 5 } s)) }

/-- Defined codes from a code on, with their name indices and severities. -/
def codesFrom (first n : Nat) : List Byte :=
  (((eventTable.zipIdx).filter (fun e => decide (first ≤ e.1.1))).take n).flatMap (fun e =>
    leBytes 2 e.1.1 ++ leBytes 2 e.2 ++ leBytes 1 e.1.2 ++ leBytes 3 0)

def strataCodesRow : CmdRow :=
  { op := 0x0F06, roles := [0, 1, 2], reads := true, named := [(0, 2), (2, 1)]
    body := fun c s =>
      let n := parB c.pk 2
      need (decide (1 ≤ n) && decide (n ≤ 200)) (badAt 2) (.done [] (codesFrom (parN c.pk 0 2) n) 0 s) }

/-! ### The rows -/

def execStrataStatus (pk : Packet) (s : State) : Res0 := nextOf s (runCmd strataStatusRow (.strataStatus pk) pk s)
def execStrataRead (pk : Packet) (s : State) : Res0 := nextOf s (runCmd strataReadRow (.strataRead pk) pk s)
def execStrataFreeze (pk : Packet) (s : State) : Res0 := nextOf s (runCmd strataFreezeRow (.strataFreeze pk) pk s)
def execStrataUnfreeze (pk : Packet) (s : State) : Res0 := nextOf s (runCmd strataUnfreezeRow (.strataUnfreeze pk) pk s)
def execStrataTimepair (pk : Packet) (s : State) : Res0 := nextOf s (runCmd strataTimepairRow (.strataTimepair pk) pk s)
def execStrataCodes (pk : Packet) (s : State) : Res0 := nextOf s (runCmd strataCodesRow (.strataCodes pk) pk s)
def execEventRecord (p num : Nat) (s : State) : Res0 := nextOf s (eventRecordAt p num s)
def execEventAck (p num : Nat) (s : State) : Res0 := nextOf s (eventAckAt p num s)
def execStrataWardenGap (p : Nat) (s : State) : Res0 := nextOf s (wardenGapAt p s)
def execStrataFreezeLimit (s : State) : Res0 := nextOf s (freezeLimitAt s)
def execStrataTimeCompare (s : State) : Res0 := nextOf s (timeCompareAt s)

end Sys2Proof.Machine
end

