-- ==== Sys2Proof/Machine/Vein.lean ====
section
/-! DEFINITION. The Vein (R25 to R29, R292, R377): routes, the detour table's spanning tree, trace buffers, refused flits. -/

namespace Sys2Proof.Machine
open Sys2Proof

def nodeOf (s : State) (n : Nat) : VNode := tget {} s.vein.nodes n

def modNode (n : Nat) (f : VNode → VNode) (s : State) : State := { s with vein := { s.vein with nodes := tmod {} s.vein.nodes n f } }

/-! ### Dimension order, on virtual channel 0 -/

/-- The nodes of the dimension-order route after a node. -/
def dimRoute (dst : Nat) : Nat → Nat → List Nat
  | 0, _ => []
  | k + 1, n =>
    match dimPort n dst with
    | none => []
    | some i => match neighbour n i with | some m => m :: dimRoute dst k m | none => []

/-- Is every link and node of a route in service? -/
def routeUp (s : State) : Nat → List Nat → Bool
  | _, [] => true
  | n, m :: r => linkUp s n m && routeUp s m r

/-! ### The detour table, on virtual channel 1 -/

/-- A spanning tree of the live grid, breadth first in port order. The fuel bounds the nodes. -/
def growTree (s : State) (root : Nat) : Nat → List Nat → Tab Nat → Tab Nat
  | 0, _, t => t
  | _ + 1, [], t => t
  | k + 1, n :: q, t =>
    let new := ((List.range 4).filterMap (neighbour n)).filter (fun m => linkUp s n m && decide (m ≠ root) && (tfind t m).isNone)
    growTree s root k (q ++ new) (new.foldl (fun t m => tset t m n) t)

/-- A node and its ancestors, itself first. -/
def chainUp (t : Tab Nat) : Nat → Nat → List Nat
  | 0, n => [n]
  | k + 1, n => match tfind t n with | some m => n :: chainUp t k m | none => [n]

/-- The element before a node in a chain: the child on the way down. -/
def stepDown (n : Nat) : List Nat → Option Nat
  | a :: b :: r => if b = n then some a else stepDown n (b :: r)
  | _ => none

/-- The next node of the up and down route, at a node whose table is loaded. -/
def detourNext (s : State) (n dst : Nat) : Option Nat :=
  if n ∉ s.vein.loaded then none
  else
    let c := chainUp s.vein.tree 100 dst
    if n ∈ c then stepDown n c else tfind s.vein.tree n

/-- The port of a node towards a neighbour. -/
def portTo (n m : Nat) : Option Nat := (List.range 4).find? (fun i => neighbour n i = some m)

/-- Where a node sends a flit: the port and the virtual channel (R29). A flit on channel 1 stays on it. -/
def routeFlit (s : State) (n : Nat) (f : Flit) : Option (Nat × Nat) :=
  if f.vc = 0 && routeUp s n (dimRoute f.dst 20 n) then (dimPort n f.dst).map (fun i => (i, 0))
  else (((detourNext s n f.dst).bind (fun m => if linkUp s n m then some m else none)).bind (portTo n)).map (fun i => (i, 1))

/-- A flit on a virtual channel; the sender forms the ECC over the new bits (R27). -/
def onChannel (f : Flit) (vc : Nat) : Flit := if f.vc = vc then f else { f with vc, ecc := Config.flitEcc f.cls vc f.data }

/-- A flit waits at a node, in the buffer of its class (R28). -/
def holdFlit (n : Nat) (f : Flit) (s : State) : State := modNode n (fun v => { v with held := tput [] v.held f.cls (tget [] v.held f.cls ++ [f]) }) s

/-- A node sends a flit on, or delivers it. A flit without a live route waits in the node's buffers: none is dropped (R28). -/
def passFlit (n : Nat) (f : Flit) (s : State) : State :=
  if f.dst = n then drive (.deliver n f) s
  else match routeFlit s n f with
    | some (i, vc) => drive (.flit n i (onChannel f vc)) s
    | none => holdFlit n f s

/-- A flit is back at the node that sent it: it is routed again, or waits there while that node is out too. -/
def flitBack (m : Nat) (f : Flit) (s : State) : State := if nodeUp s m then passFlit m f s else holdFlit m f s

/-- The flits that wait at a node are tried again, the lower priority number first (R28). -/
def sendHeld (n : Nat) (s : State) : State :=
  let l := (nodeOf s n).held
  if l = [] || !nodeUp s n then s
  else forEach (l.flatMap (·.2)) (passFlit n) (modNode n (fun v => { v with held := [] }) s)

/-! ### Loading the detour table (R29) -/

/-- Nodes with a live path to a live hub. -/
def reached (s : State) : List Nat :=
  ([HubId.a, HubId.b].filter (fun g => nodeUp s (nodeOfHub g))).flatMap (fun g =>
    nodeOfHub g :: (growTree s (nodeOfHub g) 100 [nodeOfHub g] []).map (·.1))

/-- Wardens that have started and are left with no live path to a live hub are treated as failed (R29, R296). -/
def failCut (s : State) : State :=
  let live := reached s
  forEach (parts.filter (fun p => ((war s p).alive || (war s p).stopped) && !(war s p).failed && decide (nodeOfPart p ∉ live)))
    (fun p s => failWarden p 2 s) s

/-- The Primary computes the tree, rooted at itself, and loads it with Control flits to every node that the tree reaches. The load
is complete in this step (DESIGN CHOICE, log entry 127). -/
def loadDetour (h : HubId) (s : State) : State :=
  let root := nodeOfHub h
  let tree := growTree s root 100 [root] []
  let live := root :: tree.map (·.1)
  let s1 := forEach live (fun n s => drive (.detour n) s) { s with vein := { s.vein with tree, loaded := live } }
  failCut (forEach (s1.vein.nodes.map (·.1)) sendHeld s1)

/-! ### Trace buffers (R28, R377) -/

def traceBufFlits : Nat := 512

/-- A trace flit has left the node it came from. -/
def leaveBuf (n : Nat) (s : State) : State :=
  match (nodeOf s n).bufs.find? (fun e => decide (0 < e.2)) with
  | some e => modNode n (fun v => { v with bufs := tput 0 v.bufs e.1 (e.2 - 1) }) s
  | none => s

/-- The record that a dropped trace packet carried is gone from those its warden has on the way: the oldest of the packet's length, 16 bytes
to a flit (DEDUCED, log entry 170). -/
def losePacket (f : Flit) (s : State) : State :=
  match (war s f.src).staging.find? (fun r => (r.len + 1) / 2 = f.len) with
  | some r => modW f.src (fun w => { w with staging := w.staging.erase r, stagOcc := w.stagOcc - 8 * r.len }) s
  | none => s

/-- A trace packet is dropped at a node, with its records and words (R377). -/
def countDrop (n : Nat) (f : Flit) (s : State) : State :=
  losePacket f (modNode n (fun v => { v with drops := tmod (0, 0) v.drops f.src (fun d => (d.1 + 1, d.2 + 16 * f.len)) }) s)

/-- Is the flit one of a dropped packet? A packet is admitted whole or dropped whole. -/
def dropFlit (n port : Nat) (f : Flit) (s : State) : Bool × State :=
  let v := nodeOf s n
  if f.head then
    if tget 0 v.bufs port + f.len ≤ traceBufFlits then
      (false, modNode n (fun v => { v with dropping := v.dropping.filter (· ≠ port), bufs := tput 0 v.bufs port (tget 0 v.bufs port + f.len) }) s)
    else
      (true, countDrop n f (modNode n (fun v => { v with dropping := insertOnce v.dropping port }) s))
  else (decide (port ∈ v.dropping), s)

/-- A node receives a flit at an input; port 4 is its own. A flit of classes 0 to 3 that finds the node out of service has no
acknowledgement, and its sender routes it again (R28); a trace packet is lost there, and its sender counts it (R377). -/
def veinFlitAt (n port : Nat) (f : Flit) (s : State) : State :=
  if decide (4 < f.cls) || decide (4 < port) || decide (100 ≤ f.dst) then s
  else if !nodeUp s n then
    (match neighbour n port with
     | some m => if f.cls < 4 then flitBack m f s else if f.head then countDrop m f (leaveBuf m s) else leaveBuf m s
     | none => if f.cls < 4 then holdFlit n f s else if f.head then countDrop n f s else s)
  else
    let s0 := if (port, f) ∈ (nodeOf s n).resent then modNode n (fun v => { v with resent := v.resent.erase (port, f) }) s else s
    let s1 := if f.cls = 4 then (match neighbour n port with | some m => leaveBuf m s0 | none => s0) else s0
    if f.cls = 4 ∧ f.dst ≠ n then
      let r := dropFlit n port f s1
      if r.1 then r.2 else passFlit n f r.2
    else passFlit n f s1

/-! ### Refused flits (R292) -/

/-- The receiving node's timer in ns. -/
def nodeTime (s : State) (n : Nat) : Nat :=
  match partOfNode n with
  | some p => 10 * (war s p).timer
  | none => match hubOfNode n with | some h => (hubOf s h).time | none => 0

/-- An event raised at a node. -/
def raiseAt (n : Nat) (e : Ev) (s : State) : State :=
  match partOfNode n with | some p => raiseW p e s | none => raise e s

/-- A link leaves service: EV_VEIN_LINK_OUT, and the Primary loads a new detour table. -/
def veinLinkOut (n m count : Nat) (s : State) : State :=
  let s1 := raiseAt n (fromSrc 3 (ev evVeinLinkOut [(2, min n m), (2, max n m), (4, count)]))
    { s with vein := { s.vein with linksOut := insertOnce s.vein.linksOut (n, m) } }
  match serving s1 with | some h => loadDetour h s1 | none => s1

/-- A node refuses a flit with an uncorrectable error: the sender sends it again, once. Refused again, it waits at the sender until a new detour
table is loaded, since no flit of classes 0 to 3 is dropped (R28; DESIGN CHOICE, log entry 128). Over a link or at a node that is out of service it
has not come across, and its sender has it still. -/
def flitRefusedAt (n port : Nat) (f : Flit) (s : State) : State :=
  match neighbour n port with
  | none => s
  | some m =>
    if !nodeUp s n || !linkUp s n m then (if f.cls < 4 then flitBack m f s else if f.head then countDrop m f (leaveBuf m s) else leaveBuf m s)
    else
      let t := nodeTime s n
      let l := ((tget [] (nodeOf s n).refused port).filter (fun x => decide (t < x + 1000000))) ++ [t]
      let s1 := modNode n (fun v => { v with refused := tput [] v.refused port l }) s
      let s2 := if (port, f) ∈ (nodeOf s1 n).resent then
          holdFlit m f (modNode n (fun v => { v with resent := v.resent.erase (port, f) }) s1)
        else match portTo m n with
          | some i => drive (.flit m i f) (modNode n (fun v => { v with resent := v.resent ++ [(port, f)] }) s1)
          | none => s1
      if 16 ≤ l.length then veinLinkOut n m l.length s2 else s2

/-! ### The rows -/

def execVeinFlit (node port : Nat) (flit : Flit) (s : State) : Res0 := nextOf s (veinFlitAt node port flit s)
def execVeinFlitRefused (node port : Nat) (flit : Flit) (s : State) : Res0 := nextOf s (flitRefusedAt node port flit s)

end Sys2Proof.Machine
end

