-- ==== Sys2Proof/Machine/Droop.lean ====
section
/-! DEFINITION. Droop windows, the clock stretch, the work held back, the power order and a warden's own supply
(R324 to R329, R335, R337, R69). -/

namespace Sys2Proof.Machine
open Sys2Proof

def modDroop (p : Nat) (f : Droop → Droop) (s : State) : State := modW p (fun w => { w with droop := f w.droop }) s

/-! ### Stretch (R327) -/

/-- The request is raised; while the return phase of the handshake before is under way, only once that has ended. A partition
in reset asks for no stretch (Table 11.4), and none does before its first map generation (Table 2.12). -/
def askStretch (p : Nat) (s : State) : State :=
  if !(war s p).alive || !(war s p).valid || decide (partState s p = stFenced) then s
  else modDroop p (fun d =>
    if d.req then d
    else if d.ack then { d with again := true }
    else { d with req := true, gaveUp := false }) s

/-- pwr_stretch_ack moves. -/
def stretchAckAt (p : Nat) (level : Bool) (s : State) : State :=
  if !(war s p).alive then s
  else
    let s1 := modDroop p (fun d => { d with ack := level }) s
    if !level && (war s p).droop.again then
      let s2 := modDroop p (fun d => { d with again := false }) s1
      if windowOpen (war s2 p) then askStretch p s2 else s2
    else s1

/-- 1 µs without pwr_stretch_ack: the event, and no second request for this window. -/
def stretchNoAckAt (p : Nat) (s : State) : State :=
  let d := (war s p).droop
  if d.req && !d.ack && !d.gaveUp then
    raiseW p (evAt evStretchNoAck (partSite p) [(2, p)]) (modDroop p (fun d => { d with gaveUp := true }) s)
  else s

/-! ### Work held back (R328) -/

/-- A piece of held work proceeds: a transfer to its channel or its queue (R124). -/
def proceed (p : Nat) (s : State) (x : HeldWork) : State :=
  match x with
  | .disp g _ d => enqueue p g d s
  | .slice src => driveSlice p src s
  | .swap c => modClu p c (fun k => { k with holdOver := true }) s

/-- 100 µs after it became due, the oldest held piece proceeds, but not in a halted partition (R328, R389). -/
def holdExpiryAt (p : Nat) (s : State) : State :=
  if isHalted s p then s else
  match (war s p).heldW with
  | [] => s
  | x :: r => proceed p (modW p (fun w => { w with heldW := r }) s) x

/-- The window closes: everything held proceeds, repeats ahead of ordinary shadows (Table 5.1); a swap waits for the next
yield. -/
def releaseHeld (p : Nat) (s : State) : State :=
  let l := (war s p).heldW
  let first := l.filter (fun x => match x with | .disp _ front _ => front | _ => false)
  let rest := l.filter (fun x => match x with | .disp _ front _ => !front | .slice _ => true | .swap _ => false)
  (first ++ rest).foldl (proceed p) (modW p (fun w => { w with
    heldW := [], clus := w.clus.map (fun k => (k.1, { k.2 with holdOver := false })) }) s)

/-! ### The window (R324, R326) -/

/-- Marking and stretch begin; a slice that runs has met a window (R187). Targeting follows the profile in force (R318). -/
def openEffect (p : Nat) (s : State) : State :=
  let on := s.boot.profile.target_on
  askStretch p (modW p (fun w => { w with
    droop := { w.droop with marking := true, targetOn := on }
    cores := w.cores.map (fun k => (k.1, { k.2 with test := k.2.test.map (fun t => if t.running then { t with dwin := true } else t) })) }) s)

/-- Stretch and holds end; marking goes on until MARKING_END. -/
def closeEffect (p : Nat) (s : State) : State :=
  releaseHeld p (modDroop p (fun d => { d with req := false, again := false }) s)

/-- Unmasked inputs that read 1. -/
def liveInputs (d : Droop) : BitVec 40 := d.inputs &&& ~~~d.mask

/-- What the inputs as they stand do: they open the window, extend it, or let its 2 µs begin. -/
def evalInputs (p : Nat) (s : State) : State :=
  let d := (war s p).droop
  if liveInputs d = 0 then (if d.open_ then modDroop p (fun d => { d with closing := true }) s else s)
  else if d.open_ then modDroop p (fun d => { d with closing := false }) s
  else
    let s1 := modW p (fun w => { w with droop := { w.droop with
      open_ := true, openAt := w.timer, closing := false, opened := w.droop.opened ||| liveInputs w.droop } }) s
    if d.order then s1 else openEffect p s1

/-- An indication arrives: droop detectors and margin sensors. -/
def windowOpenAt (p : Nat) (droop : BitVec 8) (margin : BitVec 32) (s : State) : State :=
  if !(war s p).alive then s
  else
    let bits : BitVec 40 := droop ++ margin
    if bits &&& ~~~(war s p).droop.mask = 0 then modDroop p (fun d => { d with inputs := d.inputs ||| bits }) s
    else evalInputs p (modDroop p (fun d => { d with inputs := d.inputs ||| bits }) s)

/-- Every unmasked input reads 0. What a masked input that stood at 1 reads meanwhile no row tells: a free value (log entry 164). -/
def inputClearAt (p : Nat) (s : State) : State :=
  if !(war s p).alive then s
  else
    let f := freeRead s
    let left := fun (d : Droop) => d.inputs &&& d.mask &&& f.1.setWidth 40
    evalInputs p (modDroop p (fun d => { d with inputs := left d, stuck := d.stuck &&& left d }) f.2)

/-- EV_DROOP_WINDOW, at most once a millisecond (R337). -/
def windowEvent (p : Nat) (s : State) : State :=
  let w := war s p
  let d := w.droop
  if (match d.evAt with | some t => decide (w.timer < t + msTicks) | none => false) then s
  else
    raiseW p (evAt evDroopWindow (partSite p) [(2, p), (4, d.sinceEv), (8, 10 * d.longest), (8, d.opened.toNat), (4, d.markEv)])
      (modDroop p (fun d => { d with evAt := some w.timer, sinceEv := 0, longest := 0, opened := 0, markEv := 0 }) s)

/-- 2 µs with every unmasked input at 0: the window closes. -/
def windowCloseAt (p : Nat) (s : State) : State :=
  let w := war s p
  if !(w.droop.open_ && w.droop.closing) then s
  else
    let s1 := modDroop p (fun d => { d with
      open_ := false, closing := false
      wins := d.wins.filter (fun x => decide (w.timer < x.2 + hourTicks)) ++ [(d.openAt, w.timer)]
      sinceEv := d.sinceEv + 1, longest := max d.longest (w.timer - d.openAt) }) s
    windowEvent p (if w.droop.order then s1 else closeEffect p s1)

/-- 65,536 snt_clk cycles after the closing. -/
def markingEndAt (p : Nat) (s : State) : State :=
  if windowOpen (war s p) then s else modDroop p (fun d => { d with marking := false }) s

/-- The site code of an input (R429). -/
def inputSite (p bit : Nat) : Nat := unitSite p 5 (if bit < 32 then bit else 0x40 + (bit - 32))

/-- A bit at 1 for 100 ms (R325). -/
def sensorStuckAt (p bit : Nat) (s : State) : State :=
  let d := (war s p).droop
  if bit < 40 ∧ d.inputs.getLsbD bit ∧ !d.stuck.getLsbD bit then
    raiseW p (evAt evPowerSensorStuck (inputSite p bit) [(4, inputSite p bit)])
      (modDroop p (fun d => { d with stuck := setBit d.stuck bit true }) s)
  else s

/-! ### The power order (R329, R331) -/

/-- The order reaches a warden, which acts as if its window were open. -/
def orderOn (p : Nat) (s : State) : State :=
  let d := (war s p).droop
  if d.order ∨ !(war s p).alive then s
  else
    let s1 := modDroop p (fun d => { d with order := true }) s
    if d.open_ then s1 else openEffect p s1

def orderOff (p : Nat) (s : State) : State :=
  let d := (war s p).droop
  if !d.order then s
  else
    let s1 := modDroop p (fun d => { d with order := false }) s
    if d.open_ then s1 else closeEffect p s1

/-- The serving hub's orders stand as its PowerWarn does. -/
def powerOrders (h : HubId) (s : State) : State :=
  if (hubOf s h).pwr.warn then forEach parts orderOn s else forEach parts orderOff s

/-! ### A warden that stops (R69, R335, R23) -/

/-- The interior stops: wdn_alive is 0 and the isolation clamps hold; its node and its trace are lost. A wafer order
waits for it no longer (R286). -/
def stopWarden (p : Nat) (s : State) : State :=
  if !(war s p).alive then s
  else
    let f := fun (k : Chan) => { k with fenceReq := true, drainErr := true, bankEn := 0xFFFFFFFFFFFFFFFF#64 }
    let s1 := modW p (fun w => { w with
      alive := false, stopped := true, pmap := 0, ch0 := f w.ch0, ch1 := f w.ch1, lnkFence := true
      droop := { w.droop with req := false }, staging := [], stagOcc := 0, heldW := [], evs := []
      shdQ := [], patBuf := [], patNext := none, haltReq := false, pcsWait := [] }) s
    let s2 := { s1 with vein := { s1.vein with nodesOut := insertOnce s1.vein.nodesOut (nodeOfPart p) } }
    let s3 := waferCheck (modReset p (fun r => { r with wafer := false }) s2)
    match serving s3 with | some h => loadDetour h s3 | none => s3

/-! ### The rows -/

def execDroopWindowOpen (p : Nat) (droop : BitVec 8) (margin : BitVec 32) (s : State) : Res0 := nextOf s (windowOpenAt p droop margin s)
def execDroopInputClear (p : Nat) (s : State) : Res0 := nextOf s (inputClearAt p s)
def execDroopWindow (p : Nat) (s : State) : Res0 := nextOf s (windowCloseAt p s)
def execMarkingEnd (p : Nat) (s : State) : Res0 := nextOf s (markingEndAt p s)
def execPowerSensorStuck (p bit : Nat) (s : State) : Res0 := nextOf s (sensorStuckAt p bit s)
def execStretchNoAck (p : Nat) (s : State) : Res0 := nextOf s (stretchNoAckAt p s)
def execStretchAckChange (p : Nat) (level : Bool) (s : State) : Res0 := nextOf s (stretchAckAt p level s)
def execDroopHoldExpiry (p : Nat) (s : State) : Res0 := nextOf s (holdExpiryAt p s)
def execWardenSupplyLoss (p : Nat) (s : State) : Res0 := nextOf s (stopWarden p s)
def execWardenInteriorStop (p : Nat) (s : State) : Res0 := nextOf s (stopWarden p s)

end Sys2Proof.Machine
end

