-- ==== Sys2Proof/Machine/Start.lean ====
section
/-! DEFINITION. Step 7 of a hub's start: the profile, the variant certificate, the start entries, the governor, the detour
table and the first map generations (R225, R233, R234, R299, R316 to R318); and the start of a warden (R303). -/

namespace Sys2Proof.Machine
open Sys2Proof

/-! ### Profiles (Table 3.4, R155, R316) -/

/-- The copy of a factory profile that the running management firmware carries (R317). -/
def profileOf (id : Nat) : Profile := factoryProfiles[id]?.getD {}

/-- The check of the blob of an ID (R317). -/
def blobFault (s : State) (id : Nat) : Nat := profileFault id (s.boot.profiles[id]?.getD [])

/-- The profile that comes into force for an ID: the blob of the profiles region, or the firmware's copy where the blob fails its
check (R317). -/
def profileFor (s : State) (id : Nat) : Profile :=
  if blobFault s id = 0 then profileIn (s.boot.profiles[id]?.getD []) else profileOf id

/-- A profile comes into force: its blob is checked (R317), EV_PROFILE_SET; the audit share returns to its value, and targeting
applies to the windows that open from now (R318). -/
def setProfile (id by_ : Nat) (s : State) : State :=
  let f := profileFor s id
  let bad := blobFault s id
  let s1 := if bad = 0 then s else raise (ev evProfileInvalid [(1, id), (1, bad)]) s
  raise (ev evProfileSet [(1, s.boot.profile.id), (1, id), (1, by_)])
    { s1 with boot := { s1.boot with profile := f }, tst := { s1.tst with share := none } }

/-- A disagreement of the two hubs' samples (R66, R318). -/
def pinsEvent (h : HubId) (s : State) : State :=
  if s.hubA.started && s.hubB.started && decide (s.hubA.profileSampled ≠ s.hubB.profileSampled) then
    raise (ev evProfilePins [(1, s.hubA.profileSampled.toNat), (1, s.hubB.profileSampled.toNat), (1, (hubOf s h).profileSampled.toNat)]) s
  else s

/-- The profile at a start: the one sampled by the Primary. At FENCE.RESTORE, which is no wafer reset, the profile in force lasts (R66,
R318). -/
def startProfile (h : HubId) (s : State) : State :=
  if (hubOf s h).kind = 2 then s else setProfile (hubOf s h).profileSampled.toNat 1 (pinsEvent h s)

/-! ### The variant certificate (R233, R234, R302) -/

/-- The key ID that the certificate states for a hub. -/
def variantKey (s : State) (h : HubId) : BitVec 64 := match h with | .a => s.keys.variant.huba | .b => s.keys.variant.hubb

/-- The cause of EV_VARIANT_INVALID for a hub's own key ID. -/
def vcHubKey : Nat := 6

/-- Why the certificate is not accepted, numbered as in EV_VARIANT_INVALID. The other hub's field is checked where that hub
has derived its identity. -/
def startFault (s : State) (h : HubId) : Option Nat :=
  let v := s.keys.variant
  let o := hubOf s (other h)
  if v.fail ≠ 0 then some v.fail
  else if v.member ≠ 0x62 then some 4
  else if v.step ≠ 0x0B01 then some 5
  else if variantKey s h ≠ (hubOf s h).keyId then some vcHubKey
  else if o.started && decide (o.role ≠ .down) && decide (variantKey s (other h) ≠ o.keyId) then some vcHubKey
  else none

/-- An entry of KIND 11 for every excluded partition, link, cell and trace lane, and one event with the counts. -/
def enterExclusions (s : State) : State :=
  let v := s.keys.variant
  let ps := parts.filter (fun p => !v.parts.getLsbD p)
  let ls := (List.range 48).filter (fun j => !v.links.getLsbD j)
  let cs := [HubId.a, HubId.b].flatMap (fun h => (List.range 16).filterMap (fun c => if v.cells ≤ c then some (h, c) else none))
  let ns := [HubId.a, HubId.b].flatMap (fun h => (List.range 4).filterMap (fun l => if v.lanes ≤ l then some (laneHubSite h l) else none))
  let sites := ps.map partSite ++ (ls.filter (fun j => (linkPlace s j).isSome)).map (linkSiteOf s) ++ cs.map (fun x => cellSite x.1 x.2) ++ ns
  raise (ev evVariantExcluded [(4, ps.length), (4, ls.length), (4, cs.length), (4, ns.length)])
    (forEach sites (fun site s => addEntry site 11 7 5 true s) s)

/-- Every entry of KIND 11 is removed at a start (R225). -/
def dropExclusions (s : State) : State :=
  forEach ((s.defects.tab.filter (fun e => defKind e.2 = 11)).map (fun e => defSite e.2)) removeEntry s

/-- The certificate is accepted and enforced, or the device joins nothing. -/
def startVariant (h : HubId) (s0 : State) : State :=
  let s := dropExclusions s0
  match startFault s h with
  | some c => raise (ev evVariantInvalid [(1, c)]) { s with boot := { s.boot with device := if s.boot.device = 1 then 1 else 2, refused := true } }
  | none => enterExclusions { s with keys := { s.keys with keySlots := s.keys.variant.slots }, boot := { s.boot with refused := false } }

/-! ### Start entries and the first map generation (R225, R303, R304) -/

/-- Entries of failed wardens that have come back (R303, Table 9.5); a partition that the certificate excludes has that entry instead
(R234). -/
def dropFailed (p : Nat) (s : State) : State :=
  match defFind s (partSite p) with
  | some (_, e) =>
    if defKind e = 14 then
      let s1 := removeEntry (partSite p) s
      if unlicensed s (partSite p) then addEntry (partSite p) 11 7 5 true s1 else s1
    else s
  | none => s

/-- The whole-link sites of a partition. -/
def linkSites (s : State) (p : Nat) : List Nat := (List.range (min 8 (linksAt s p))).map (linkSite p)

/-- The states of the resources that every warden maps, before they join or train. -/
def sharedStates (s : State) : List (Nat × Nat) :=
  (parts.map partSite ++ parts.flatMap (linkSites s)).map (fun x => (x, (defState? s x).getD stFenced))

/-- A warden that starts after step 7 brings links that the certificate excludes: their entries (R234). -/
def excludeLinks (p : Nat) (s : State) : State :=
  forEach ((linkSites s p).filter (fun x => unlicensed s x && !hasEntry s x)) (fun x s => addEntry x 11 7 5 true s) s

/-- The entries of a warden's own partition in the defect table. -/
def ownStates (s : State) (p : Nat) : List (Nat × Nat) := (entriesIn s (fun x => decide (sitePart x = p))).map (fun e => (siteKey (defSite e.2), defSt e.2))

/-- Does a partition come up (R305)? -/
def comesUp (s : State) (p : Nat) : Bool :=
  decide (s.boot.device = 0) && (war s p).alive && !(war s p).failed && decide (defState? s (partSite p) ≠ some 5) &&
  !partBarred s p

/-- The first map generation goes to a warden as one batch, with which its bring-up begins; after a power-fail warning the partition stays
Fenced until the next start (R319). The channels of one that does not come up take the purge bits of changes under way (R351, R353). -/
def firstBatch (p : Nat) (s : State) : State :=
  let s1 := openBatch p (sharedStates s ++ ownStates s p) (modW p (fun w => { w with floor := s.boot.profile.floor }) s)
  if !comesUp s p then loseChans p s1
  else if powerWarn s then modReset p (fun _ => { barred := true }) s1
  else modReset p (fun _ => { step := 1, bringup := true, startAt := (war s p).timer }) (modW p (fun w => { w with confirmDue := true }) s1)

/-- The states of the hubs' cells and trace lanes as the table gives them (R225, R382). -/
def loadCells (s : State) : State :=
  let lanes := fun (h : HubId) => maskOf 4 ((List.range 4).filter (fun l => hasEntry s (laneHubSite h l)))
  forEach (List.range 32) (fun k s => match defState? s (keySite k) with | some st => modCell k (fun x => { x with state := st }) s | none => s)
    (modTrace .b (fun b => { b with lanesOut := lanes .b }) (modTrace .a (fun b => { b with lanesOut := lanes .a }) s))

/-! ### The device window (R287 to R289) -/

/-- A start after sys_rst_n is a wafer reset: its stamp, and the device leaves service at the third within an hour. -/
def countWafer (t : Nat) (s : State) : State :=
  let l := lastN 3 (s.boot.wafers ++ [t])
  let s1 := nvWrite nvCounters { s with boot := { s.boot with wafers := l } }
  if 3 ≤ stampsIn l t deviceWindow then
    raise (ev evDeviceOut (l.map (fun x => (8, x)))) { s1 with boot := { s1.boot with device := 1 } }
  else s1

/-- EV_STRATA_START is the first record of a start (R404); the events that the hubs held follow it. -/
def firstRecords (h : HubId) (s : State) : State :=
  let x := hubOf s h
  ingestHubHeld (raise (ev evStrataStart [(8, s.strata.countNv), (1, x.kind), (1, if x.kind = 2 then s.boot.profile.id else x.profileSampled.toNat)])
    { s with boot := { s.boot with up := true, releasedAt := x.releasedAt } })

/-- Step 7 of Table 12.2, in the hub that takes role Primary or Sole. A warden that has granted no lease yet receives its first map
generation when it does (R303). -/
def bringUp (h : HubId) (s : State) : State :=
  let x := hubOf s h
  let s2 := { s with boot := { s.boot with fast := x.fast } }
  let s3 := if x.byReset then countWafer x.releasedAt s2 else s2
  let s4 := startVariant h (startProfile h s3)
  let s5 := forEach (leased s4 h) dropFailed s4
  let s6 := loadDetour h (governorStart (loadCells s5))
  let s7 := { s6 with net := s6.net.filter (fun m => match m with | .sentry _ _ _ => false | _ => true) }
  let on := fun p => decide (p ∈ leased s7 h) && (war s7 p).alive && !(war s7 p).failed
  forEach (parts.filter (fun p => !on p)) loseChans (forEach ((leased s7 h).filter on) firstBatch s7)

/-! ### The start of a warden (R303) -/

def wardenStartAt (p : Nat) (inp : WardenIn) (s : State) : State :=
  let w := war s p
  if 97 < p ∨ w.alive ∨ w.stopped then s
  else
    let n := nodeOfPart p
    let dead := (List.range 4).filterMap (fun i => if inp.portsOk.getLsbD i then none else (neighbour n i).map (fun m => (n, m)))
    modW p (fun w => { w with
        alive := true, linkBase := inp.linkBase % 64, linkCount := inp.linkCount % 16
        prng := (List.range 21).foldl (fun t i => tset t i ((inp.seeds[i]?).getD 0)) [] })
      { s with vein := { s.vein with linksOut := dead.foldl insertOnce s.vein.linksOut, nodesOut := s.vein.nodesOut.filter (· ≠ n) } }

def execWardenStart (p : Nat) (inp : WardenIn) (s : State) : Res0 := nextOf s (wardenStartAt p inp s)

end Sys2Proof.Machine
end

