-- ==== Sys2Proof/Machine/Roles.lean ====
section
/-! DEFINITION. Leases, claims and hub roles (R21, R22, R293), and what a hub does that takes the role of Primary or Sole
(R229, R265, R266, R427, R451). -/

namespace Sys2Proof.Machine
open Sys2Proof

/-! ### The flush of a power-fail warning (Table 13.2) -/

/-- The newest 2,048 records up to a hub's own EV_POWER_FAIL_WARN. -/
def flushRecs (h : HubId) (l : List Rec) : List Rec :=
  let mine := fun (r : Rec) => decide (r.ev.code = evPowerFailWarn) && decide (r.ev.site = hubSite h)
  let upTo := (l.reverse.dropWhile (fun r => !mine r)).reverse
  newestRecs 2048 (if upTo = [] then l else upTo)

/-- Step 3: the defect table as it stood when the warning was accepted (DESIGN CHOICE, log entry 167), which is the committed generation
where no commit came between. -/
def flushTable (h : HubId) (s : State) : State :=
  match (hubOf s h).pwr.table with
  | none => s
  | some (n, t) =>
    flushStale h nvDefects (if s.defects.commits = n then
        { modDefects (fun d => { d with committed := t, gen := !d.gen, dirty := decide (d.tab ≠ t), commits := d.commits + 1 }) s with
          boot := { s.boot with nvTable := true } }
      else s)

/-- Step 4: the persistent counters, with the highest count and RSN assigned. -/
def flushCounters (h : HubId) (s : State) : State :=
  flushStale h nvCounters { s with
    strata := { s.strata with countNv := s.strata.nextCount - 1 }
    sync := { s.sync with rsnNv := s.sync.nextRsn - 1 } }

/-- A hub that goes Down during its flush stops it where it stands (R332): how far it came is a free value, a number of records or all of
them with the items that follow. The area then holds records of two flushes (R403). -/
def cutFlush (h : HubId) (s : State) : State :=
  let x := hubOf s h
  if !x.pwr.warn || x.pwr.flushed then s
  else
    let f := freeRead s
    let n := f.1.toNat % 2051
    let s1 := modHub h (fun x => { x with pfail := (flushRecs h s.strata.circ).take n ++ x.pfail.drop n, pfailDone := decide (2048 ≤ n) }) f.2
    let s2 := if n = 0 then s1 else flushStale h nvPowerFail s1
    let s3 := if 2049 ≤ n then flushTable h s2 else s2
    if 2050 ≤ n then flushCounters h s3 else s3

/-! ### Down (Table 1.7, R161, R332) -/

/-- A hub goes Down: its Vein ports idle, its cells and shared area are lost, its trace and its flush stop. A peer that serves
goes on alone with what stood in the mirror (R19), and its cells run the arbitration samples that waited or ran at the lost one (R161). -/
def goDown (h : HubId) (s : State) : State :=
  if (hubOf s h).role = .down then s
  else
    let s1 := setRole h .down (cutFlush h s)
    let s2 := modHub h (fun x => { x with leases := [], trace := {}, snaps := [], mayClaim := false
                                          pwr := { x.pwr with warn := false } }) s1
    let s3 := hubCellsLost h { s2 with net := s2.net.filter (fun m => match m with | .claim g _ => g ≠ h | _ => true) }
    match serving s3 with | some g => offerAll (rescan g (loadDetour g (mirFlush s3))) | none => s3

/-! ### Claims -/

/-- A warden that a hub may renew or claim (R296). -/
def claimable (s : State) (p : Nat) : Bool := (war s p).alive && !(war s p).failed

/-- A primacy claim to every warden. -/
def sendClaims (h : HubId) (s : State) : State :=
  forEach (parts.filter (fun p => claimable s p && !inFlight (.claim h p) s)) (fun p s => send (.claim h p) s) s

def beginClaim (h : HubId) (s : State) : State := sendClaims h (setRole h .claiming s)

/-! ### Secondary (R19, R302, R397) -/

/-- The mirror is loaded from the Primary: release records, ATTEMPTs, COUNTs, queue pointers. -/
def loadMirror (s : State) : State :=
  let s1 := modMir (fun m => { m with
    out := [], acks := [], rels := s.sync.rels
    attempts := s.sync.objs.map (fun o => (o.1, (o.2.epoch, o.2.attempt)))
    sems := (s.sync.objs.filter (fun o => o.2.type ≠ 1)).map (fun o => (o.1, o.2.count))
    fails := (s.sync.objs.filter (fun o => o.2.type = 1 && (gatherOf s o.1).tallyFull)).map (fun o => (o.1, o.2.epoch)) ++ s.sync.full }) s
  forEach (List.range 8) (fun q s => modQueue q (fun x => { x with sqHeadMir := x.sqHead }) s) s1

/-- A hub takes role Secondary with the Primary's time (R397). A hub whose key ID the variant certificate does not state is held Down (R302). -/
def beginSecondary (h : HubId) (s : State) : State :=
  if variantKey s h ≠ (hubOf s h).keyId ∧ s.boot.device ≠ 2 ∧ !s.boot.refused then raise (ev evVariantInvalid [(1, vcHubKey)]) (goDown h s)
  else
    let s1 := modHub h (fun x => { x with withdrawals := 0, mayClaim := true, leases := [], time := (hubOf s (other h)).time, slowAdj := 0 }) s
    loadMirror (setRole h .secondary s1)

/-- A returning hub copies its stale regions from its peer, over the peer link: not while the peer is Down, or while it has declared
the peer failed (R19). -/
def copyStale (h : HubId) (s : State) : State :=
  if decide ((hubOf s (other h)).role = .down) || (hubOf s h).peerFailed then s
  else modHub h (fun x => { x with stale := [], fwImg := if nvFirmware ∈ x.stale then (hubOf s (other h)).fwImg else x.fwImg }) s

/-- A hub in Starting whose start is complete becomes Secondary where it sees a Primary, else claims (Table 1.7). It first copies
its stale regions from its peer, and stays in Starting while the peer is Down and cannot give them (R19). -/
def settleRole (h : HubId) (s0 : State) : State :=
  let x := hubOf s0 h
  if x.role ≠ .starting ∨ !x.started then s0
  else
    let s := copyStale h s0
    if decide ((hubOf s h).stale ≠ []) && decide ((hubOf s (other h)).role = .down) then s
    else if isServing (hubOf s (other h)) && !x.peerFailed then beginSecondary h s
    else if x.mayClaim then beginClaim h s
    else s

/-! ### Leases (R21, R22) -/

/-- A renewal reaches a warden that holds the hub's lease, and its acknowledgement the hub. -/
def leaseRenewalAt (h : HubId) (p : Nat) (s : State) : State :=
  if isServing (hubOf s h) && claimable s p && decide ((war s p).lease = some h) then
    modHub h (fun x => { x with leases := tset x.leases p x.time }) (modW p (fun w => { w with lapsed := false }) s)
  else s

/-- A hub counts a lease as gone; one that falls below a quorum serves no more (Table 1.7). -/
def dropLease (h : HubId) (p : Nat) (s : State) : State :=
  let s1 := modHub h (fun x => { x with leases := tdel x.leases p }) s
  if isServing (hubOf s1 h) && !hasQuorum s1 h then settleRole (other h) (settleRole h (setRole h .starting s1)) else s1

/-- A hub that serves and whose leases are below a quorum, a partition having been retired or brought back, serves no more (Table 1.7). -/
def quorumCheck (s : State) : State :=
  match serving s with
  | some h => if hasQuorum s h then s else settleRole (other h) (settleRole h (setRole h .starting s))
  | none => s

def leaseExpiryAt (h : HubId) (p : Nat) (s : State) : State :=
  if ((hubOf s h).leases.any (fun e => e.1 = p)) then dropLease h p s else s

/-- A warden's lease lapses by its own timer. -/
def leaseLapseAt (p : Nat) (s : State) : State :=
  match (war s p).lease with
  | none => s
  | some h => leaseExpiryAt h p (modW p (fun w => { w with lease := none, lapsed := true, lapseAt := w.timer }) s)

/-! ### What a warden tells the hub that takes its lease (R24, R247, R251, R265) -/

/-- A warden's copy of a barrier at the Primary's epoch of it. -/
def copyAt (s : State) (p o : Nat) : Option LocalObj :=
  (tfind (war s p).objs o).bind (fun l => if l.epoch = (objOf s o).epoch then some l else none)

/-- Has a warden not taken the last replay order of a barrier (R266)? -/
def lacksOrder (s : State) (o p : Nat) : Bool :=
  (copyAt s p o).any (fun l => decide (l.acted < (objOf s o).attempt) && decide (l.replay ≠ some (objOf s o).attempt))

/-- Is what a warden holds of a barrier the execution before a replay, which it does not report to a hub that serves already (R266)? -/
def oldRun (s : State) (p o : Nat) : Bool := lacksOrder s o p || (copyAt s p o).any (fun l => l.replay.isSome)

/-- The same for an epoch. -/
def oldEpoch (s : State) (p e : Nat) : Bool := (war s p).objs.any (fun o => decide (o.2.type = 1) && decide (o.2.epoch = e) && oldRun s p o.1)

/-- Arrivals the hub has not been told of, unacknowledged posts, failures and clean epochs. -/
def reportAll (p : Nat) (s : State) : State :=
  let s1 := forEach ((war s p).objs.filter (fun o => o.2.type = 1 ∧ o.2.sent < o.2.arr ∧ oldRun s p o.1 = false)) (fun o s =>
    forEach (List.range (o.2.arr - o.2.sent)) (fun _ s => send (.arrival p o.1 o.2.epoch) s)
      (modLobj p o.1 (fun l => { l with sent := l.arr }) s)) s
  let s2 := forEach ((war s1 p).posts.filter (fun x => !inFlight (.post p x.1 x.2) s1 && !inFlight (.postAck p x.1) s1)) (fun x s =>
    send (.post p x.1 x.2) s) s1
  let s3 := forEach ((war s2 p).tallies.filter (fun t => t.kinds ≠ 0 ∧ oldEpoch s2 p t.epoch = false)) (fun t s => sendFailure p t.epoch none false s) s2
  let s4 := forEach (((war s3 p).tallies.filter (fun t => !oldEpoch s3 p t.epoch)).flatMap (fun t => t.triFails.map (fun x => (t.epoch, x.1)))) (fun x s =>
    sendFailure p x.1 (some x.2) false s) s3
  sendClean p s4

/-! ### Batches of a new Primary (R229) -/

/-- The states that every warden maps, as they stand at their owners. -/
def liveShared (s : State) : List (Nat × Nat) :=
  (parts.map partSite ++ parts.flatMap (linkSites s)).map (fun x =>
    (x, (defState? s x).getD (if (war s (sitePart x)).valid then heldState s (sitePart x) x else stFenced)))

/-- A warden's batch from the defect table and the live states, with what a batch open before, changes due after it and updates on
their way held; it is the only batch of the warden (R229). A warden without a first generation receives it. -/
def takeBatch (lost : List (Nat × Nat × Nat)) (p : Nat) (s : State) : State :=
  let w := war s p
  if !w.valid then (if w.batch.isNone then firstBatch p s else s)
  else
    let mine := (lost.filter (fun x => x.1 = p)).map (fun x => (siteKey x.2.1, x.2.2))
    let es := (liveShared s ++ ownStates s p ++ w.batch.getD [] ++ w.mapDue.flatMap (·.2) ++ mine).filter (fun e =>
      !resetKeeps s p e.1 && decide (e.1 ∉ w.sticky))
    openBatch p es (modW p (fun w => { w with batch := none, mapDue := [] }) s)

/-! ### Releases and replay orders sent again (R264 to R266) -/

/-- The releases that a warden lacks, in ascending RSN, and the tally-closes of those records. -/
def resend (p : Nat) (s : State) : Nat × State :=
  let waits := fun (r : RelRec) => (waitingRel s r.rsn).isSome
  let mine := (s.sync.rels.map (·.2)).filter (fun r => decide (p ∈ r.parts) && decide ((war s p).rsn < r.rsn) && !waits r)
  let l := (sortNat (mine.map (·.rsn))).filterMap (fun n => mine.find? (fun r => r.rsn = n))
  let s1 := modW p (fun w => { w with early := [] }) { s with sync := { s.sync with lastTo := tset s.sync.lastTo p (war s p).rsn } }
  let s2 := forEach l (fun r s => send (.release p r.obj r.epoch r.rsn (tget 0 s.sync.lastTo p))
    { s with sync := { s.sync with lastTo := tset s.sync.lastTo p r.rsn } }) s1
  (l.length, forEach (s2.sync.rels.filter (fun r => decide (p ∈ r.2.closes) && !waits r.2)) (fun r s => send (.tclose p r.2.epoch) s) s2)

/-- Barriers in Collecting or Closing. -/
def liveBarriers (s : State) : List Nat := (s.sync.objs.filter (fun o => isLive o.2)).map (·.1)

/-- What a warden lacks that returns to a hub which serves already: releases, and replay orders that have gone out. -/
def resendTo (p : Nat) (s : State) : State :=
  let s1 := (resend p { s with net := s.net.filter (fun m => match m with
    | .release q _ _ r _ => !(decide (q = p) && decide (r ≠ 0)) | .tclose q _ => decide (q ≠ p) | _ => true) }).2
  forEach ((liveBarriers s1).filter (fun o => lacksOrder s1 o p && !(gatherOf s1 o).replaying &&
    !inFlight (.replay p o (objOf s1 o).epoch (objOf s1 o).attempt) s1)) (fun o s =>
      send (.replay p o (objOf s o).epoch (objOf s o).attempt) s) s1

/-- The time without a lease does not count as recovery (R284, R472). -/
def idleTime (p : Nat) (s : State) : State :=
  let w := war s p
  if w.lapsed && (decide (w.reset.step ≠ 0) || w.reset.done.isSome) then
    modReset p (fun r => { r with idle := r.idle + (w.timer - max w.lapseAt r.startAt) }) s
  else s

/-- A warden grants its lease to a hub that serves already. -/
def lateGrant (p : Nat) (s : State) : State :=
  let fresh := fun (s : State) => excludeLinks p (dropFailed p s)
  holdRecover p (reportAll p (resendTo p (takeBatch [] p (if (war s p).valid then s else fresh s))))

/-- A warden receives a claim: it grants a lease only where it holds none (R22, R303). -/
def claimAt (h : HubId) (p : Nat) (s : State) : State :=
  if !inFlight (.claim h p) s && !isServing (hubOf s h) then s
  else
    let s1 := recv (.claim h p) s
    if !claimable s1 p || (war s1 p).lease.isSome || decide ((hubOf s1 h).role = .down) then s1
    else
      let s2 := modHub h (fun x => { x with leases := tset x.leases p x.time }) (settleEntries p (modW p (fun w => { w with lease := some h, lapsed := false }) (idleTime p s1)))
      if isServing (hubOf s h) then lateGrant p s2 else s2

def claimTickAt (h : HubId) (s : State) : State := if (hubOf s h).role = .claiming then sendClaims h s else s

/-- 40 ms without a quorum: the claim is withdrawn; the third in succession takes the hub Down. -/
def claimWithdrawnAt (h : HubId) (s : State) : State :=
  let x := hubOf s h
  if x.role ≠ .claiming ∨ hasQuorum s h then s
  else
    let s1 := raise (evAt evClaimWithdrawn (hubSite h) [(1, hubNum h), (4, x.leases.length), (4, x.withdrawals + 1)])
      { s with net := s.net.filter (fun m => match m with | .claim g _ => g ≠ h | _ => true) }
    let s2 := modHub h (fun x => { x with withdrawals := x.withdrawals + 1, leases := [], mayClaim := false }) s1
    if 3 ≤ x.withdrawals + 1 then goDown h (setRole h .starting s2) else settleRole h (setRole h .starting s2)

/-- 1 s after a withdrawal the hub may claim again. -/
def claimRetryAt (h : HubId) (s : State) : State :=
  let x := hubOf s h
  if x.role = .starting ∧ x.started then settleRole h (modHub h (fun x => { x with mayClaim := true }) s) else s

/-! ### The peer (R293) -/

/-- A probe to the peer; a hub that is Down does not answer. -/
def peerProbeAt (h : HubId) (s : State) : State :=
  let r := (hubOf s h).role
  if r = .primary ∨ r = .secondary then
    drive (.peerProbe h) s
  else s

/-- The peer is declared failed, for its heartbeat (1) or an unanswered message (2). -/
def hubFailoverAt (h : HubId) (cause : Nat) (s : State) : State :=
  let x := hubOf s h
  let e := fun (r : Role) => evAt evHubFailover (hubSite h) [(1, hubNum h), (1, cause), (1, roleCode r)]
  let fail := modHub h (fun x => { x with peerFailed := true })
  if cause ≠ 1 ∧ cause ≠ 2 then s
  else if x.role = .primary then recollect h (mirFlush (setRole h .sole (raise (e .sole) (fail s))))
  else if x.role = .secondary then
    beginClaim h (irqBit h 9 { fail s with strata := { s.strata with hubHeld := s.strata.hubHeld ++ [(h, e .claiming)] } })
  else s

/-- The peer reaches Secondary: a Sole hub mirrors again and returns the peer's trace. -/
def peerSecondaryAt (h : HubId) (s : State) : State :=
  if (hubOf s h).role = .sole ∧ (hubOf s (other h)).role = .secondary then
    recollect h (setRole h .primary (modHub h (fun x => { x with peerFailed := false }) s))
  else s

/-! ### Taking the role: what the mirror lacks (R263, R265) -/

/-- The records of an event, the newest that it has, leave an area. -/
def dropRec (e : Ev) (l : List Rec) : List Rec :=
  match l.reverse.find? (fun r => r.ev = e && !r.cont) with
  | some r => l.filter (fun x => !(x.ev = e && (decide (x.count = r.count) || (x.cont && decide (x.count = r.count + 1)))))
  | none => l

/-- An event that the mirror does not hold is not ingested: its record is gone, and its warden, which keeps it, sends it again (R401). -/
def undoEvent (p n : Nat) (s : State) : State :=
  match (war s p).evs.find? (fun x => x.1 = n) with
  | none => s
  | some x =>
    if (tget [] s.strata.early p).any (fun y => y.1 = n) then
      modStrata (fun b => { b with early := tput [] b.early p ((tget [] b.early p).filter (fun y => y.1 ≠ n)) }) s
    else
      modStrata (fun b => { b with
        circ := dropRec x.2 b.circ, hold := dropRec x.2 b.hold, perm := dropRec x.2 b.perm
        ingested := if tget 0 b.ingested p = (n + 1) % 65536 then tset b.ingested p n else b.ingested
        late := if tget 0 b.ingested p = (n + 1) % 65536 then b.late else tput [] b.late p (tget [] b.late p ++ [n]) }) s

/-- A write that the mirror does not hold did not happen for the new Primary. -/
def undoItem (i : MItem) (s : State) : State :=
  match i with
  | .release rsn => match waitingRel s rsn with | some r => cancelRelease r.obj s | none => s
  | .attempt o e n =>
    let x := objOf s o
    if x.epoch = e ∧ x.attempt = n then modGather o (fun g => { g with replaying := false }) (modObj o (fun x => { x with attempt := n - 1 }) s) else s
  | .failSet o e _ =>
    let s1 := { s with sync := { s.sync with full := s.sync.full.filter (· ≠ (o, e)) } }
    if (objOf s o).epoch = e then modGather o (fun g => { g with tallyFull := false }) s1 else s1
  | .sem _ _ _ _ => s
  | .event p n => undoEvent p n s
  | .sqHead _ _ => s

/-- A write that the mirror holds and the failed hub had not acknowledged is acted on and acknowledged by the new one; a release is
sent again by the confirmation. -/
def ackItem (i : MItem) (s : State) : State :=
  match i with
  | .release _ => s
  | i => mirActs i s

/-- Releases that the mirror does not hold do not happen: the hub that takes the role decides again (R250, R265). -/
def dropReleases (s : State) : State := forEach (s.mir.out.filter isRelItem).reverse undoItem s

/-- The former Secondary starts from its mirror: queue heads too (R427). -/
def fromMirror (s : State) : State :=
  let s1 := forEach s.mir.out.reverse undoItem s
  let s2 := forEach s.mir.acks ackItem s1
  let s3 := forEach (List.range 8) (fun q s => modQueue q (fun x => { x with sqHead := x.sqHeadMir }) s) s2
  modMir (fun m => { m with out := [], acks := [] }) { s3 with sync := { s3.sync with relWait := [] } }

/-- Messages on their way to or from the former Primary that the confirmation replaces. -/
def dropStale (s : State) : State :=
  { s with net := s.net.filter (fun m => match m with
      | .arrival _ _ _ => false | .clean _ _ _ => false | .failure _ _ _ => false | .sentry _ _ _ => false
      | .switched _ _ _ => false | .post _ _ _ => false | .release _ _ e r _ => decide (e = 0 ∧ r = 0) | .tclose _ _ => false
      | .query _ _ _ => false | .replay _ _ _ _ => false | _ => true) }

/-! ### The confirmation of the release sequence (R265, R266) -/

/-- COUNT and FAIL of a barrier from what the wardens report. A warden that has not taken the last replay order reports the execution
before, and receives the order again, unless its ATTEMPT is still on its way to the mirror; one whose swaps are under way reports an
execution that has no arrivals yet. The number of orders sent again. -/
def recount (ws : List Nat) (o : Nat) (s : State) : Nat × State :=
  let x := objOf s o
  let g := gatherOf s o
  let acted := ws.filter (fun p => (copyAt s p o).any (fun l => decide (x.attempt ≤ l.acted)))
  let old := if g.replaying then [] else ws.filter (lacksOrder s o)
  let ts := acted.filterMap (fun p => if x.gate.getLsbD p then (tallyOf (war s p) x.epoch).map (fun t => (p, t)) else none)
  let tris := ts.flatMap (fun e => e.2.triFails.map (fun f => (e.1, f.1)))
  let opened := tris.filter (fun e => triageOpen s e.1 x.epoch e.2)
  let kinds := ts.foldl (fun k e => k ||| tallyKinds e.2) 0
  let full := decide ((o, x.epoch) ∈ s.mir.fails) || g.tallyFull
  let count := (acted.map (fun p => ((copyAt s p o).map (·.arr)).getD 0)).sum
  let s1 := modGather o (fun g => { g with
    clean := [], kinds := if full then kinds ||| fkTallyFull else kinds, opened, tallyFull := full
    poisoned := kinds.getLsbD 3, input := ts.any (fun e => e.2.input) || (kinds.getLsbD 5 && decide (0 < x.attempt))
    other := ts.any (fun e => e.2.kinds ≠ 0) || tris.any (fun e => decide (e ∉ opened) && decide (e ∉ g.cleared)) }) s
  let s2 := modObj o (fun x => { x with
    count, fail := decide (kinds ≠ 0) || full, state := if count = x.part ∧ !g.replaying then 3 else 2 }) s1
  let s3 := forEach acted (fun p s => modLobj p o (fun l => { l with sent := l.arr, cleanSent := false, query := false }) s) s2
  let s4 := forEach old (fun p s => send (.replay p o x.epoch x.attempt) s) s3
  (old.length, if (objOf s4 o).state = 3 then sendQueries o s4 else s4)

/-- Is a warden's post on its way to the mirror, or mirrored and not yet acknowledged? -/
def postKnown (s : State) (p num : Nat) : Bool :=
  (s.mir.acks ++ s.mir.out).any (fun i => match i with | .sem _ _ q n => decide (q = p) && decide (n = num) | _ => false)

/-- The posts of a warden that are not yet applied, applied by their numbers. -/
def applyPosts (p : Nat) (s : State) : Nat × State :=
  let l := (war s p).posts.filter (fun x => !inFlight (.postAck p x.1) s && !postKnown s p x.1)
  (l.length, forEach l (fun x s => applyPost p x.1 x.2 s) s)

/-- Run a counting operation over a list. -/
def countEach {α : Type} (l : List α) (f : α → State → Nat × State) (s : State) : Nat × State :=
  l.foldl (fun a x => let r := f x a.2; (a.1 + r.1, r.2)) (0, s)

/-- The highest RSN of a release record, else the last that a start took as used (R265, R267). -/
def topRsn (s : State) : Nat :=
  match s.sync.rels with | [] => s.sync.nextRsn - 1 | l => l.foldl (fun m r => max m r.2.rsn) 0

/-- A warden that holds no lease yet reports when it grants one: then all its arrivals of the current executions. -/
def forgetSent (p : Nat) (s : State) : State :=
  modW p (fun w => { w with objs := w.objs.map (fun e => (e.1, { e.2 with sent := 0, cleanSent := false })) }) s

/-- The confirmation, with EV_SYNC_CONFIRMED (Table 10.7). -/
def confirm (h : HubId) (s0 : State) : State :=
  let ws := leased s0 h
  let m := topRsn s0
  let s := forEach (parts.filter (fun p => decide (p ∉ ws))) forgetSent { s0 with sync := { s0.sync with nextRsn := m + 1 } }
  let a := countEach ws resend s
  let b := countEach (liveBarriers a.2) (recount ws) a.2
  let c := countEach ws applyPosts b.2
  forEach ws sendClean
    (raise (ev evSyncConfirmed [(1, hubNum h), (8, m), (4, a.1), (4, b.1), (4, c.1)]) c.2)

/-! ### Queues and registers of a new Primary (R427, R451, R454, R455) -/

/-- A key change whose ACCEPTED was not mirrored has had no effect: the context is as before, and the channels write under the
old tag again. -/
def undoKeys (c : Nat) (s : State) : State :=
  let x := ctxOf s c
  if x.state ≠ 1 then s
  else
    let tag := keyTag x.wepoch
    let s1 := modCtx c (fun x => { x with
      state := 0, wepoch := x.oepoch, wsrc := x.osrc, wslot := x.oslot, oepoch := 0, osrc := 0, oslot := 0, need := [], loading := []
      cid := if x.osrc = 1 then (slotOf s x.oslot).cid else 0 }) s
    forEach (allChans.filter (chanUp s1)) (fun ch s =>
      let kept := fun (k : Chan) => match k.keyQ with | [] => [] | a :: r => a :: r.filter (fun y => !(y.1 = c && y.2.1 = tag))
      keyPush ch (ctxLoads s ch c ++ [(c, tag, 2, 0)]) (modChan ch (fun k => { k with keyQ := kept k }) s)) s1

/-- Header bytes of the packet in a slot. -/
def slotField (s : State) (q : Nat) (count : BitVec 16) (off n : Nat) : Nat :=
  ((List.range n).map (fun i => (tget 0 (queueOf s q).mem (slotAddr count + off + i)).toNat * 256 ^ i)).sum

/-- A packet that was taken and has no reply receives HUB_FAILOVER. -/
def failoverReply (h : HubId) (q : Nat) (count : BitVec 16) (s : State) : State :=
  postFirst h count { tag := BitVec.ofNat 16 (slotField s q count 2 2), opcode := BitVec.ofNat 16 (slotField s q count 0 2), status := stFailover,
                      queue := q, final := true, rlen := 0, eoff := 0, cause := 0, res := List.replicate 16 0 } s

/-- The queues of a new Primary. One that served last has its own queue memory; another has what was mirrored to it, so that packets written and
not taken are not known to it (R412, R427). -/
def takeQueues (h : HubId) (s0 : State) : State :=
  let own := fun (x : Queue) => if s0.boot.lastServ = some h then x else { x with mem := x.memMir }
  let s := forEach (List.range 8) (fun q s => modQueue q own s) s0
  let held := s.cmd.held
  let slow := s.cmd.opens.filter (fun o => o.first.isSome)
  let s1 := { s with cmd := { s.cmd with held := [], loads := [], opens := s.cmd.opens.filter (fun o => o.first.isNone) }
                     sync := { s.sync with due := s.sync.due.filter (· ≠ .command) } }
  let s2 := forEach held (fun x s => failoverReply h x.1 x.2.1 s) s1
  let s3 := forEach slow (fun o s =>
    failoverReply h o.queue (o.first.getD 0) (if o.opcode.toNat ∈ [0x0B04, 0x0B06, 0x0B07] then undoKeys o.key s else s)) s2
  forEach (List.range 8) (fun q s => modQueue q (fun x => returnSlots false { x with tail := x.taken }) s) s3

/-- Final replies of commands that ended while no hub served; one with no first reply receives HUB_FAILOVER (R427). -/
def postFinals (h : HubId) (s : State) : State :=
  forEach s.cmd.finals (fun x s =>
    match x.1.first with
    | some n => failoverReply h x.1.queue n s
    | none => postReply h (finalReply x.1 x.2.1 x.2.2.1 x.2.2.2) s) { s with cmd := { s.cmd with finals := [] } }

/-- IRQ_STAT of a hub that takes the role: ROLE, PEER, and the queues with replies not yet consumed. -/
def startIrq (s : State) : BitVec 19 :=
  (List.range 8).foldl (fun b q => if (queueOf s q).sqTail = (queueOf s q).sqHead then b else b ||| (1#19 <<< q)) 0x300#19

/-- The registers of a hub that takes the role. The interrupt mask and configuration are the mirrored ones. -/
def takeRegs (h : HubId) (former : Option HubId) (s : State) : State :=
  let s1 := match former with
    | some g => modHub h (fun x => { x with irqMask := (hubOf s g).irqMask, irqCls := (hubOf s g).irqCls, irqSev := (hubOf s g).irqSev }) s
    | none => s
  modHub h (fun x => { x with irqStat := startIrq s1, strArea := 0, strPos := 0, snaps := [], expData := [], expOrigin := 0, expSeq := 0, expGen := 0 }) s1

/-! ### The takeover -/

/-- Failed tests held while no hub served (R200). -/
def takeTests (p : Nat) (s : State) : State :=
  forEach ((war s p).cores.filter (fun k => k.2.heldFail.isSome)) (fun k s =>
    match k.2.heldFail with
    | some (kind, unit, why, layer) => failTest p k.1 kind unit why layer (modCore p k.1 (fun c => { c with heldFail := none }) s)
    | none => s) s

/-- Firmware checks lost with the failed hub are asked for again (R320). -/
def takeFirmware (s : State) : State :=
  let s1 := forEach (parts.filter (fun p => decide ((resetOf s p).step = 5) && (resetOf s p).fwAsked && !(resetOf s p).fwCheck && !(resetOf s p).fwStart))
    (fun p s => modReset p (fun r => { r with fwAsked := false }) s) { s with boot := { s.boot with gather := none } }
  firmwareAll s1

/-- Work kept due begins, or is kept again (R472). `perform` performs the oldest command held. -/
def dueStep (perform : State → State) (d : Due) (s : State) : State :=
  match d with
  | .barrier o => settle o s
  | .swaps p => replayAll p s
  | .offer p c => rotationTimerAt p c s
  | .spareTest p c => spareTestDueAt p c s
  | .pattern p c o q => patternRunAt p c o q s
  | .directed p => directedPhaseStartAt p s
  | .join p => partitionJoinAt p s
  | .probation p => probationEndAt p s
  | .recovery p => recoveryDue p s
  | .batch p => batchDue p s
  | .harvest p src c j => harvestFrom p src c j s
  | .harvestRun o q => judgePattern o q s
  | .test p src => swapTest p src s
  | .command => perform s

/-- All work kept due, in the order in which it became due, as soon as it may begin (R472). -/
def settleDue (perform : State → State) (s : State) : State :=
  if mayBegin s then forEach s.sync.due (dueStep perform) { s with sync := { s.sync with due := [] } } else s

/-- A spare's pattern run that a failover interrupted is ordered again (R200); one that no spare has in hand may be ordered anew. -/
def runAgain (r : PatRun) (s : State) : State :=
  match (coreOf s r.part r.src).test with
  | some t =>
    if t.why = 4 ∧ t.pats = [(r.origin, r.seq)] then startPattern r.part r.src 4 r.origin r.seq (dropTest r.part r.src s) else s
  | none => dropRun r.part r.src s

/-- The pattern runs of a new Primary: the harvests of the failed hub are built again (R208), and the runs under way ordered again. -/
def takeRuns (h : HubId) (s : State) : State :=
  let s1 := forEach (s.quarry.harvests.filter (fun x => decide (x.hub ≠ h))) (rebuildHarvest h) s
  forEach (s1.quarry.runs.filter (fun r => !r.done)) runAgain s1

/-- Another hub than before takes the role, or the same after it lost its quorum. The findings that waited for it are charged (R95), the
samples that wait are offered to the cells (R137), and the patterns whose runs came in meanwhile are judged (R200). -/
def takeOver (h : HubId) (role : Role) (s : State) : State :=
  let former := s.boot.lastServ
  let fresh := decide (former ≠ some h)
  let s0 := if fresh then fromMirror s else dropReleases s
  if (leased s0 h).any (fun p => decide (topRsn s0 < (war s0 p).rsn)) then
    goDown h (forEach (parts.filter (fun p => (war s0 p).alive)) fencePart s0)
  else
    let lost := s0.net.filterMap (fun m => match m with | .sentry p site st => some (p, site, st) | _ => none)
    let s1 := takeRegs h (if fresh then former else none) (postFinals h (takeQueues h (setRole h role (dropStale s0))))
    let s2 := confirm h s1
    let s3 := endFreeze ufFailover (ingestHubHeld (if role = .sole then mirFlush s2 else s2))
    let s4 := forEach (leased s3 h) (takeBatch lost) s3
    let s5 := forEach (leased s4 h) holdRecover (forEach parts takeTests (ingestHeld s4))
    let s6 := judgeAll (if fresh then takeRuns h s5 else s5)
    offerAll (joinEnds (keyPoll (settleDue id (slotsMissing (takeFirmware (recollect h (loadDetour h (powerOrders h (waferCheck s6)))))))))

/-- Leases from a quorum: the hub takes role Primary, or Sole where its peer is Down (Table 1.7, R293), unless regions of its store are
still stale (R19; that this holds for Sole too is a DESIGN CHOICE, log entry 126). The first to do so after a wafer reset confirms the
release sequence after its first records, and runs step 7 of the start. -/
def claimQuorumAt (h : HubId) (s : State) : State :=
  let x := hubOf s h
  if x.role ≠ .claiming ∨ x.stale ≠ [] ∨ !hasQuorum s h ∨ (serving s).isSome then s
  else
    let role : Role := if (hubOf s (other h)).role = .down then .sole else .primary
    let s1 := modHub h (fun x => { x with withdrawals := 0, mayClaim := true })
      { s with net := s.net.filter (fun m => match m with | .claim g _ => g ≠ h | _ => true) }
    let s2 := if s1.boot.up then takeOver h role s1 else powerOrders h (slotsMissing (bringUp h (confirm h (firstRecords h (takeRegs h none (setRole h role s1))))))
    if (hubOf s2 h).role = .down then s2
    else settleRole (other h) { s2 with boot := { s2.boot with lastServ := some h } }

/-! ### The rows -/

def execLeaseRenewal (h : HubId) (p : Nat) (s : State) : Res0 := nextOf s (leaseRenewalAt h p s)
def execLeaseLapse (p : Nat) (s : State) : Res0 := nextOf s (leaseLapseAt p s)
def execPrimaryLeaseExpiry (h : HubId) (p : Nat) (s : State) : Res0 := nextOf s (leaseExpiryAt h p s)
def execPrimacyClaim (h : HubId) (p : Nat) (s : State) : Res0 := nextOf s (claimAt h p s)
def execClaimTick (h : HubId) (s : State) : Res0 := nextOf s (claimTickAt h s)
def execClaimQuorum (h : HubId) (s : State) : Res0 := nextOf s (claimQuorumAt h s)
def execClaimWithdrawn (h : HubId) (s : State) : Res0 := nextOf s (claimWithdrawnAt h s)
def execClaimRetry (h : HubId) (s : State) : Res0 := nextOf s (claimRetryAt h s)
def execPeerProbe (h : HubId) (s : State) : Res0 := nextOf s (peerProbeAt h s)
def execHubFailover (h : HubId) (cause : Nat) (s : State) : Res0 := nextOf s (hubFailoverAt h cause s)
def execPeerSecondary (h : HubId) (s : State) : Res0 := nextOf s (peerSecondaryAt h s)

end Sys2Proof.Machine
end

