-- ==== Sys2Proof/Machine/HubStart.lean ====
section
/-! DEFINITION. The start of a hub and the resets of the whole block (R65, R287, R289, R298 to R302, R315, R396), the faults of a
hub's own parts (R67, R291), its heartbeat (R290), and the commands of class HUB (R430). -/

namespace Sys2Proof.Machine
open Sys2Proof

/-! ### Wafer reset (R65, R267, R404) -/

/-- Close of an open debug session: its record and EV_DEBUG_CLOSE (R363, R364). -/
def closeDebug (cause : Nat) (s : State) : State :=
  match s.keys.dbg with
  | none => s
  | some d =>
    raise (ev evDebugClose [(4, d.num), (1, cause), (4, d.cmds)])
      { s with keys := { s.keys with dbg := none, sessions := lastN 64 (s.keys.sessions ++ [{ d with closeAt := now s }]) } }

/-- What a hub keeps across sys_rst_n: its time (R287), what its supply monitor recorded, its lockstep history and its non-volatile
store; sys_rst_n is low until the hub's start. -/
def keepHub (x : Hub) : Hub :=
  { time := x.time, railFell := x.railFell, coldNext := x.coldNext, mgmt := x.mgmt, stale := x.stale, pfail := x.pfail, pfailDone := x.pfailDone
    peerChain := x.peerChain, fwImg := x.fwImg, rstLow := true }

/-- The governor keeps the transient log (R85, R94). -/
def keepGov (g : Governor) : Governor := { log := g.log }

/-- Strata keeps its non-volatile areas and counts on from the persisted value (R403, R404). -/
def keepStrata (b : StrataB) : StrataB :=
  { perm := b.perm, countNv := b.countNv, nextCount := b.countNv + 65537, hubHeld := b.hubHeld }

/-- The release sequence number goes on from the persisted value (R267). -/
def keepSync (x : Sync) : Sync := { rsnNv := x.rsnNv, nextRsn := x.rsnNv + 65537 }

/-- The defect table is the committed generation, with its counts (R216, R222). -/
def keepDefects (d : Defects) : Defects :=
  { tab := d.committed, committed := d.committed, gen := d.gen, commits := d.commits, bankHits := d.bankHits, laneHits := d.laneHits }

/-- Key records, purge bits (a channel marked for a context purges it, and so owes its change no pass of its own), roots and sessions are kept; the
variant certificate staged last takes effect (R345, R351, R362). -/
def keepKeys (k : Keys) : Keys :=
  { ctxs := k.ctxs.map (fun e => (e.1, { e.2 with loading := [], need := if e.2.state = 0 then [] else (List.range 196).filter (fun ch => (e.1, ch) ∉ k.purge) }))
    purge := k.purge, roots := k.roots, variant := k.staged.getD k.variant, sessions := k.sessions, nextSession := k.nextSession
    changes := k.changes }

/-- The pattern library is kept (R201). The manual says nothing of a Candidate whose confirmation a wafer reset or FENCE.RESTORE cuts: its
entry is kept as Candidate, its harvest and runs are dropped, and it is retired by command only (DESIGN CHOICE, log entry 161). -/
def keepQuarry (q : Quarry) : Quarry :=
  { index := q.index, slices := q.slices, stepping := q.stepping, nextSeqA := q.nextSeqA, nextSeqB := q.nextSeqB }

/-- What the persistent counters keep of a partition: reset stamps and accrued debt (R199, R288). -/
def keepWarden (w : Warden) : Warden := { stamps := w.stamps, debtTot := w.debtTot }

/-- A session open at the reset is closed; after a power loss it keeps a close time of 0 (R363, R364). -/
def resetSession (s : State) : State :=
  if s.hubA.railFell && s.hubB.railFell then
    match s.keys.dbg with
    | some d => { s with keys := { s.keys with dbg := none, sessions := lastN 64 (s.keys.sessions ++ [{ d with closeAt := 0 }]) } }
    | none => s
  else closeDebug 2 s

/-- sys_rst_n resets all of Alaer; what is non-volatile, and the hubs' time, is kept. -/
def waferResetAt (s0 : State) : State :=
  let s := resetSession { s0 with hubA := { s0.hubA with role := .starting }, hubB := { s0.hubB with role := .starting } }
  { pending := s.pending, free := s.free, outs := s.outs
    hubA := keepHub s.hubA, hubB := keepHub s.hubB
    wardens := s.wardens.map (fun e => (e.1, keepWarden e.2))
    sync := keepSync s.sync, defects := keepDefects s.defects, quarry := keepQuarry s.quarry, gov := keepGov s.gov
    strata := keepStrata s.strata, keys := keepKeys s.keys
    boot := { wafers := s.boot.wafers, nvTable := s.boot.nvTable, profiles := s.boot.profiles } }

/-! ### FENCE.RESTORE (R289) -/

/-- A start without sys_rst_n: the hubs start again, the wardens are claimed anew, and the Vein links out of service return (R292).
Queues and replies stand, and so do a profile that HUB.PROFILE set (R66), an accepted core-firmware manifest (R309), the masks of power
inputs (R325) and the counts of map switches (Table 18.7), which last until a wafer reset, and the numbers and events of the wardens (R400). A hub that fell Down by its rail stays
Down (R334). -/
def restoreStart (s0 : State) : State :=
  let back := fun (h : HubId) (s : State) => if (hubOf s h).role = .down ∧ (hubOf s h).railFell then s else setRole h .starting s
  let s := back .a (back .b s0)
  let h := fun (x : Hub) => { x with started := false, leases := [], withdrawals := 0, mayClaim := true, peerFailed := false }
  { s with
    hubA := h s.hubA, hubB := h s.hubB, net := [], mir := {}
    wardens := s.wardens.map (fun e => (e.1, { keepWarden e.2 with
      alive := e.2.alive, stopped := e.2.stopped, timer := e.2.timer, linkBase := e.2.linkBase, linkCount := e.2.linkCount, prng := e.2.prng
      evs := e.2.evs, evNext := e.2.evNext, evLost := e.2.evLost, switches := e.2.switches, switchRep := e.2.switchRep
      droop := { inputs := e.2.droop.inputs, mask := e.2.droop.mask, stuck := e.2.droop.stuck } }))
    sync := keepSync s.sync, gov := keepGov s.gov, quarry := keepQuarry s.quarry, tst := {}, links := [], cairn := {}, vein := { s.vein with linksOut := [] }
    strata := { s.strata with nextCount := s.strata.countNv + 65537 }
    keys := { s.keys with ctxs := (keepKeys s.keys).ctxs, variant := s.keys.staged.getD s.keys.variant, staged := none }
    cmd := { s.cmd with opens := [], finals := [], loads := [], held := [] }
    boot := { wafers := [], nvTable := s.boot.nvTable, profiles := s.boot.profiles
              profile := s.boot.profile, manifest := s.boot.manifest, restore := true } }

def fenceRestoreRow : CmdRow :=
  { op := 0x0904, roles := [0]
    body := fun c s =>
      need (decide (s.boot.device = 1)) badAny
        (ansOk (restoreStart (commitDefects (raise (ev evDeviceRestored [(2, c.pk.tag.toNat)]) s)))) }

/-! ### The start of a hub (R298 to R302, R315) -/

/-- Kind of start: 0 cold, 1 warm, 2 restore (Table 12.1). -/
def startKind (h : HubId) (s : State) : Nat :=
  if s.boot.restore then 2 else if (hubOf s h).railFell || (hubOf s h).coldNext || !s.boot.nvTable then 0 else 1

/-- The highest Strata time in the non-volatile store (R396). -/
def highestTime (s : State) : Nat :=
  let l := s.strata.perm.map (·.time) ++ (s.hubA.pfail ++ s.hubB.pfail).map (·.time) ++ s.boot.wafers ++ s.wardens.flatMap (fun e => e.2.stamps) ++
    s.gov.log.map (·.2) ++ s.defects.bankHits.flatMap (·.2) ++ s.defects.laneHits.flatMap (·.2) ++
    s.keys.sessions.flatMap (fun d => [d.openAt, d.closeAt])
  l.foldl max 0

/-- 1 s more, rounded up to a whole second. -/
def powerOnTime (t : Nat) : Nat := (t + 1000000000 + 999999999) / 1000000000 * 1000000000

/-- Manifest and image of a firmware slot: what BOOT.FWLOAD wrote, else the content of manufacture, which the manual does not give (log
entry 130). -/
def fwSlotBytes (s : State) (h : HubId) (i : Nat) : List Byte := (tfind (hubOf s h).fwImg i).getD (Config.factoryImage i)

/-- IMGVER and DIGEST of the manifest in a firmware slot. -/
def slotImage (s : State) (h : HubId) (i : Nat) : BitVec 32 × BitVec 384 :=
  let b := fwSlotBytes s h i
  (BitVec.ofNat 32 (fieldAt b 8 4), manifestDigest b)

/-- The first failing check of R300 on a firmware slot, 0 where it verifies. -/
def slotFault (s : State) (h : HubId) (i : Nat) : Nat := imageFault (fwSlotBytes s h i)

/-- The slot the boot code starts (R300), none where neither verifies. -/
def chooseSlot (s : State) (h : HubId) : Option Nat :=
  let a := (slotImage s h 0).1
  let b := (slotImage s h 1).1
  let fa := slotFault s h 0
  let fb := slotFault s h 1
  if fa = 0 ∧ fb = 0 then some (if a < b then 1 else 0) else if fa = 0 then some 0 else if fb = 0 then some 1 else none

/-- Stamps of other wafer resets within the device window (R315). -/
def otherStamps (s : State) (t : Nat) : Nat :=
  stampsIn (s.boot.wafers.filter (fun x => !s.boot.up || decide (x ≠ s.boot.releasedAt))) t deviceWindow

/-- Why a start takes the full path, 0 for the fast path (R315, EV_HUB_START). -/
def fullReason (kind t : Nat) (tableOk : Bool) (s : State) : Nat :=
  if kind = 0 then 1 else if kind = 2 then 2 else if !tableOk then 3 else if otherStamps s t ≠ 0 then 4 else 0

/-- Step 4: cells that fail their known-answer test receive an entry (R299). -/
def startCells (h : HubId) (fails : BitVec 16) (s : State) : State :=
  forEach ((List.range 16).filter (fun c => fails.getLsbD c && !hasEntry s (cellSite h c))) (fun c s =>
    addEntry (cellSite h c) 13 4 4 false (modCell (cellKey h c) (fun x => { x with state := 4 }) s)) s

/-- A returning hub unwraps every kept blob; a slot whose blob lacks its record stays one-sided (R356). -/
def unwrapKept (h : HubId) (s : State) : State :=
  forEach (s.keys.slots.filter (fun e => e.2.filled)) (fun e s =>
    let k := unwrapBlob s h e.2.blob
    let x : KSlot := match h with | .a => { e.2 with keyA := k } | .b => { e.2 with keyB := k }
    { s with keys := { s.keys with slots := tset s.keys.slots e.1 { x with oneSided := x.keyA.isNone || x.keyB.isNone } } }) s

/-- A start that fails takes the hub Down, with the cause its peer reports. It was a start: the next one is classed anew (R298). -/
def failStart (h : HubId) (cause : Nat) (s : State) : State :=
  goDown h (modHub h (fun x => { x with startCause := cause, railFell := false, coldNext := false }) s)

/-- The power-fail area to keep where the hubs' differ (R403): the one whose last flush completed step 2, else the one with the
higher count. -/
def comparePfail (s : State) : State :=
  let a := s.hubA
  let b := s.hubB
  let top := fun (l : List Rec) => (l.foldl (fun m r => max m r.count) 0 : Nat)
  let useA := if a.pfailDone = b.pfailDone then decide (top b.pfail ≤ top a.pfail) else a.pfailDone
  if !(a.started && b.started) || (a.pfailDone && b.pfailDone) || decide (a.pfail = b.pfail) then s
  else if useA then { s with hubB := { b with pfail := a.pfail, pfailDone := a.pfailDone } }
  else { s with hubA := { a with pfail := b.pfail, pfailDone := b.pfailDone } }

/-- At a start at which both hubs are live, a hub that holds no copy of its peer's certificate chain takes one, which leads to the
manufacturer root (R208). -/
def copyChains (s : State) : State :=
  let f := fun (h : HubId) (x : Hub) =>
    if x.peerChain.isNone && Config.chainOk (Config.hubChain (isB (other h))) then { x with peerChain := some (Config.hubChain (isB (other h))) } else x
  if s.hubA.started && s.hubB.started then { s with hubA := f .a s.hubA, hubB := f .b s.hubB } else s

/-- Steps 4 to 6 of Table 12.2 once identity and root keys stand. -/
def endStart (h : HubId) (kind why : Nat) (inp : StartIn) (s : State) : State :=
  let o := hubOf s (other h)
  let s1 := modHub h (fun x => { x with
    kind, fast := decide (why = 0), startCause := 0, keyId := idKeyId (isB h), agKeyId := agKeyIdOf (isB h), agCert := agreeCert (isB h)
    mgmtOut := (List.range 3).filter (fun c => hasEntry s (mgmtSite h c)), started := true, railFell := false, coldNext := false }) s
  let s2 := comparePfail <| unwrapKept h (if why = 0 then s1 else startCells h inp.katFail s1)
  let x := hubOf s2 h
  let s3 := raise (evAt evHubStart (hubSite h) [(1, hubNum h), (1, kind), (1, if why = 0 then 2 else 1), (1, why), (2, x.fwSlot), (4, x.imgver.toNat),
    (1, roleCode o.role), (1, o.startCause)]) s2
  let s4 := if s3.boot.up then (match serving s3 with | some g => pinsEvent g s3 | none => s3) else s3
  settleRole h (copyChains s4)

/-- Release of sys_rst_n, or FENCE.RESTORE, starts a hub. -/
def hubStartAt (h : HubId) (inp : StartIn) (s : State) : State :=
  let x := hubOf s h
  if x.role ≠ .starting ∨ x.started then s
  else
    let kind := startKind h s
    let t := if x.railFell then powerOnTime (highestTime s) else x.time
    let why := fullReason kind t inp.tableOk s
    let sel := if kind = 2 then x.profileSampled else inp.profileSel
    let s1 := modHub h (fun x => { x with
      time := t, releasedAt := t, profileSampled := sel, rstLow := false, byReset := decide (kind ≠ 2) && !x.railFell }) s
    match chooseSlot s h with
    | none => failStart h 1 s1
    | some i =>
      let img := slotImage s h i
      let s2 := modHub h (fun x => { x with fwSlot := i, imgver := img.1, fwDigest := img.2 }) s1
      let fa := slotFault s h 0
      let fb := slotFault s h 1
      let bad := if fa ≠ 0 then some (0, fa) else if fb ≠ 0 then some (1, fb) else none
      let s3 := match bad with | some (n, c) => raise (evAt evFwFallback (hubSite h) [(1, hubNum h), (2, n), (1, c)]) s2 | none => s2
      if !identityOk (isB h) then failStart h 2 (modHub h (fun x => { x with keyId := 0 }) s3)
      else
        let s4 := modHub h (fun x => { x with seed := seedOf (isB h), keyId := idKeyId (isB h) }) s3
        match openRoots (isB h) with
        | none => failStart h 3 (raise (evAt evKeyRootFail (hubSite h) [(1, hubNum h)]) s4)
        | some k => endStart h kind why inp (modHub h (fun x => { x with rootKeys := k }) s4)

/-! ### refclk (R67) -/

def refclkLostAt (h : HubId) (s : State) : State :=
  if (hubOf s h).refLost then s
  else raise (fromSrc 4 (evAt evRefclkLost (hubSite h) [])) (modHub h (fun x => { x with refLost := true }) s)

/-! ### Lockstep (R291) -/

/-- A management core is outvoted; a second time within a day it is withdrawn; with one withdrawn, a disagreement takes the hub
Down. `core` 3 stands for a vote without a majority, which no core can mask: it takes the hub Down (Table 1.7; log entry 131). -/
def lockstepAt (h : HubId) (core : Nat) (s : State) : State :=
  let x := hubOf s h
  if 3 < core ∨ x.role = .down ∨ core ∈ x.mgmtOut then s
  else if x.mgmtOut ≠ [] ∨ core = 3 then goDown h s
  else
    let l := ((tget [] x.mgmt core).filter (fun t => decide (x.time < t + dayNs))) ++ [x.time]
    let s1 := raise (evAt evLockstepMasked (mgmtSite h core) [(1, hubNum h), (2, core), (4, l.length)])
      (modHub h (fun x => { x with mgmt := tput [] x.mgmt core l }) s)
    if 2 ≤ l.length then addEntry (mgmtSite h core) 0 7 4 false (modHub h (fun x => { x with mgmtOut := insertOnce x.mgmtOut core }) s1) else s1

/-! ### Heartbeats (R68, R290, R473) -/

/-- A millisecond of Strata local time in which the interpreter passed over the queues. -/
def hbeatAt (s : State) : State :=
  match serving s with
  | none => s
  | some h => if (hubOf s h).refLost then s else modHub h (fun x => { x with hbeat := x.hbeat + 1 }) s

/-- peer_hb toggles every 1,000 refclk cycles of a hub that is not Down. -/
def peerHbAt (h : HubId) (s : State) : State :=
  let x := hubOf s h
  if x.role = .down ∨ x.rstLow ∨ x.refLost then s else modHub h (fun x => { x with peerHb := !x.peerHb }) s

/-! ### Debug sessions (R363, R364) -/

/-- Tenants with a live job; 0 is the host, no tenant (Table 16.1). -/
def liveTenants (s : State) : List (Nat × Nat) :=
  (((s.sync.objs.filter (fun o => isLive o.2 && decide (o.2.tenant ≠ 0))).map (fun o => (o.2.tenant, o.2.job))).foldl (fun l x => if l.any (fun y => y.1 = x.1) then l else l ++ [x]) [])

def openDebug (tag : Nat) (s : State) : State :=
  let n := s.keys.nextSession
  let s1 := { s with keys := { s.keys with dbg := some { num := n, openAt := now s, lastAt := now s }, nextSession := n + 1 } }
  forEach (liveTenants s) (fun x s => raise (evJob evDebugTenant x.2 x.1 [(4, n)]) s) (raise (ev evDebugOpen [(4, n), (2, tag)]) s1)

/-- The 32 bytes of a session's entry. -/
def sessionBytes (d : Session) : List Byte :=
  leBytes 4 d.num ++ leBytes 4 d.cmds ++ leBytes 8 d.openAt ++ leBytes 8 d.closeAt ++ leBytes 2 (satTo 65535 d.stops) ++ leBytes 6 (satTo 281474976710655 d.bytes)

/-- The 64 entries of the newest sessions, newest first. -/
def sessionList (s : State) : List Byte :=
  padTo 2048 (((s.keys.sessions ++ s.keys.dbg.toList).reverse.take 64).flatMap sessionBytes)

def debugIdleAt (s : State) : State := if clockRuns s then closeDebug 3 s else s

/-! ### The step of Strata local time when refclk returns (R67, R473) -/

/-- The limits of the serving hub's Strata time that have passed: the freeze (10 s), the debug session's idle hour, the kernels (1 s after their
captures) and the arbitrations (10 ms). -/
def expireLimits (s : State) : State :=
  let t := now s
  let late := (s.tst.caps.filter (fun e => decide (classOf e.2.kind = 2) && decide (e.2.time + 1000000000 ≤ t))).map (·.1)
  let arbs := s.wardens.flatMap (fun e => (e.2.triages.filter (fun x => x.reach.any (fun r => decide (r + 10000000 ≤ t)))).map (fun x => (e.1, x.tid, x.epoch)))
  let s1 := if s.strata.frozen ∧ s.strata.frozenAt + 10000000000 ≤ t then freezeLimitAt s else s
  let s2 := if s.keys.dbg.any (fun d => decide (d.lastAt + 3600000000000 ≤ t)) then debugIdleAt s1 else s1
  forEach arbs (fun x s => arbitrationLimitAt x.1 x.2.1 x.2.2 s) (forEach late kernelLateAt s2)

/-- Does a step of a hub's time pass the end of a period that counts from 0? -/
def passes (period before after : Nat) : Bool := decide (before / period ≠ after / period)

/-- What a step of a hub's time brings about, each periodic action once: of the serving hub, its limits, HBEAT and a governor update over the
time since the last one; of a Secondary, its comparison; of either, the time pairs and loss records of its trace. -/
def stepTime (h : HubId) (before : Nat) (s : State) : State :=
  let t := (hubOf s h).time
  let on := fun (period : Nat) (f : State → State) (s : State) => if passes period before t then f s else s
  let own := if serving s = some h then
      let s1 := on 1000000 hbeatAt (expireLimits s)
      if s1.gov.lastAt + 1000000000 ≤ t then governorUpdateAt (t - s1.gov.lastAt) s1 else s1
    else if (hubOf s h).role = .secondary then on 1000000000 timeCompareAt s
    else s
  on 1000000 (fun s => lossTickAt (98 + hubNum h) (timepairAt h s)) own

/-- The counter steps forward by the measured outage, EV_REFCLK_BACK is raised, and the step counts as elapsed time. -/
def refclkBackAt (h : HubId) (ns : Nat) (s : State) : State :=
  if !(hubOf s h).refLost then s
  else
    stepTime h (hubOf s h).time (raise (fromSrc 4 (evAt evRefclkBack (hubSite h) [(8, ns)]))
      (modHub h (fun x => { x with refLost := false, time := (x.time + ns) % 18446744073709551616 }) s))

/-! ### The commands of class HUB -/

def hubNopRow : CmdRow :=
  { op := 0x0101, roles := [0, 1, 2], reads := true
    body := fun c s => .done [BitVec.ofNat 8 c.role, BitVec.ofNat 8 c.tenant, BitVec.ofNat 8 c.queue, BitVec.ofNat 8 (roleCode (hubOf s c.hub).role)] [] 0 s }

def hubQbindRow : CmdRow :=
  { op := 0x0102, roles := [1], named := [(0, 1), (1, 1)]
    body := fun c s =>
      let q := parB c.pk 0
      need (decide (1 ≤ q) && decide (q ≤ 7) && decide (q ≠ c.queue)) (badAt 0) <|
      need (decide ((queueOf s q).taken = (queueOf s q).tail) && decide (openOf s q = 0) && !heldIn s q) ansBusy
        (ansOk (modQueue q (fun x => { x with bind := parB c.pk 1 }) s)) }

def hubStatusRow : CmdRow :=
  { op := 0x0103, roles := [0, 1, 2], reads := true
    body := fun c s =>
      .done [] (padTo 64 (leBytes 1 (roleCode s.hubA.role) ++ leBytes 1 (roleCode s.hubB.role) ++ leBytes 1 s.boot.profile.id ++ leBytes 1 s.boot.device ++
        leBytes 2 (parts.filter (partInService s)).length ++ leBytes 1 (flag s.keys.dbg.isSome) ++ leBytes 1 0 ++
        (List.range 8).flatMap (fun q => leBytes 1 (queueOf s q).bind) ++ (List.range 8).flatMap (fun q => leBytes 1 (openOf s q)) ++
        leBytes 8 (hubOf s c.hub).hbeat)) 0 s }

def hubProfileRow : CmdRow :=
  { op := 0x0104, roles := [0], named := [(0, 1)]
    body := fun c s =>
      let id := parB c.pk 0
      need (decide (id ≤ 3)) (badAt 0) (ansOk (if id = s.boot.profile.id then s else setProfile id 2 s)) }

def hubDebugRow : CmdRow :=
  { op := 0x0105, roles := [0], readsAt := fun pk => decide (parB pk 0 = 2), named := [(0, 1)]
    body := fun c s =>
      match parB c.pk 0 with
      | 0 => need s.keys.dbg.isNone badAny (.done (leBytes 4 s.keys.nextSession) [] 0 (openDebug c.pk.tag.toNat s))
      | 1 => need s.keys.dbg.isSome badAny (ansOk (closeDebug 1 s))
      | 2 => .done [] (sessionList s) 0 s
      | _ => badAt 0 }

/-! ### The rows -/

def execHubNop (pk : Packet) (s : State) : Res0 := nextOf s (runCmd hubNopRow (.hubNop pk) pk s)
def execHubQbind (pk : Packet) (s : State) : Res0 := nextOf s (runCmd hubQbindRow (.hubQbind pk) pk s)
def execHubStatus (pk : Packet) (s : State) : Res0 := nextOf s (runCmd hubStatusRow (.hubStatus pk) pk s)
def execHubProfile (pk : Packet) (s : State) : Res0 := nextOf s (runCmd hubProfileRow (.hubProfile pk) pk s)
def execHubDebug (pk : Packet) (s : State) : Res0 := nextOf s (runCmd hubDebugRow (.hubDebug pk) pk s)
def execFenceRestore (pk : Packet) (s : State) : Res0 := nextOf s (runCmd fenceRestoreRow (.fenceRestore pk) pk s)
def execWaferReset (s : State) : Res0 := nextOf s (waferResetAt s)
def execHubStart (h : HubId) (inp : StartIn) (s : State) : Res0 := nextOf s (hubStartAt h inp s)
def execRefclkLost (h : HubId) (s : State) : Res0 := nextOf s (refclkLostAt h s)
def execRefclkBack (h : HubId) (outageNs : Nat) (s : State) : Res0 := nextOf s (refclkBackAt h outageNs s)
def execLockstepMasked (h : HubId) (core : Nat) (s : State) : Res0 := nextOf s (lockstepAt h core s)
def execHbeatTick (s : State) : Res0 := nextOf s (hbeatAt s)
def execPeerHbToggle (h : HubId) (s : State) : Res0 := nextOf s (peerHbAt h s)
def execDebugSessionIdle (s : State) : Res0 := nextOf s (debugIdleAt s)

end Sys2Proof.Machine
end

