-- ==== Sys2Proof/Machine/Power.lean ====
section
/-! DEFINITION. Power at the hubs (R63, R329 to R334, R319) and the commands of class POWER (R325, R336, R278). -/

namespace Sys2Proof.Machine
open Sys2Proof

/-! ### The power-fail warning -/

/-- A recovery or bring-up under way stops where it stands, and the partition stays Fenced until the next start (R285, R319, R331). One that
stops in step 6 after its entry returned at the owner is fenced and drained again, without a reset (DEDUCED, log entry 165). -/
def stopRecovery (p : Nat) (s : State) : State :=
  let r := resetOf s p
  let barred := modReset p (fun r => { r with barred := true }) (stayFenced p s)
  if r.wafer ∨ r.holdReset then s
  else if r.step ≠ 0 then barred
  else if r.done.isSome then
    modReset p (fun r => { r with holdReset := true, step := 1, quiesce := true, startAt := (war s p).timer }) (fencePart p barred)
  else s

/-- Is the start of the device still under way: a hub in Starting or Claiming, or a partition in bring-up? -/
def startUnderWay (s : State) (h : HubId) : Bool :=
  decide ((hubOf s h).role = .starting) || decide ((hubOf s h).role = .claiming) ||
  parts.any (fun p => (resetOf s p).bringup && decide ((resetOf s p).step ≠ 0))

/-- A hub that is out of reset samples pwr_fail_warn_n low on 16 edges: a freeze ends first (R409), then EV_POWER_FAIL_WARN, PowerWarn, the power
orders. A second warning in PowerWarn only starts the count of R331 again. -/
def failWarnAt (h : HubId) (s : State) : State :=
  let x := hubOf s h
  if x.role = .down ∨ x.rstLow then s
  else if x.pwr.warn then modHub h (fun x => { x with pwr := { x.pwr with pin := false } }) s
  else
    let cold := startUnderWay s h
    let s1 := endFreeze ufPower s
    let s2 := modHub h (fun x => { x with
      pwr := { warn := true, since := x.time, pin := false, flushed := false
               table := if s.defects.dirty then some (s.defects.commits, s.defects.tab) else none }
      pfailDone := false, coldNext := x.coldNext || cold }) s1
    let s3 := raise (evAt evPowerFailWarn (hubSite h) [(1, hubNum h), (1, roleCode x.role)]) s2
    let s4 := forEach parts stopRecovery s3
    if isServing x then powerOrders h s4 else s4

/-- pwr_fail_warn_n returns to 1; nothing started is cancelled (R63). -/
def failReleaseAt (h : HubId) (s : State) : State := modHub h (fun x => { x with pwr := { x.pwr with pin := true } }) s

/-! ### The flush ends (Table 13.2 step 5) -/

/-- The flush ends: records, the defect table where a change is uncommitted, the persistent counters. -/
def flushDoneAt (h : HubId) (s : State) : State :=
  let x := hubOf s h
  if !x.pwr.warn || x.pwr.flushed then s
  else
    let items := if x.pwr.table.isSome then 3 else 2
    let s1 := flushTable h (modHub h (fun x => { x with pfail := flushRecs h s.strata.circ, pfailDone := true, pwr := { x.pwr with flushed := true } }) s)
    raise (evAt evPowerFlushDone (hubSite h) [(1, hubNum h), (4, items), (8, x.time - x.pwr.since)])
      (flushCounters h (flushStale h nvPowerFail s1))

/-! ### Riding through (R331) -/

/-- Is work kept due a request that R329 holds: a release, replay order or tally-close, a swap, a test start, a harvest or qualification? -/
def isHeldRequest (d : Due) : Bool :=
  match d with
  | .barrier _ | .swaps _ | .spareTest _ _ | .pattern _ _ _ _ | .directed _ | .harvest _ _ _ _ | .harvestRun _ _ | .test _ _ => true
  | .offer _ _ | .join _ | .probation _ | .recovery _ | .batch _ | .command => false

/-- Internal requests held under R329 (R337). -/
def heldRequests (s : State) : Nat := (s.sync.due.filter isHeldRequest).length

/-- 10 ms after the flush with the warning away: the hub leaves PowerWarn. A serving hub withdraws the power order. What was held goes
on in the order in which it became due, once no hub is in PowerWarn (R331, R472); `perform` performs the oldest command held. -/
def rideThrough (perform : State → State) (h : HubId) (s : State) : State :=
  let x := hubOf s h
  if !(x.pwr.warn && x.pwr.pin && x.pwr.flushed) then s
  else
    let s1 := raise (evAt evPowerRideThrough (hubSite h) [(1, hubNum h), (8, x.time - x.pwr.since), (4, s.cmd.held.length), (4, heldRequests s)])
      (modHub h (fun x => { x with pwr := { x.pwr with warn := false } }) s)
    keyPoll (settleDue perform (if isServing (hubOf s1 h) then powerOrders h s1 else s1))

/-! ### The hubs' rail (R333, R334) -/

def railLowAt (h : HubId) (reading : BitVec 32) (s : State) : State :=
  let x := hubOf s h
  if x.role = .down ∨ x.rstLow ∨ x.railLow then s
  else raise (fromSrc 4 (evAt evHubRailLow (hubSite h) [(1, hubNum h), (4, reading.toNat)])) (modHub h (fun x => { x with railLow := true }) s)

def railOkAt (h : HubId) (belowNs : Nat) (s : State) : State :=
  let x := hubOf s h
  if x.role = .down ∨ x.rstLow ∨ !x.railLow then s
  else raise (fromSrc 4 (evAt evHubRailOk (hubSite h) [(1, hubNum h), (8, belowNs)])) (modHub h (fun x => { x with railLow := false }) s)

/-- Below 0.50 V for 1 µs: the hub goes Down and records that the rail fell. -/
def railCollapseAt (h : HubId) (s : State) : State := goDown h (modHub h (fun x => { x with railFell := true }) s)

/-! ### The commands of class POWER -/

/-- The 32 bytes of a partition in POWER.STATUS. -/
def powerBytes (s : State) (p : Nat) : List Byte :=
  let w := war s p
  let d := w.droop
  let t := w.timer
  let n := (d.wins.filter (fun x => decide (t < x.2 + hourTicks))).length + flag d.open_
  let tiles := ((d.marks.filter (fun e => decide (t < e.1 + hourTicks))).map (·.2)).sum
  padTo 32 (leBytes 1 (flag (windowOpen w)) ++ leBytes 1 (flag d.ack) ++ leBytes 2 n ++ leBytes 4 ((droopSeconds s p * 1000000).floor.toNat) ++
    leBytes 4 tiles ++ leBytes 4 0 ++ leBytes 5 d.mask.toNat ++ leBytes 5 d.stuck.toNat)

/-- A hub's rail state and PowerWarn, a byte each. -/
def railBytes (x : Hub) : List Byte := leBytes 1 (flag x.railLow) ++ leBytes 1 (flag x.pwr.warn)

def powerStatusRow : CmdRow :=
  { op := 0x1001, roles := [0, 1], reads := true
    body := fun _ s =>
      .done [] (parts.flatMap (powerBytes s) ++ railBytes s.hubA ++ railBytes s.hubB) 0 s }

/-- Is it a droop detector or margin sensor of a partition (R429)? -/
def isInputSite (site : Nat) : Bool := decide (sitePart site ≤ 97) && decide (siteCluster site = 0x3FE) && decide (siteKind site = 5)

/-- The input bit of such a site. -/
def inputBit (site : Nat) : Nat := if siteIdx site < 32 then siteIdx site else siteIdx site - 0x40 + 32

/-- A masked input opens and holds no window; the window follows the inputs as they now count. -/
def maskInput (site : Nat) (on : Bool) (s : State) : State :=
  let p := sitePart site
  raise (evAt evPowerSensorMasked site [(4, site), (1, flag on)])
    (evalInputs p (modDroop p (fun d => { d with mask := setBit d.mask (inputBit site) on }) s))

def powerMaskRow : CmdRow :=
  { op := 0x1002, roles := [0], named := [(0, 4), (4, 1)]
    body := fun c s => needSite s c.pk 0 isInputSite (fun site =>
      need (decide (parB c.pk 4 ≤ 1)) (badAt 4) (ansOk (maskInput site (decide (parB c.pk 4 = 1)) s))) }

/-- A bank powers up: its enable bit is driven to 1, and its entry returns with BANK_POWER_ON. -/
def bankUp (p bank : Nat) (s : State) : State :=
  modChan (2 * p + bank / 64) (fun k => { k with bankEn := setBit k.bankEn (bank % 64) true }) s

def powerBankRow : CmdRow :=
  { op := 0x1003, roles := [0, 1], long := true, longAt := fun pk => decide (parB pk 4 = 0), named := [(0, 4), (4, 1)]
    body := fun c s => needSite s c.pk 0 isBankSite (fun site =>
      let p := sitePart site
      let bank := siteIdx site
      need (decide (defState? s site ≠ some 5)) ansDenied <|
      need (decide (parB c.pk 4 ≤ 1)) (badAt 4) <|
      need (!(war s p).bankOff.any (fun b => b.bank = bank)) ansBusy <|
      need (hearsPart s p) ansFenced <|
      if parB c.pk 4 = 1 then ansOk (bankUp p bank s)
      else if (chanOf s (2 * p + bank / 64)).bankEn.getLsbD (bank % 64) then .opened site 0 (startBankOff p bank s)
      else .both [] s) }

/-! ### The rows -/

def execPowerStatus (pk : Packet) (s : State) : Res0 := nextOf s (runCmd powerStatusRow (.powerStatus pk) pk s)
def execPowerMask (pk : Packet) (s : State) : Res0 := nextOf s (runCmd powerMaskRow (.powerMask pk) pk s)
def execPowerBank (pk : Packet) (s : State) : Res0 := nextOf s (runCmd powerBankRow (.powerBank pk) pk s)
def execPowerFailWarn (h : HubId) (s : State) : Res0 := nextOf s (failWarnAt h s)
def execPowerFailWarnRelease (h : HubId) (s : State) : Res0 := nextOf s (failReleaseAt h s)
def execPowerFlushDone (h : HubId) (s : State) : Res0 := nextOf s (flushDoneAt h s)
def execHubRailLow (h : HubId) (reading : BitVec 32) (s : State) : Res0 := nextOf s (railLowAt h reading s)
def execHubRailOk (h : HubId) (belowNs : Nat) (s : State) : Res0 := nextOf s (railOkAt h belowNs s)
def execHubRailCollapse (h : HubId) (s : State) : Res0 := nextOf s (railCollapseAt h s)

end Sys2Proof.Machine
end

