-- ==== Sys2Proof/Machine/Regs.lean ====
section
/-! DEFINITION. The register window (R42 to R44, R442 to R456): what each register reads as, and the writes and reads that
change state. -/

namespace Sys2Proof.Machine
open Sys2Proof

/-! ### What registers read as (Tables 18.2 to 18.10) -/

/-- HUB_STAT. -/
def hubStat (h : HubId) (s : State) : Nat :=
  let x := hubOf s h
  roleCode x.role + 8 * roleCode x.peerSeen + 64 * flag (isServing x) + 128 * flag x.pwr.warn +
  256 * (if s.boot.up then s.boot.profile.id else x.profileSampled.toNat) + 1024 * s.boot.device + 4096 * flag s.keys.dbg.isSome +
  8192 * flag s.strata.frozen + 16384 * flag x.fast + 32768 * x.kind

/-- QCFGq. -/
def queueCfg (s : State) (q : Nat) : Nat :=
  (queueOf s q).bind + 256 * flag (decide (q = 0)) + 512 * openOf s q + 8192 * flag (!sqRoom s q)

/-- Is the switch of a lease in force at a hub's record (SNT_PART)? -/
def sntAlive (s : State) (h : HubId) (p : Nat) : Bool := decide (p ∈ leased s h) && !(war s p).failed

def sntCount (s : State) : Nat :=
  (parts.map (fun p => (war s p).switches)).sum % 4294967296 +
  4294967296 * (parts.filter (fun p => (war s p).batch.isSome)).length

def sntPart (s : State) (h : HubId) : Nat :=
  let p := (hubOf s h).sntSel
  let w := war s p
  flag w.switchRep + 2 * flag w.batch.isSome + 4 * flag (sntAlive s h p) +
  65536 * satTo 65535 ((w.batch.getD []).length) + 4294967296 * w.switches

def trcStat (s : State) (h : HubId) : Nat :=
  let t := (hubOf s h).trace
  t.state + 8 * flag (drainsAll s h) + 16 * lanesMask s h + 256 * t.occ

def strFill (s : State) (h : HubId) : Nat :=
  s.strata.perm.length + 65536 * (hubOf s h).pfail.length + 4294967296 * s.strata.hold.length + 281474976710656 * flag s.strata.frozen

/-- The record at a position of the area selected (R453). -/
def recordAt (s : State) (h : HubId) (pos : Nat) : Option Rec :=
  match (hubOf s h).strArea with
  | 0 => s.strata.circ.find? (fun r => r.count = pos)
  | 1 => s.strata.perm[pos]?
  | _ => (hubOf s h).pfail[pos]?

/-- The 64 bytes of a window slot; a position that holds no record reads zeros. -/
def windowBytes (s : State) (h : HubId) (k : Nat) : List Byte :=
  match recordAt s h ((hubOf s h).strPos + k) with
  | some r => recBytes r
  | none => List.replicate 64 0

/-- Registers that a hub of any role but Down serves (R42, R456). -/
def readClocked (s : State) (h : HubId) (a : Nat) : Option Nat :=
  let x := hubOf s h
  match a with
  | 0x00000 => some (hubNum h + 65536 * 0x0B01 + 4294967296 * 0x0062)
  | 0x00008 => some x.keyId.toNat
  | 0x00010 => some (1 + 65536 * x.fwSlot + 4294967296 * x.imgver.toNat)
  | 0x00100 => some (hubStat h s)
  | 0x00108 => some x.hbeat
  | 0x00110 => some x.time
  | 0x00118 => some x.portErr.toNat
  | _ => none

/-- Queue registers (Table 18.4). -/
def readQueue (s : State) (a : Nat) : Option Nat :=
  let q := (a - 0x1000) / 64
  let x := queueOf s q
  match (a - 0x1000) % 64 with
  | 0x00 => some x.tail.toNat
  | 0x08 => some x.head.toNat
  | 0x10 => some x.sqHead.toNat
  | 0x18 => some x.sqTail.toNat
  | 0x20 => some (queueCfg s q)
  | _ => none

/-- The other registers of the window. -/
def readOther (s : State) (h : HubId) (a : Nat) : Option Nat :=
  let x := hubOf s h
  match a with
  | 0x02000 => some x.irqStat.toNat
  | 0x02008 => some x.irqMask.toNat
  | 0x02010 => some x.irqStat.toNat
  | 0x02018 => some (x.irqSev + 4294967296 * x.irqCls.toNat)
  | 0x02100 => some (sntCount s)
  | 0x02108 => some x.sntSel
  | 0x02110 => some (sntPart s h)
  | 0x02200 => some (trcStat s h)
  | 0x02208 => some (if x.trace.state = 3 ∨ x.trace.state = 4 then x.trace.admitted else 0)
  | 0x02210 => some x.trcLost.toNat
  | 0x03000 => some x.strArea
  | 0x03008 => some x.strPos
  | 0x03010 => some (oldestHeld s)
  | 0x03018 => some (newestHeld s)
  | 0x03020 => some (strFill s h)
  | 0x05000 => some x.expData.length
  | 0x05008 => some x.expOrigin.toNat
  | 0x05010 => some x.expSeq.toNat
  | 0x05018 => some x.expGen.toNat
  | _ => none

/-- A posted reply as its 32 bytes (Table 17.2). -/
def replyBytes (r : Reply) : List Byte :=
  leBytes 2 r.tag.toNat ++ leBytes 2 r.opcode.toNat ++ leBytes 2 r.status ++ leBytes 1 r.queue ++ leBytes 1 (flag r.final) ++
  leBytes 4 r.rlen ++ leBytes 2 r.eoff ++ leBytes 2 r.cause ++ padTo 16 r.res

/-- A 64-bit word of a byte string. -/
def wordAt (l : List Byte) (off : Nat) : Nat := fieldAt l off 8

/-- A word of the window's memory regions: the Strata window, the export area, status queues, command queues (Table 18.1). -/
def readMemory (s : State) (h : HubId) (a : Nat) : Option Nat :=
  if 0x4000 ≤ a ∧ a < 0x5000 then
    some (if a % 64 = 0 then wordAt (windowBytes s h ((a - 0x4000) / 64)) 0
      else match tfind (hubOf s h).snaps ((a - 0x4000) / 64) with | some b => wordAt b (a % 64) | none => 0)
  else if 0x10000 ≤ a ∧ a < 0x18000 then some (wordAt (hubOf s h).expData (a - 0x10000))
  else if 0x18000 ≤ a ∧ a < 0x1C000 then
    some (match tfind (queueOf s ((a - 0x18000) / 2048)).replies ((a - 0x18000) % 2048 / 32) with
      | some r => wordAt (replyBytes r) (a % 32)
      | none => 0)
  else if 0x20000 ≤ a ∧ a < 0xA2000 then
    let o := a - 0x20000
    some (leNat (memRead (queueOf s (o / 66560)).mem (o % 66560) 8))
  else none

/-- Every register of the window by its word address. -/
def regValue (s : State) (h : HubId) (a : Nat) : Option Nat :=
  match readClocked s h a with
  | some v => some v
  | none =>
    if 0x1000 ≤ a ∧ a < 0x1200 then readQueue s a
    else match readOther s h a with
      | some v => some v
      | none => readMemory s h a

/-- A read of a word (Tables 2.3 and 2.12, R44, R442): cmd_resp and cmd_rdata. 0 OKAY, 1 NOT_PRIMARY, 2 DECODE, 3 NOT_READY. -/
def portRead (s : State) (h : HubId) (a : Nat) : Nat × BitVec 64 :=
  let x := hubOf s h
  let own := (readClocked s h a).isSome
  if x.role = .down then (3, 0)
  else if !own && (decide (x.role = .starting) || decide (x.role = .claiming)) then (3, 0)
  else if !own && decide (x.role = .secondary) then (1, 0)
  else match regValue s h a with
    | some v => (0, w64 v)
    | none => (2, 0)

/-- The response to a read that changes state: answered in order, after the responses that wait (R40, R41). -/
def respond (h : HubId) (a : Nat) (s : State) : State :=
  let r := portRead s h a
  modHub h (fun x => { x with reads := x.reads ++ [(r.1, a, r.2)] }) s

/-! ### Writes (R43, R44, R443) -/

/-- A write of a register: dropped and not counted unless this hub serves; dropped and counted without all its byte enables. -/
def regWrite (h : HubId) (strb : BitVec 8) (f : State → State) (s : State) : State :=
  if !isServing (hubOf s h) then s else if strb ≠ 0xFF#8 then portErr h s else f s

/-- CQq_TAIL (R447). -/
def doorbellAt (h : HubId) (q : Nat) (v : BitVec 64) (strb : BitVec 8) (s : State) : State :=
  regWrite h strb (fun s =>
    let x := queueOf s q
    let t := v.setWidth 16
    if t = x.tail then s
    else if (t - x.head).toNat ≤ 16 ∧ (t - x.tail).toNat ≤ 16 then
      rejectUnknown maxWaiting (modQueue q (fun x => { x with tail := t }) s)
    else portErr h s) s

/-- SQq_HEAD (R447): replies are consumed, slots return (R416), the value goes to the mirror (R427). -/
def sqHeadAt (h : HubId) (q : Nat) (v : BitVec 64) (strb : BitVec 8) (s : State) : State :=
  regWrite h strb (fun s =>
    let x := queueOf s q
    let n := v.setWidth 16
    if n = x.sqHead then s
    else if (n - x.sqHead).toNat ≤ (x.sqTail - x.sqHead).toNat then
      let s1 := mirWrite (.sqHead q n) (modQueue q (fun x => { x with sqHead := n, fullRaised := false }) s)
      rejectUnknown maxWaiting (modQueue q (returnSlots (waitsReply s1 q)) s1)
    else portErr h s) s

/-- Has Alaer taken the packet of a slot and not yet returned it (R449)? -/
def slotTaken (x : Queue) (slot : Nat) : Bool :=
  (List.range (x.taken - x.head).toNat).any (fun i => decide ((x.head.toNat + i) % 16 = slot))

/-- The bytes of a word that the byte enables name, written to queue memory. -/
def memPutWord (t : Tab Byte) (addr : Nat) (v : BitVec 64) (strb : BitVec 8) : Tab Byte :=
  (List.range 8).foldl (fun t i => if strb.getLsbD i then tput 0 t (addr + i) ((v >>> (8 * i)).setWidth 8) else t) t

/-- A word of command queue memory (R449). -/
def queueWriteAt (h : HubId) (q slot word : Nat) (v : BitVec 64) (strb : BitVec 8) (s : State) : State :=
  if !isServing (hubOf s h) ∨ 520 ≤ word then s
  else if slotTaken (queueOf s q) slot then portErr h s
  else modQueue q (fun x => { x with mem := memPutWord x.mem (4160 * slot + 8 * word) v strb }) s

def irqStatAt (h : HubId) (v : BitVec 64) (strb : BitVec 8) (s : State) : State :=
  regWrite h strb (modHub h (fun x => { x with irqStat := x.irqStat &&& ~~~(v.setWidth 19) })) s

def irqTestAt (h : HubId) (v : BitVec 64) (strb : BitVec 8) (s : State) : State := regWrite h strb (irqSet h (v.setWidth 19)) s

def irqMaskAt (h : HubId) (v : BitVec 64) (strb : BitVec 8) (s : State) : State :=
  regWrite h strb (modHub h (fun x => { x with irqMask := v.setWidth 19 })) s

/-- IRQ_CFG is written whole or not at all (R450). -/
def irqCfgAt (h : HubId) (v : BitVec 64) (strb : BitVec 8) (s : State) : State :=
  regWrite h strb (fun s =>
    let sev := v.toNat % 8
    let cls := (v >>> 32).setWidth 18
    if 4 < sev ∨ cls.getLsbD 0 then s else modHub h (fun x => { x with irqCls := cls, irqSev := sev }) s) s

def sntSelAt (h : HubId) (v : BitVec 64) (strb : BitVec 8) (s : State) : State :=
  regWrite h strb (fun s =>
    let p := v.toNat % 128
    if 0x61 < p then s else modHub h (fun x => { x with sntSel := p }) s) s

/-- STR_AREA (R453, R454). -/
def strAreaAt (h : HubId) (v : BitVec 64) (strb : BitVec 8) (s : State) : State :=
  regWrite h strb (modHub h (fun x => { x with strArea := if v.toNat % 4 = 3 then x.strArea else v.toNat % 4, snaps := [] })) s

def strPosAt (h : HubId) (v : BitVec 64) (strb : BitVec 8) (s : State) : State :=
  regWrite h strb (modHub h (fun x => { x with strPos := v.toNat, snaps := [] })) s

/-- A write by address: the writable registers and queue memory as above; a register that is read-only, a read-only region and
an unmapped address drop it, counted (R43, R443). -/
def registerWriteAt (h : HubId) (addr : BitVec 20) (v : BitVec 64) (strb : BitVec 8) (s : State) : State :=
  let a := addr.toNat / 8 * 8
  if 0x20000 ≤ a ∧ a < 0xA2000 then
    let o := a - 0x20000
    queueWriteAt h (o / 66560) (o % 66560 / 4160) (o % 4160 / 8) v strb s
  else if 0x1000 ≤ a ∧ a < 0x1200 ∧ a % 64 = 0 then doorbellAt h ((a - 0x1000) / 64) v strb s
  else if 0x1000 ≤ a ∧ a < 0x1200 ∧ a % 64 = 0x10 then sqHeadAt h ((a - 0x1000) / 64) v strb s
  else match a with
    | 0x02000 => irqStatAt h v strb s
    | 0x02008 => irqMaskAt h v strb s
    | 0x02010 => irqTestAt h v strb s
    | 0x02018 => irqCfgAt h v strb s
    | 0x02108 => sntSelAt h v strb s
    | 0x03000 => strAreaAt h v strb s
    | 0x03008 => strPosAt h v strb s
    | _ => if isServing (hubOf s h) then portErr h s else s

/-! ### Reads that change state -/

/-- Word 0 of a window slot: the slot's snapshot is taken, and word 0 answered (R454). -/
def snapshotAt (h : HubId) (slot : Nat) (s : State) : State :=
  respond h (0x4000 + 64 * slot)
    (if isServing (hubOf s h) then modHub h (fun x => { x with snaps := tset x.snaps slot (windowBytes s h slot) }) s else s)

/-- HUB_PORTERR: read and cleared (R446). -/
def portErrReadAt (h : HubId) (s : State) : State :=
  let s1 := respond h 0x118 s
  if (hubOf s h).role = .down then s1 else modHub h (fun x => { x with portErr := 0 }) s1

/-- TRC_LOSS: read and cleared. -/
def trcLossReadAt (h : HubId) (s : State) : State :=
  let s1 := respond h 0x2210 s
  if isServing (hubOf s h) then modHub h (fun x => { x with trcLost := 0 }) s1 else s1

/-- cmd_rst_n discards the outstanding reads and the snapshots of the port; no register changes (R444). -/
def portResetAt (h : HubId) (s : State) : State := modHub h (fun x => { x with snaps := [], reads := [] }) s

/-! ### A full status queue (R415) -/

def statusFullAt (q : Nat) (s : State) : State :=
  let x := queueOf s q
  if sqFree x ≠ 0 ∨ x.fullRaised ∨ (serving s).isNone then s
  else raise (ev evStatusQueueFull [(2, q), (1, x.bind), (4, (x.tail - x.taken).toNat)]) (modQueue q (fun x => { x with fullRaised := true }) s)

/-! ### The rows

A request that finds cmd_ready at 0 does not transfer (R40, R41). -/

def execDoorbell (h : HubId) (q : BitVec 3) (v : BitVec 64) (strb : BitVec 8) (s : State) : Res0 := nextOf s (onPort h (doorbellAt h q.toNat v strb) s)
def execSqHead (h : HubId) (q : BitVec 3) (v : BitVec 64) (strb : BitVec 8) (s : State) : Res0 := nextOf s (onPort h (sqHeadAt h q.toNat v strb) s)
def execQueueMemoryWrite (h : HubId) (q : BitVec 3) (slot : BitVec 4) (word : Nat) (v : BitVec 64) (strb : BitVec 8) (s : State) : Res0 :=
  nextOf s (onPort h (queueWriteAt h q.toNat slot.toNat word v strb) s)
def execIrqStat (h : HubId) (v : BitVec 64) (strb : BitVec 8) (s : State) : Res0 := nextOf s (onPort h (irqStatAt h v strb) s)
def execIrqTest (h : HubId) (v : BitVec 64) (strb : BitVec 8) (s : State) : Res0 := nextOf s (onPort h (irqTestAt h v strb) s)
def execIrqCfg (h : HubId) (v : BitVec 64) (strb : BitVec 8) (s : State) : Res0 := nextOf s (onPort h (irqCfgAt h v strb) s)
def execSntSel (h : HubId) (v : BitVec 64) (strb : BitVec 8) (s : State) : Res0 := nextOf s (onPort h (sntSelAt h v strb) s)
def execStrArea (h : HubId) (v : BitVec 64) (strb : BitVec 8) (s : State) : Res0 := nextOf s (onPort h (strAreaAt h v strb) s)
def execStrPos (h : HubId) (v : BitVec 64) (strb : BitVec 8) (s : State) : Res0 := nextOf s (onPort h (strPosAt h v strb) s)
def execStrataWindowSnapshot (h : HubId) (slot : BitVec 6) (s : State) : Res0 := nextOf s (onPort h (snapshotAt h slot.toNat) s)
def execHubPorterr (h : HubId) (s : State) : Res0 := nextOf s (onPort h (portErrReadAt h) s)
def execTrcLoss (h : HubId) (s : State) : Res0 := nextOf s (onPort h (trcLossReadAt h) s)
def execRegisterWrite (h : HubId) (addr : BitVec 20) (v : BitVec 64) (strb : BitVec 8) (s : State) : Res0 :=
  nextOf s (onPort h (registerWriteAt h addr v strb) s)
def execCmdPortReset (h : HubId) (s : State) : Res0 := nextOf s (portResetAt h s)
def execStatusQueueFull (q : BitVec 3) (s : State) : Res0 := nextOf s (statusFullAt q.toNat s)

end Sys2Proof.Machine
end

