-- ==== Sys2Proof/Machine/Held.lean ====
section
/-! DEFINITION. The commands held during PowerWarn, performed when the hub rides through (R331, R426). -/

namespace Sys2Proof.Machine
open Sys2Proof

/-- The row of the command reference that a command names, and its packet. -/
def rowOf (i : Instr) : Option (CmdRow × Packet) :=
  match i with
  | .hubNop pk => some (hubNopRow, pk)
  | .hubQbind pk => some (hubQbindRow, pk)
  | .hubStatus pk => some (hubStatusRow, pk)
  | .hubProfile pk => some (hubProfileRow, pk)
  | .hubDebug pk => some (hubDebugRow, pk)
  | .hubCounters pk => some (hubCountersRow, pk)
  | .screenReport pk => some (screenReportRow, pk)
  | .shadowSet pk => some (shadowSetRow, pk)
  | .shadowGet pk => some (shadowGetRow, pk)
  | .tstoneDesc pk => some (tstoneDescRow, pk)
  | .tstoneShare pk => some (tstoneShareRow, pk)
  | .tstoneReport pk => some (tstoneReportRow, pk)
  | .tstoneKload pk => some (tstoneKloadRow, pk)
  | .tstoneKunload pk => some (tstoneKunloadRow, pk)
  | .tstoneKattach pk => some (tstoneKattachRow, pk)
  | .tstoneKdetach pk => some (tstoneKdetachRow, pk)
  | .tstoneKresult pk => some (tstoneKresultRow, pk)
  | .testSet pk => some (testSetRow, pk)
  | .testRun pk => some (testRunRow, pk)
  | .testStatus pk => some (testStatusRow, pk)
  | .testYield pk => some (testYieldRow, pk)
  | .quarryImport pk => some (quarryImportRow, pk)
  | .quarryExport pk => some (quarryExportRow, pk)
  | .quarryList pk => some (quarryListRow, pk)
  | .quarryRetire pk => some (quarryRetireRow, pk)
  | .quarList pk => some (quarListRow, pk)
  | .quarState pk => some (quarStateRow, pk)
  | .quarSet pk => some (quarSetRow, pk)
  | .quarRestore pk => some (quarRestoreRow, pk)
  | .syncAlloc pk => some (syncAllocRow, pk)
  | .syncArm pk => some (syncArmRow, pk)
  | .syncFree pk => some (syncFreeRow, pk)
  | .syncSignal pk => some (syncSignalRow, pk)
  | .syncTake pk => some (syncTakeRow, pk)
  | .syncQuery pk => some (syncQueryRow, pk)
  | .syncJobend pk => some (syncJobendRow, pk)
  | .fenceReset pk => some (fenceResetRow, pk)
  | .fenceDetour pk => some (fenceDetourRow, pk)
  | .fenceStatus pk => some (fenceStatusRow, pk)
  | .fenceRestore pk => some (fenceRestoreRow, pk)
  | .bootCorefw pk => some (bootCorefwRow, pk)
  | .bootCheck pk => some (bootCheckRow, pk)
  | .bootStatus pk => some (bootStatusRow, pk)
  | .bootFwload pk => some (bootFwloadRow, pk)
  | .keyId pk => some (keyIdRow, pk)
  | .keyAttest pk => some (keyAttestRow, pk)
  | .keyAssign pk => some (keyAssignRow, pk)
  | .keyRotate pk => some (keyRotateRow, pk)
  | .keyUnwrap pk => some (keyUnwrapRow, pk)
  | .keyBind pk => some (keyBindRow, pk)
  | .keyUnbind pk => some (keyUnbindRow, pk)
  | .keySlotfree pk => some (keySlotfreeRow, pk)
  | .keyTroot pk => some (keyTrootRow, pk)
  | .keyVariant pk => some (keyVariantRow, pk)
  | .keyStatus pk => some (keyStatusRow, pk)
  | .scrubTenant pk => some (scrubTenantRow, pk)
  | .scrubStatus pk => some (scrubStatusRow, pk)
  | .traceSet pk => some (traceSetRow, pk)
  | .traceArm pk => some (traceArmRow, pk)
  | .traceTrigger pk => some (traceTriggerRow, pk)
  | .traceStatus pk => some (traceStatusRow, pk)
  | .stopIssue pk => some (stopIssueRow, pk)
  | .stopArm pk => some (stopArmRow, pk)
  | .stopResume pk => some (stopResumeRow, pk)
  | .stopStatus pk => some (stopStatusRow, pk)
  | .strataStatus pk => some (strataStatusRow, pk)
  | .strataRead pk => some (strataReadRow, pk)
  | .strataFreeze pk => some (strataFreezeRow, pk)
  | .strataUnfreeze pk => some (strataUnfreezeRow, pk)
  | .strataTimepair pk => some (strataTimepairRow, pk)
  | .strataCodes pk => some (strataCodesRow, pk)
  | .powerStatus pk => some (powerStatusRow, pk)
  | .powerMask pk => some (powerMaskRow, pk)
  | .powerBank pk => some (powerBankRow, pk)
  | .linkTrain pk => some (linkTrainRow, pk)
  | .linkStatus pk => some (linkStatusRow, pk)
  | _ => none

/-- The oldest held command: checked, performed and answered as it would have been when taken. -/
def performHeld (s : State) : State :=
  match s.cmd.held with
  | [] => s
  | x :: rest =>
    let s1 := { s with cmd := { s.cmd with held := rest } }
    rejectUnknown maxWaiting (match rowOf x.2.2, serving s1 with
      | some (row, pk), some h => interpret row (callerOf h row.op pk x.2.1 s1) s1
      | _, _ => s1)

def execPowerRideThrough (h : HubId) (s : State) : Res0 := nextOf s (rideThrough performHeld h s)

end Sys2Proof.Machine
end

