-- ==== Sys2Proof/Machine/Dispatch.lean ====
section
/-! DEFINITION. The one dispatch: every command of the table to its meaning. -/

namespace Sys2Proof.Machine
open Sys2Proof

def exec (i : Instr) (s : State) : Host.Outcome State Fault Refusal :=
  match i with
  | .hubNop pk => Sys2Proof.Machine.execHubNop pk s
  | .hubQbind pk => Sys2Proof.Machine.execHubQbind pk s
  | .hubStatus pk => Sys2Proof.Machine.execHubStatus pk s
  | .hubProfile pk => Sys2Proof.Machine.execHubProfile pk s
  | .hubDebug pk => Sys2Proof.Machine.execHubDebug pk s
  | .hubCounters pk => Sys2Proof.Machine.execHubCounters pk s
  | .screenReport pk => Sys2Proof.Machine.execScreenReport pk s
  | .shadowSet pk => Sys2Proof.Machine.execShadowSet pk s
  | .shadowGet pk => Sys2Proof.Machine.execShadowGet pk s
  | .tstoneDesc pk => Sys2Proof.Machine.execTstoneDesc pk s
  | .tstoneShare pk => Sys2Proof.Machine.execTstoneShare pk s
  | .tstoneReport pk => Sys2Proof.Machine.execTstoneReport pk s
  | .tstoneKload pk => Sys2Proof.Machine.execTstoneKload pk s
  | .tstoneKunload pk => Sys2Proof.Machine.execTstoneKunload pk s
  | .tstoneKattach pk => Sys2Proof.Machine.execTstoneKattach pk s
  | .tstoneKdetach pk => Sys2Proof.Machine.execTstoneKdetach pk s
  | .tstoneKresult pk => Sys2Proof.Machine.execTstoneKresult pk s
  | .testSet pk => Sys2Proof.Machine.execTestSet pk s
  | .testRun pk => Sys2Proof.Machine.execTestRun pk s
  | .testStatus pk => Sys2Proof.Machine.execTestStatus pk s
  | .testYield pk => Sys2Proof.Machine.execTestYield pk s
  | .quarryImport pk => Sys2Proof.Machine.execQuarryImport pk s
  | .quarryExport pk => Sys2Proof.Machine.execQuarryExport pk s
  | .quarryList pk => Sys2Proof.Machine.execQuarryList pk s
  | .quarryRetire pk => Sys2Proof.Machine.execQuarryRetire pk s
  | .quarList pk => Sys2Proof.Machine.execQuarList pk s
  | .quarState pk => Sys2Proof.Machine.execQuarState pk s
  | .quarSet pk => Sys2Proof.Machine.execQuarSet pk s
  | .quarRestore pk => Sys2Proof.Machine.execQuarRestore pk s
  | .syncAlloc pk => Sys2Proof.Machine.execSyncAlloc pk s
  | .syncArm pk => Sys2Proof.Machine.execSyncArm pk s
  | .syncFree pk => Sys2Proof.Machine.execSyncFree pk s
  | .syncSignal pk => Sys2Proof.Machine.execSyncSignal pk s
  | .syncTake pk => Sys2Proof.Machine.execSyncTake pk s
  | .syncQuery pk => Sys2Proof.Machine.execSyncQuery pk s
  | .syncJobend pk => Sys2Proof.Machine.execSyncJobend pk s
  | .fenceReset pk => Sys2Proof.Machine.execFenceReset pk s
  | .fenceDetour pk => Sys2Proof.Machine.execFenceDetour pk s
  | .fenceStatus pk => Sys2Proof.Machine.execFenceStatus pk s
  | .fenceRestore pk => Sys2Proof.Machine.execFenceRestore pk s
  | .bootCorefw pk => Sys2Proof.Machine.execBootCorefw pk s
  | .bootCheck pk => Sys2Proof.Machine.execBootCheck pk s
  | .bootStatus pk => Sys2Proof.Machine.execBootStatus pk s
  | .bootFwload pk => Sys2Proof.Machine.execBootFwload pk s
  | .keyId pk => Sys2Proof.Machine.execKeyId pk s
  | .keyAttest pk => Sys2Proof.Machine.execKeyAttest pk s
  | .keyAssign pk => Sys2Proof.Machine.execKeyAssign pk s
  | .keyRotate pk => Sys2Proof.Machine.execKeyRotate pk s
  | .keyUnwrap pk => Sys2Proof.Machine.execKeyUnwrap pk s
  | .keyBind pk => Sys2Proof.Machine.execKeyBind pk s
  | .keyUnbind pk => Sys2Proof.Machine.execKeyUnbind pk s
  | .keySlotfree pk => Sys2Proof.Machine.execKeySlotfree pk s
  | .keyTroot pk => Sys2Proof.Machine.execKeyTroot pk s
  | .keyVariant pk => Sys2Proof.Machine.execKeyVariant pk s
  | .keyStatus pk => Sys2Proof.Machine.execKeyStatus pk s
  | .scrubTenant pk => Sys2Proof.Machine.execScrubTenant pk s
  | .scrubStatus pk => Sys2Proof.Machine.execScrubStatus pk s
  | .traceSet pk => Sys2Proof.Machine.execTraceSet pk s
  | .traceArm pk => Sys2Proof.Machine.execTraceArm pk s
  | .traceTrigger pk => Sys2Proof.Machine.execTraceTrigger pk s
  | .traceStatus pk => Sys2Proof.Machine.execTraceStatus pk s
  | .stopIssue pk => Sys2Proof.Machine.execStopIssue pk s
  | .stopArm pk => Sys2Proof.Machine.execStopArm pk s
  | .stopResume pk => Sys2Proof.Machine.execStopResume pk s
  | .stopStatus pk => Sys2Proof.Machine.execStopStatus pk s
  | .strataStatus pk => Sys2Proof.Machine.execStrataStatus pk s
  | .strataRead pk => Sys2Proof.Machine.execStrataRead pk s
  | .strataFreeze pk => Sys2Proof.Machine.execStrataFreeze pk s
  | .strataUnfreeze pk => Sys2Proof.Machine.execStrataUnfreeze pk s
  | .strataTimepair pk => Sys2Proof.Machine.execStrataTimepair pk s
  | .strataCodes pk => Sys2Proof.Machine.execStrataCodes pk s
  | .powerStatus pk => Sys2Proof.Machine.execPowerStatus pk s
  | .powerMask pk => Sys2Proof.Machine.execPowerMask pk s
  | .powerBank pk => Sys2Proof.Machine.execPowerBank pk s
  | .linkTrain pk => Sys2Proof.Machine.execLinkTrain pk s
  | .linkStatus pk => Sys2Proof.Machine.execLinkStatus pk s
  | .doorbell h q v strb => Sys2Proof.Machine.execDoorbell h q v strb s
  | .sqHead h q v strb => Sys2Proof.Machine.execSqHead h q v strb s
  | .queueMemoryWrite h q slot word v strb => Sys2Proof.Machine.execQueueMemoryWrite h q slot word v strb s
  | .irqStat h v strb => Sys2Proof.Machine.execIrqStat h v strb s
  | .irqTest h v strb => Sys2Proof.Machine.execIrqTest h v strb s
  | .irqCfg h v strb => Sys2Proof.Machine.execIrqCfg h v strb s
  | .sntSel h v strb => Sys2Proof.Machine.execSntSel h v strb s
  | .strArea h v strb => Sys2Proof.Machine.execStrArea h v strb s
  | .strPos h v strb => Sys2Proof.Machine.execStrPos h v strb s
  | .strataWindowSnapshot h slot => Sys2Proof.Machine.execStrataWindowSnapshot h slot s
  | .hubPorterr h => Sys2Proof.Machine.execHubPorterr h s
  | .trcLoss h => Sys2Proof.Machine.execTrcLoss h s
  | .registerWrite h addr v strb => Sys2Proof.Machine.execRegisterWrite h addr v strb s
  | .cmdPortReset h => Sys2Proof.Machine.execCmdPortReset h s
  | .statusQueueFull q => Sys2Proof.Machine.execStatusQueueFull q s
  | .waferReset => Sys2Proof.Machine.execWaferReset s
  | .hubStart h inp => Sys2Proof.Machine.execHubStart h inp s
  | .wardenStart p inp => Sys2Proof.Machine.execWardenStart p inp s
  | .refclkLost h => Sys2Proof.Machine.execRefclkLost h s
  | .refclkBack h outageNs => Sys2Proof.Machine.execRefclkBack h outageNs s
  | .powerFailWarn h => Sys2Proof.Machine.execPowerFailWarn h s
  | .powerFlushDone h => Sys2Proof.Machine.execPowerFlushDone h s
  | .powerRideThrough h => Sys2Proof.Machine.execPowerRideThrough h s
  | .hubRailLow h reading => Sys2Proof.Machine.execHubRailLow h reading s
  | .hubRailOk h belowNs => Sys2Proof.Machine.execHubRailOk h belowNs s
  | .hubRailCollapse h => Sys2Proof.Machine.execHubRailCollapse h s
  | .wardenSupplyLoss p => Sys2Proof.Machine.execWardenSupplyLoss p s
  | .droopWindowOpen p droop margin => Sys2Proof.Machine.execDroopWindowOpen p droop margin s
  | .droopWindow p => Sys2Proof.Machine.execDroopWindow p s
  | .markingEnd p => Sys2Proof.Machine.execMarkingEnd p s
  | .powerSensorStuck p bit => Sys2Proof.Machine.execPowerSensorStuck p bit s
  | .stretchNoAck p => Sys2Proof.Machine.execStretchNoAck p s
  | .droopHoldExpiry p => Sys2Proof.Machine.execDroopHoldExpiry p s
  | .leaseRenewal h p => Sys2Proof.Machine.execLeaseRenewal h p s
  | .leaseLapse p => Sys2Proof.Machine.execLeaseLapse p s
  | .primaryLeaseExpiry h p => Sys2Proof.Machine.execPrimaryLeaseExpiry h p s
  | .primacyClaim h p => Sys2Proof.Machine.execPrimacyClaim h p s
  | .claimTick h => Sys2Proof.Machine.execClaimTick h s
  | .claimQuorum h => Sys2Proof.Machine.execClaimQuorum h s
  | .claimWithdrawn h => Sys2Proof.Machine.execClaimWithdrawn h s
  | .claimRetry h => Sys2Proof.Machine.execClaimRetry h s
  | .peerProbe h => Sys2Proof.Machine.execPeerProbe h s
  | .hubFailover h cause => Sys2Proof.Machine.execHubFailover h cause s
  | .peerSecondary h => Sys2Proof.Machine.execPeerSecondary h s
  | .mirrorWrite h => Sys2Proof.Machine.execMirrorWrite h s
  | .lockstepMasked h core => Sys2Proof.Machine.execLockstepMasked h core s
  | .veinFlit node port flit => Sys2Proof.Machine.execVeinFlit node port flit s
  | .veinFlitRefused node port flit => Sys2Proof.Machine.execVeinFlitRefused node port flit s
  | .wardenHoldExpired p => Sys2Proof.Machine.execWardenHoldExpired p s
  | .wardenFailed p cause => Sys2Proof.Machine.execWardenFailed p cause s
  | .hbeatTick => Sys2Proof.Machine.execHbeatTick s
  | .sentryLookup p ch site => Sys2Proof.Machine.execSentryLookup p ch site s
  | .sentryEntryUpdate p site => Sys2Proof.Machine.execSentryEntryUpdate p site s
  | .sentryBatch p => Sys2Proof.Machine.execSentryBatch p s
  | .sentrySwitchAck p => Sys2Proof.Machine.execSentrySwitchAck p s
  | .certificate p g src epoch cert => Sys2Proof.Machine.execCertificate p g src epoch cert s
  | .shadowCertificate p g src epoch cert => Sys2Proof.Machine.execShadowCertificate p g src epoch cert s
  | .shadowTimeout p dst tid epoch => Sys2Proof.Machine.execShadowTimeout p dst tid epoch s
  | .certificateLoss p g epoch => Sys2Proof.Machine.execCertificateLoss p g epoch s
  | .engineRecord p idx epoch rec rows => Sys2Proof.Machine.execEngineRecord p idx epoch rec rows s
  | .poisonNotice p src epoch => Sys2Proof.Machine.execPoisonNotice p src epoch s
  | .yieldNotice p src => Sys2Proof.Machine.execYieldNotice p src s
  | .swapAck p => Sys2Proof.Machine.execSwapAck p s
  | .swapFail p => Sys2Proof.Machine.execSwapFail p s
  | .rotationTimer p cluster => Sys2Proof.Machine.execRotationTimer p cluster s
  | .spareTestDue p cluster => Sys2Proof.Machine.execSpareTestDue p cluster s
  | .offerPass p cluster => Sys2Proof.Machine.execOfferPass p cluster s
  | .yieldLate p cluster => Sys2Proof.Machine.execYieldLate p cluster s
  | .testDebt p src => Sys2Proof.Machine.execTestDebt p src s
  | .directedPhaseStart p => Sys2Proof.Machine.execDirectedPhaseStart p s
  | .testSliceSignature p src sig => Sys2Proof.Machine.execTestSliceSignature p src sig s
  | .testSliceTimeout p src => Sys2Proof.Machine.execTestSliceTimeout p src s
  | .patternRun p cluster origin seq => Sys2Proof.Machine.execPatternRun p cluster origin seq s
  | .captureAlloc p ticket => Sys2Proof.Machine.execCaptureAlloc p ticket s
  | .captureStream p cid preamble body => Sys2Proof.Machine.execCaptureStream p cid preamble body s
  | .quantumEnd h cell => Sys2Proof.Machine.execQuantumEnd h cell s
  | .sampleDone h cell => Sys2Proof.Machine.execSampleDone h cell s
  | .tstoneCellCheck h cell lane => Sys2Proof.Machine.execTstoneCellCheck h cell lane s
  | .knownAnswerTestDone h cell pass => Sys2Proof.Machine.execKnownAnswerTestDone h cell pass s
  | .arbitrationLimit p tid epoch => Sys2Proof.Machine.execArbitrationLimit p tid epoch s
  | .touchstoneVerdict p cid => Sys2Proof.Machine.execTouchstoneVerdict p cid s
  | .kernelLate cid => Sys2Proof.Machine.execKernelLate cid s
  | .nop k => Sys2Proof.Machine.execNop k s
  | .halt k => Sys2Proof.Machine.execHalt k s
  | .jmp k imm => Sys2Proof.Machine.execJmp k imm s
  | .bnz k a imm => Sys2Proof.Machine.execBnz k a imm s
  | .blt k a b imm => Sys2Proof.Machine.execBlt k a b imm s
  | .djnz k d imm => Sys2Proof.Machine.execDjnz k d imm s
  | .li k d imm => Sys2Proof.Machine.execLi k d imm s
  | .add k d a b => Sys2Proof.Machine.execAdd k d a b s
  | .addi k d a imm => Sys2Proof.Machine.execAddi k d a imm s
  | .mul k d a b => Sys2Proof.Machine.execMul k d a b s
  | .ldx k d a ty imm => Sys2Proof.Machine.execLdx k d a ty imm s
  | .lclr k => Sys2Proof.Machine.execLclr k s
  | .lsum k a b ty => Sys2Proof.Machine.execLsum k a b ty s
  | .lasum k a b ty => Sys2Proof.Machine.execLasum k a b ty s
  | .lsqsum k a b ty => Sys2Proof.Machine.execLsqsum k a b ty s
  | .ldot k a b c ty => Sys2Proof.Machine.execLdot k a b c ty s
  | .merge k d => Sys2Proof.Machine.execMerge k d s
  | .lscan k d a b c ty imm => Sys2Proof.Machine.execLscan k d a b c ty imm s
  | .mli k d imm => Sys2Proof.Machine.execMli k d imm s
  | .madd k d a b => Sys2Proof.Machine.execMadd k d a b s
  | .msub k d a b => Sys2Proof.Machine.execMsub k d a b s
  | .mabs k d a => Sys2Proof.Machine.execMabs k d a s
  | .mtov k d a rnd => Sys2Proof.Machine.execMtov k d a rnd s
  | .vli k d imm => Sys2Proof.Machine.execVli k d imm s
  | .vld k d a ty imm => Sys2Proof.Machine.execVld k d a ty imm s
  | .vadd k d a b rnd => Sys2Proof.Machine.execVadd k d a b rnd s
  | .vsub k d a b rnd => Sys2Proof.Machine.execVsub k d a b rnd s
  | .vmul k d a b rnd => Sys2Proof.Machine.execVmul k d a b rnd s
  | .vfx k d a => Sys2Proof.Machine.execVfx k d a s
  | .vfn k d a imm => Sys2Proof.Machine.execVfn k d a imm s
  | .vgam k d a => Sys2Proof.Machine.execVgam k d a s
  | .ckle k a b c imm => Sys2Proof.Machine.execCkle k a b c imm s
  | .find k c imm => Sys2Proof.Machine.execFind k c imm s
  | .barrierArrival p src obj epoch => Sys2Proof.Machine.execBarrierArrival p src obj epoch s
  | .primaryArrival p obj epoch => Sys2Proof.Machine.execPrimaryArrival p obj epoch s
  | .closeQuery p obj epoch => Sys2Proof.Machine.execCloseQuery p obj epoch s
  | .epochClean p epoch => Sys2Proof.Machine.execEpochClean p epoch s
  | .failureReport p epoch => Sys2Proof.Machine.execFailureReport p epoch s
  | .releaseAck rsn => Sys2Proof.Machine.execReleaseAck rsn s
  | .release p obj => Sys2Proof.Machine.execRelease p obj s
  | .tallyClose p epoch => Sys2Proof.Machine.execTallyClose p epoch s
  | .postAck p num => Sys2Proof.Machine.execPostAck p num s
  | .triageResult p tid epoch => Sys2Proof.Machine.execTriageResult p tid epoch s
  | .clearOrder p epoch => Sys2Proof.Machine.execClearOrder p epoch s
  | .replayOrder p obj => Sys2Proof.Machine.execReplayOrder p obj s
  | .governorUpdate deltaNs => Sys2Proof.Machine.execGovernorUpdate deltaNs s
  | .fractionUpdate p cluster => Sys2Proof.Machine.execFractionUpdate p cluster s
  | .defectCommit => Sys2Proof.Machine.execDefectCommit s
  | .resetAck p site => Sys2Proof.Machine.execResetAck p site s
  | .fenceQuiesceEnd p => Sys2Proof.Machine.execFenceQuiesceEnd p s
  | .memoryFenceAck p m => Sys2Proof.Machine.execMemoryFenceAck p m s
  | .fenceAckTimeout p m => Sys2Proof.Machine.execFenceAckTimeout p m s
  | .memoryDrained p m => Sys2Proof.Machine.execMemoryDrained p m s
  | .drainTimeout p m => Sys2Proof.Machine.execDrainTimeout p m s
  | .drainStuck p m => Sys2Proof.Machine.execDrainStuck p m s
  | .detourTimeout p => Sys2Proof.Machine.execDetourTimeout p s
  | .transitEmptyWait p => Sys2Proof.Machine.execTransitEmptyWait p s
  | .recoveryFail p => Sys2Proof.Machine.execRecoveryFail p s
  | .bankQuiesceEnd p bank => Sys2Proof.Machine.execBankQuiesceEnd p bank s
  | .bankIdle p bank => Sys2Proof.Machine.execBankIdle p bank s
  | .bankOffWait p bank => Sys2Proof.Machine.execBankOffWait p bank s
  | .memoryPoison p m page bank => Sys2Proof.Machine.execMemoryPoison p m page bank s
  | .keyLoadAck p m => Sys2Proof.Machine.execKeyLoadAck p m s
  | .scrubOrderDone p m errBank => Sys2Proof.Machine.execScrubOrderDone p m errBank s
  | .linkTrainDone j width lanes => Sys2Proof.Machine.execLinkTrainDone j width lanes s
  | .linkTrainTimeout j => Sys2Proof.Machine.execLinkTrainTimeout j s
  | .linkDown j => Sys2Proof.Machine.execLinkDown j s
  | .linkErrorRecord j kind lane cnt => Sys2Proof.Machine.execLinkErrorRecord j kind lane cnt s
  | .selfTestDone p failEngines failControl => Sys2Proof.Machine.execSelfTestDone p failEngines failControl s
  | .corefwRequest => Sys2Proof.Machine.execCorefwRequest s
  | .corefwDigest p digest => Sys2Proof.Machine.execCorefwDigest p digest s
  | .corefwFail p => Sys2Proof.Machine.execCorefwFail p s
  | .partitionJoin p => Sys2Proof.Machine.execPartitionJoin p s
  | .probationEnd p => Sys2Proof.Machine.execProbationEnd p s
  | .cairnArrival node stamp => Sys2Proof.Machine.execCairnArrival node stamp s
  | .cairnHaltReport p => Sys2Proof.Machine.execCairnHaltReport p s
  | .cairnCutTimeout => Sys2Proof.Machine.execCairnCutTimeout s
  | .scanoutPull h recs => Sys2Proof.Machine.execScanoutPull h recs s
  | .cairnResumeOrder p => Sys2Proof.Machine.execCairnResumeOrder p s
  | .counterTap p g rec => Sys2Proof.Machine.execCounterTap p g rec s
  | .pcSamplePulse p => Sys2Proof.Machine.execPcSamplePulse p s
  | .pcSample p g rec => Sys2Proof.Machine.execPcSample p g rec s
  | .pcSampleTimeout p g => Sys2Proof.Machine.execPcSampleTimeout p g s
  | .controlCoreTrace p core rec => Sys2Proof.Machine.execControlCoreTrace p core rec s
  | .traceRecord h p => Sys2Proof.Machine.execTraceRecord h p s
  | .traceDrained h => Sys2Proof.Machine.execTraceDrained h s
  | .traceTimepair h => Sys2Proof.Machine.execTraceTimepair h s
  | .veinDropReport node => Sys2Proof.Machine.execVeinDropReport node s
  | .eventRecord p num => Sys2Proof.Machine.execEventRecord p num s
  | .strataWardenGap p => Sys2Proof.Machine.execStrataWardenGap p s
  | .strataFreezeLimit => Sys2Proof.Machine.execStrataFreezeLimit s
  | .strataTimeCompare => Sys2Proof.Machine.execStrataTimeCompare s
  | .bankPowerOn p bank => Sys2Proof.Machine.execBankPowerOn p bank s
  | .stretchAckChange p level => Sys2Proof.Machine.execStretchAckChange p level s
  | .droopInputClear p => Sys2Proof.Machine.execDroopInputClear p s
  | .powerFailWarnRelease h => Sys2Proof.Machine.execPowerFailWarnRelease h s
  | .peerHbToggle h => Sys2Proof.Machine.execPeerHbToggle h s
  | .sntClkRestart p => Sys2Proof.Machine.execSntClkRestart p s
  | .wardenInteriorStop p => Sys2Proof.Machine.execWardenInteriorStop p s
  | .captureComplete cid => Sys2Proof.Machine.execCaptureComplete cid s
  | .captureGrant p cid => Sys2Proof.Machine.execCaptureGrant p cid s
  | .traceFrameSent h lane => Sys2Proof.Machine.execTraceFrameSent h lane s
  | .eventAck p num => Sys2Proof.Machine.execEventAck p num s
  | .mirrorAck h => Sys2Proof.Machine.execMirrorAck h s
  | .debugSessionIdle => Sys2Proof.Machine.execDebugSessionIdle s
  | .failureReportAck p epoch => Sys2Proof.Machine.execFailureReportAck p epoch s
  | .traceLossRecordTick point => Sys2Proof.Machine.execTraceLossRecordTick point s

end Sys2Proof.Machine
end

