-- ==== Sys2Proof/Machine/Tick.lean ====
section
/-! DEFINITION. One tick of 10 ns, taken in place of idling (log entry 2): a refclk edge at each hub, each warden's own timer, a read response at
each port, the transfers that the ready inputs of the dispatch channels let go, the quorum of the hub that serves, and work kept due that may now
begin (R67, R124, R41, R21, R472). -/

namespace Sys2Proof.Machine
open Sys2Proof

/-- A live warden's timer counts, and its partition shows its wcl_shd_ready inputs, whose values are the partition's: a free value at each
tick (log entry 135). -/
def wardenEdge (free p : Nat) (w : Warden) : Warden :=
  if w.alive then { w with timer := w.timer + 1, shdReady := (Config.freeValue (free + p)).setWidth 20 } else w

/-- A hub's edge, with the level that the host bridge gives cmd_rready: a free value at each tick (log entry 124). -/
def portEdge (free : Nat) (x : Hub) : Hub := { hubEdge x with rready := (Config.freeValue free).getLsbD 0 }

/-- The edges of a tick: both hubs' and every warden's. -/
def tickEdges (s : State) : State :=
  { s with
    hubA := portEdge (s.free + 98) s.hubA
    hubB := portEdge (s.free + 99) s.hubB
    wardens := s.wardens.map (fun e => (e.1, wardenEdge s.free e.1 e.2))
    free := s.free + 100 }

/-- Wardens at which a transfer waits. -/
def waitingWardens (s : State) : List Nat := (s.wardens.filter (fun e => decide (e.2.shdQ ≠ []) || e.2.patNext.isSome)).map (·.1)

/-- One tick. -/
def tick (s : State) : State :=
  let s1 := takeRead .b (takeRead .a (tickEdges s))
  ended s (settleDue performHeld (quorumCheck (forEach (waitingWardens s1) pumpAll s1)))

end Sys2Proof.Machine
end

