-- ==== Sys2Proof/WellFormed.lean ====
section
/-! DEFINITION. Well-formed commands: every operand in the range the spec gives it. -/

namespace Sys2Proof

/-- A partition, 0 to 97 (R10, Table 0.5). -/
def okPart (p : Nat) : Bool := decide (p < 98)

/-- A Touchstone cell, 0 to 15 (R139). -/
def okCell (c : Nat) : Bool := decide (c < 16)

/-- A source of the warden-cluster interface: cluster 0 to 639 and physical position 0 to 16 (R52, R11). -/
def okSrc (src : BitVec 15) : Bool := decide (src.toNat / 32 < 640) && decide (src.toNat % 32 ≤ 16)

/-- A packet carries no more payload than its slot holds (R412). -/
def Packet.wf (pk : Packet) : Bool := decide (pk.payload.length ≤ 4096)

/-- Straps of 6 and 4 bits (Table 2.11), one seed for each of the 20 groups (R120) and one for the engine rows (R178). -/
def WardenIn.wf (i : WardenIn) : Bool := decide (i.linkBase < 64) && decide (i.linkCount < 16) && decide (i.seeds.length = 21)

/-- A flit's class 0 to 4, its node and virtual channel (R25, R27, R28). -/
def Flit.wf (f : Flit) : Bool := decide (f.cls ≤ 4) && decide (f.dst < 100) && decide (f.vc ≤ 1)

/-- Every operand of a command is in range. -/
def Instr.wf (i : Instr) : Bool :=
  match i with
  | .hubNop pk => pk.wf
  | .hubQbind pk => pk.wf
  | .hubStatus pk => pk.wf
  | .hubProfile pk => pk.wf
  | .hubDebug pk => pk.wf
  | .hubCounters pk => pk.wf
  | .screenReport pk => pk.wf
  | .shadowSet pk => pk.wf
  | .shadowGet pk => pk.wf
  | .tstoneDesc pk => pk.wf
  | .tstoneShare pk => pk.wf
  | .tstoneReport pk => pk.wf
  | .tstoneKload pk => pk.wf
  | .tstoneKunload pk => pk.wf
  | .tstoneKattach pk => pk.wf
  | .tstoneKdetach pk => pk.wf
  | .tstoneKresult pk => pk.wf
  | .testSet pk => pk.wf
  | .testRun pk => pk.wf
  | .testStatus pk => pk.wf
  | .testYield pk => pk.wf
  | .quarryImport pk => pk.wf
  | .quarryExport pk => pk.wf
  | .quarryList pk => pk.wf
  | .quarryRetire pk => pk.wf
  | .quarList pk => pk.wf
  | .quarState pk => pk.wf
  | .quarSet pk => pk.wf
  | .quarRestore pk => pk.wf
  | .syncAlloc pk => pk.wf
  | .syncArm pk => pk.wf
  | .syncFree pk => pk.wf
  | .syncSignal pk => pk.wf
  | .syncTake pk => pk.wf
  | .syncQuery pk => pk.wf
  | .syncJobend pk => pk.wf
  | .fenceReset pk => pk.wf
  | .fenceDetour pk => pk.wf
  | .fenceStatus pk => pk.wf
  | .fenceRestore pk => pk.wf
  | .bootCorefw pk => pk.wf
  | .bootCheck pk => pk.wf
  | .bootStatus pk => pk.wf
  | .bootFwload pk => pk.wf
  | .keyId pk => pk.wf
  | .keyAttest pk => pk.wf
  | .keyAssign pk => pk.wf
  | .keyRotate pk => pk.wf
  | .keyUnwrap pk => pk.wf
  | .keyBind pk => pk.wf
  | .keyUnbind pk => pk.wf
  | .keySlotfree pk => pk.wf
  | .keyTroot pk => pk.wf
  | .keyVariant pk => pk.wf
  | .keyStatus pk => pk.wf
  | .scrubTenant pk => pk.wf
  | .scrubStatus pk => pk.wf
  | .traceSet pk => pk.wf
  | .traceArm pk => pk.wf
  | .traceTrigger pk => pk.wf
  | .traceStatus pk => pk.wf
  | .stopIssue pk => pk.wf
  | .stopArm pk => pk.wf
  | .stopResume pk => pk.wf
  | .stopStatus pk => pk.wf
  | .strataStatus pk => pk.wf
  | .strataRead pk => pk.wf
  | .strataFreeze pk => pk.wf
  | .strataUnfreeze pk => pk.wf
  | .strataTimepair pk => pk.wf
  | .strataCodes pk => pk.wf
  | .powerStatus pk => pk.wf
  | .powerMask pk => pk.wf
  | .powerBank pk => pk.wf
  | .linkTrain pk => pk.wf
  | .linkStatus pk => pk.wf
  | .doorbell _ _ _ _ => true
  | .sqHead _ _ _ _ => true
  | .queueMemoryWrite _ _ _ word _ _ => decide (word < 520)
  | .irqStat _ _ _ => true
  | .irqTest _ _ _ => true
  | .irqCfg _ _ _ => true
  | .sntSel _ _ _ => true
  | .strArea _ _ _ => true
  | .strPos _ _ _ => true
  | .strataWindowSnapshot _ _ => true
  | .hubPorterr _ => true
  | .trcLoss _ => true
  | .registerWrite _ _ _ _ => true
  | .cmdPortReset _ => true
  | .statusQueueFull _ => true
  | .waferReset => true
  | .hubStart _ _ => true
  | .wardenStart p inp => okPart p && inp.wf
  | .refclkLost _ => true
  | .refclkBack _ _ => true
  | .powerFailWarn _ => true
  | .powerFlushDone _ => true
  | .powerRideThrough _ => true
  | .hubRailLow _ _ => true
  | .hubRailOk _ _ => true
  | .hubRailCollapse _ => true
  | .wardenSupplyLoss p => okPart p
  | .droopWindowOpen p _ _ => okPart p
  | .droopWindow p => okPart p
  | .markingEnd p => okPart p
  | .powerSensorStuck p bit => okPart p && decide (bit < 40)
  | .stretchNoAck p => okPart p
  | .droopHoldExpiry p => okPart p
  | .leaseRenewal _ p => okPart p
  | .leaseLapse p => okPart p
  | .primaryLeaseExpiry _ p => okPart p
  | .primacyClaim _ p => okPart p
  | .claimTick _ => true
  | .claimQuorum _ => true
  | .claimWithdrawn _ => true
  | .claimRetry _ => true
  | .peerProbe _ => true
  | .hubFailover _ cause => (decide (cause = 1) || decide (cause = 2))
  | .peerSecondary _ => true
  | .mirrorWrite _ => true
  | .lockstepMasked _ core => decide (core ≤ 3)
  | .veinFlit node port flit => decide (node < 100) && decide (port ≤ 4) && flit.wf
  | .veinFlitRefused node port flit => decide (node < 100) && decide (port < 4) && flit.wf
  | .wardenHoldExpired p => okPart p
  | .wardenFailed p cause => okPart p && (decide (cause = 1) || decide (cause = 2))
  | .hbeatTick => true
  | .sentryLookup p ch _ => okPart p && decide (ch < 16)
  | .sentryEntryUpdate p _ => okPart p
  | .sentryBatch p => okPart p
  | .sentrySwitchAck p => okPart p
  | .certificate p g src _ _ => okPart p && decide (g < 20) && okSrc src
  | .shadowCertificate p g src _ _ => okPart p && decide (g < 20) && okSrc src
  | .shadowTimeout p dst _ _ => okPart p && okSrc dst
  | .certificateLoss p g _ => okPart p && decide (g < 20)
  | .engineRecord p _ _ _ _ => okPart p
  | .poisonNotice p src _ => okPart p && okSrc src
  | .yieldNotice p src => okPart p && okSrc src
  | .swapAck p => okPart p
  | .swapFail p => okPart p
  | .rotationTimer p cluster => okPart p && decide (cluster < 640)
  | .spareTestDue p cluster => okPart p && decide (cluster < 640)
  | .offerPass p cluster => okPart p && decide (cluster < 640)
  | .yieldLate p cluster => okPart p && decide (cluster < 640)
  | .testDebt p src => okPart p && okSrc src
  | .directedPhaseStart p => okPart p
  | .testSliceSignature p src _ => okPart p && okSrc src
  | .testSliceTimeout p src => okPart p && okSrc src
  | .patternRun p cluster _ _ => okPart p && decide (cluster < 640)
  | .captureAlloc p _ => okPart p
  | .captureStream p _ _ _ => okPart p
  | .quantumEnd _ cell => okCell cell
  | .sampleDone _ cell => okCell cell
  | .tstoneCellCheck _ cell lane => okCell cell && decide (lane < 64)
  | .knownAnswerTestDone _ cell _ => okCell cell
  | .arbitrationLimit p _ _ => okPart p
  | .touchstoneVerdict p _ => okPart p
  | .kernelLate _ => true
  | .nop k => okCell k.cell
  | .halt k => okCell k.cell
  | .jmp k _ => okCell k.cell
  | .bnz k _ _ => okCell k.cell
  | .blt k _ _ _ => okCell k.cell
  | .djnz k _ _ => okCell k.cell
  | .li k _ _ => okCell k.cell
  | .add k _ _ _ => okCell k.cell
  | .addi k _ _ _ => okCell k.cell
  | .mul k _ _ _ => okCell k.cell
  | .ldx k _ _ _ _ => okCell k.cell
  | .lclr k => okCell k.cell
  | .lsum k _ _ _ => okCell k.cell
  | .lasum k _ _ _ => okCell k.cell
  | .lsqsum k _ _ _ => okCell k.cell
  | .ldot k _ _ _ _ => okCell k.cell
  | .merge k _ => okCell k.cell
  | .lscan k _ _ _ _ _ _ => okCell k.cell
  | .mli k _ _ => okCell k.cell
  | .madd k _ _ _ => okCell k.cell
  | .msub k _ _ _ => okCell k.cell
  | .mabs k _ _ => okCell k.cell
  | .mtov k _ _ _ => okCell k.cell
  | .vli k _ _ => okCell k.cell
  | .vld k _ _ _ _ => okCell k.cell
  | .vadd k _ _ _ _ => okCell k.cell
  | .vsub k _ _ _ _ => okCell k.cell
  | .vmul k _ _ _ _ => okCell k.cell
  | .vfx k _ _ => okCell k.cell
  | .vfn k _ _ _ => okCell k.cell
  | .vgam k _ _ => okCell k.cell
  | .ckle k _ _ _ _ => okCell k.cell
  | .find k _ _ => okCell k.cell
  | .barrierArrival p src _ _ => okPart p && okSrc src
  | .primaryArrival p _ _ => okPart p
  | .closeQuery p _ _ => okPart p
  | .epochClean p _ => okPart p
  | .failureReport p _ => okPart p
  | .releaseAck _ => true
  | .release p _ => okPart p
  | .tallyClose p _ => okPart p
  | .postAck p _ => okPart p
  | .triageResult p _ _ => okPart p
  | .clearOrder p _ => okPart p
  | .replayOrder p _ => okPart p
  | .governorUpdate _ => true
  | .fractionUpdate p cluster => okPart p && decide (cluster < 640)
  | .defectCommit => true
  | .resetAck p _ => okPart p
  | .fenceQuiesceEnd p => okPart p
  | .memoryFenceAck p m => okPart p && decide (m < 2)
  | .fenceAckTimeout p m => okPart p && decide (m < 2)
  | .memoryDrained p m => okPart p && decide (m < 2)
  | .drainTimeout p m => okPart p && decide (m < 2)
  | .drainStuck p m => okPart p && decide (m < 2)
  | .detourTimeout p => okPart p
  | .transitEmptyWait p => okPart p
  | .recoveryFail p => okPart p
  | .bankQuiesceEnd p bank => okPart p && decide (bank < 128)
  | .bankIdle p bank => okPart p && decide (bank < 128)
  | .bankOffWait p bank => okPart p && decide (bank < 128)
  | .memoryPoison p m _ bank => okPart p && decide (m < 2) && decide (bank < 64)
  | .keyLoadAck p m => okPart p && decide (m < 2)
  | .scrubOrderDone p m errBank => okPart p && decide (m < 2) && errBank.all (fun b => decide (b < 64))
  | .linkTrainDone j _ _ => decide (j < 48)
  | .linkTrainTimeout j => decide (j < 48)
  | .linkDown j => decide (j < 48)
  | .linkErrorRecord j _ _ _ => decide (j < 48)
  | .selfTestDone p failEngines failControl => okPart p && failEngines.all (fun e => decide (e < 128)) && failControl.all (fun e => decide (e < 4))
  | .corefwRequest => true
  | .corefwDigest p _ => okPart p
  | .corefwFail p => okPart p
  | .partitionJoin p => okPart p
  | .probationEnd p => okPart p
  | .cairnArrival node _ => decide (node < 100)
  | .cairnHaltReport p => okPart p
  | .cairnCutTimeout => true
  | .scanoutPull _ recs => decide (recs.length ≤ 16) && recs.all (fun r => decide (r.length ≤ 256) && decide (r.length % 8 = 0))
  | .cairnResumeOrder p => okPart p
  | .counterTap p g _ => okPart p && decide (g < 20)
  | .pcSamplePulse p => okPart p
  | .pcSample p g _ => okPart p && decide (g < 20)
  | .pcSampleTimeout p g => okPart p && decide (g < 20)
  | .controlCoreTrace p i _ => okPart p && decide (i < 4)
  | .traceRecord _ p => okPart p
  | .traceDrained _ => true
  | .traceTimepair _ => true
  | .veinDropReport node => decide (node < 100)
  | .eventRecord p _ => okPart p
  | .strataWardenGap p => okPart p
  | .strataFreezeLimit => true
  | .strataTimeCompare => true
  | .bankPowerOn p bank => okPart p && decide (bank < 128)
  | .stretchAckChange p _ => okPart p
  | .droopInputClear p => okPart p
  | .powerFailWarnRelease _ => true
  | .peerHbToggle _ => true
  | .sntClkRestart p => okPart p
  | .wardenInteriorStop p => okPart p
  | .captureComplete _ => true
  | .captureGrant p _ => okPart p
  | .traceFrameSent _ lane => decide (lane < 4)
  | .eventAck p _ => okPart p
  | .mirrorAck _ => true
  | .debugSessionIdle => true
  | .failureReportAck p _ => okPart p
  | .traceLossRecordTick point => decide (point < 100)

end Sys2Proof
end

