-- ==== Sys2Proof/Safety.lean ====
section
/-! DEFINITION. What the statements are said in: when a run is as the spec asks, when a command completes, and what it answers. -/

namespace Sys2Proof.Machine
open Sys2Proof

/-! ### Kernel samples (chapter 7) -/

/-- The capture bytes of the sample a cell runs whose next instruction is `i`, its descriptor, its kernel state and its budget. -/
def kSample (s : State) (k : CellId) (i : Instr) : Option (KCtx × KState × Nat) :=
  (kRunning s k i).map (fun r =>
    ({ buf := capBytes r.1 r.2.1, desc := ((cellOf s (cellKey k.hub k.cell)).work).bind (·.desc), free := s.free }, r.2.2.1, r.2.2.2))

/-- `ks'` has spent `cost` more steps than `ks`, and is trapped with cause 1 where that reaches the budget (R171). -/
def KSpent (budget cost : Nat) (ks ks' : KState) : Prop :=
  ks'.steps = BitVec.ofNat 24 (min 16777215 (ks.steps.toNat + cost)) ∧
  ks'.status = (if budget ≤ ks'.steps.toNat then .trapped 1 else .running)

/-- The command completes wherever the cell runs a sample whose next instruction it is and that meets `pre`: the sample's state becomes one that has spent
`cost` and meets `post`, and nothing else changes but the count of open values read where `opens` says one was. -/
def KRan (i : Instr) (k : CellId) (cost : KState → Nat) (opens : Bool) (pre : KCtx → KState → Prop)
    (post : KCtx → KState → KState → Prop) : Prop :=
  ∀ s c ks budget, kSample s k i = some (c, ks, budget) → pre c ks →
    ∃ ks', exec i s = .next (ended s (kPut k ks' (if opens then { s with free := s.free + 1 } else s))) ∧
      KSpent budget (cost ks) ks ks' ∧ post c ks ks'

/-- The command ends the sample with a trap of Table 7.5, wherever the cell runs a sample whose next instruction it is and that meets `pre`: it changes
nothing else of the sample. -/
def KTraps (i : Instr) (k : CellId) (cause : Nat) (pre : KCtx → KState → Prop) : Prop :=
  ∀ s c ks budget, kSample s k i = some (c, ks, budget) → pre c ks →
    exec i s = .next (ended s (kPut k { ks with status := .trapped cause } s))

/-- No condition on the sample. -/
def kAny (_ : KCtx) (_ : KState) : Prop := True

/-- The findings and the lost count are as before. -/
def KFindSame (ks ks' : KState) : Prop := ks'.finds = ks.finds ∧ ks'.lost = ks.lost

def KXSame (ks ks' : KState) : Prop := ∀ r, xRead ks' r = xRead ks r
def KMSame (ks ks' : KState) : Prop := ∀ r, mRead ks' r = mRead ks r
def KVSame (ks ks' : KState) : Prop := ∀ r, vRead ks' r = vRead ks r

/-- No register, lane or finding changed. -/
def KQuiet (ks ks' : KState) : Prop := KXSame ks ks' ∧ KMSame ks ks' ∧ KVSame ks ks' ∧ ks'.lanes = ks.lanes ∧ KFindSame ks ks'

/-- X[d] reads `v`, or 0 where d is 0; no other register, lane or finding changed (Table 7.1). -/
def KSetX (d : BitVec 4) (v : BitVec 64) (ks ks' : KState) : Prop :=
  (∀ r, xRead ks' r = if r = 0 then 0 else if r = d then v else xRead ks r) ∧
  KMSame ks ks' ∧ KVSame ks ks' ∧ ks'.lanes = ks.lanes ∧ KFindSame ks ks'

/-- M[d] reads `v`; no other register, lane or finding changed. -/
def KSetM (d : BitVec 4) (v : MReg) (ks ks' : KState) : Prop :=
  (∀ r, mRead ks' r = if r = d then v else mRead ks r) ∧
  KXSame ks ks' ∧ KVSame ks ks' ∧ ks'.lanes = ks.lanes ∧ KFindSame ks ks'

/-- V[d] reads `v`; no other register, lane or finding changed. -/
def KSetV (d : BitVec 4) (v : BitVec 80) (ks ks' : KState) : Prop :=
  (∀ r, vRead ks' r = if r = d then v else vRead ks r) ∧
  KXSame ks ks' ∧ KMSame ks ks' ∧ ks'.lanes = ks.lanes ∧ KFindSame ks ks'

/-- The next instruction follows. -/
def KNextPc (ks ks' : KState) : Prop := ks'.pc = ks.pc + 1

/-- A value fits an M register: 640 bits in units of 2^-300. -/
def kFits (v : Int) : Prop := -(2 : Int) ^ 639 ≤ v ∧ v < (2 : Int) ^ 639

/-- The keys of a table rise. -/
def keysRise {α : Type} (t : Tab α) : Prop := t.Pairwise (fun e f => e.1 < f.1)

/-- The bits of all lanes added. -/
def laneBits (k : KState) : BitVec 640 := k.lanes.foldl (fun t l => t + l.2.val) 0

/-- What an element adds to a merged value: its units of 2^-300 where it is finite, nothing else (R168). -/
def termBits (x : Fl) : BitVec 640 := match x with | .fin _ _ => BitVec.ofInt 640 (wideUnits x.val) | _ => 0

/-- The findings after one more (R169): the store holds 64, further ones are counted up to 65,535. -/
def KFound (f : Finding) (ks ks' : KState) : Prop :=
  KXSame ks ks' ∧ KMSame ks ks' ∧ KVSame ks ks' ∧ ks'.lanes = ks.lanes ∧
  (if ks.finds.length < 64 then ks'.finds = ks.finds ++ [f] ∧ ks'.lost = ks.lost
   else ks'.finds = ks.finds ∧ ks'.lost = min 65535 (ks.lost + 1))

/-- The findings LSCAN records, in element order (Table 7.3, Table 7.4): code, address, value and limit. -/
def scanFindings (c : KCtx) (ty addr n : Nat) (lim : Fl) (imm : BitVec 32) : List Finding :=
  ((List.range n).filter (fun i => scanFails (elemAt c ty addr i) lim)).map (fun i =>
    Finding.mk (imm.setWidth 16) (BitVec.ofNat 32 (addr + tySize ty * i)) (f32Fl (elemAt c ty addr i)) (f32Fl lim))

/-- The cell a kernel instruction acts on. -/
def kernelCell (i : Instr) : Option CellId :=
  match i with
  | .nop k | .halt k | .jmp k _ | .bnz k _ _ | .blt k _ _ _ | .djnz k _ _ | .li k _ _ | .add k _ _ _ | .addi k _ _ _
  | .mul k _ _ _ | .ldx k _ _ _ _ | .lclr k | .lsum k _ _ _ | .lasum k _ _ _ | .lsqsum k _ _ _ | .ldot k _ _ _ _
  | .merge k _ | .lscan k _ _ _ _ _ _ | .mli k _ _ | .madd k _ _ _ | .msub k _ _ _ | .mabs k _ _ | .mtov k _ _ _
  | .vli k _ _ | .vld k _ _ _ _ | .vadd k _ _ _ _ | .vsub k _ _ _ _ | .vmul k _ _ _ _ | .vfx k _ _ | .vfn k _ _ _
  | .vgam k _ _ | .ckle k _ _ _ _ | .find k _ _ => some k
  | _ => none

/-! ### Command packets (chapter 17) -/

/-- The state in which a packet is interpreted: put in its slot and taken (R413, R414). -/
def took (row : CmdRow) (pk : Packet) (s : State) : State := take pk.queue.toNat (submit pk.queue.toNat row.op pk s)

/-- Who commands: the serving hub, the queue's role, the slot the packet stood in (R420). -/
def callerFor (row : CmdRow) (pk : Packet) (h : HubId) (s : State) : Caller :=
  callerOf h row.op pk (queueOf s pk.queue.toNat).tail (took row pk s)

/-- A packet whose turn it is at once: a hub serves, nothing else waits, a slot and room for the replies are free, and no earlier
command of the queue waits for its reply (R413 to R415). -/
structure Turn (pk : Packet) (h : HubId) (s : State) : Prop where
  serves : serving s = some h
  idle   : ∀ r, r < 8 → (queueOf s r).taken = (queueOf s r).tail
  slot   : ((queueOf s pk.queue.toNat).tail - (queueOf s pk.queue.toNat).head).toNat < 16
  room   : sqRoom s pk.queue.toNat = true
  unheld : heldIn s pk.queue.toNat = false
  unslow : slowIn s pk.queue.toNat = false

/-- A packet that is taken at once and that passes every check of Table 17.3 but the row's own: unless the row only reports, the
serving hub is not in PowerWarn; orders 1, 3 and 4 pass; its TAG is not that of an open command of the queue, of which there
are fewer than 8; no internal check fails. -/
structure Ready (row : CmdRow) (pk : Packet) (h : HubId) (s : State) : Prop extends Turn pk h s where
  power  : powerWarn s = false ∨ quiet row pk = true
  head   : headFault row pk (took row pk s) = none
  perm   : permitted row (callerFor row pk h s) (took row pk s) = true
  fresh  : s.cmd.opens.all (fun o => !decide (o.queue = pk.queue.toNat ∧ o.tag = pk.tag)) = true
  params : strayParam pk row.named = none
  opens  : openOf s pk.queue.toNat < 8
  sound  : pk.internal = false

/-- The packet is answered so: its answer is committed in the state in which it is interpreted. -/
def Answers (row : CmdRow) (c : Packet → Instr) (pk : Packet) (h : HubId) (s : State) (a : Ans) : Prop :=
  exec (c pk) s = .next (ended s (commit row (callerFor row pk h s) a (took row pk s)))

/-- Wherever the packet is ready and the row's condition holds of the state it is interpreted in, it is performed with this
answer. -/
def Performs (row : CmdRow) (c : Packet → Instr) (cond : Caller → State → Prop) (ans : Caller → State → Ans) : Prop :=
  ∀ pk h s, Ready row pk h s → cond (callerFor row pk h s) (took row pk s) →
    Answers row c pk h s (ans (callerFor row pk h s) (took row pk s))

/-- The same, for a row whose effect is followed in the same step by `f`: what began goes as far as it can at once. -/
def PerformsThen (f : State → State) (row : CmdRow) (c : Packet → Instr) (cond : Caller → State → Prop) (ans : Caller → State → Ans) : Prop :=
  ∀ pk h s, Ready row pk h s → cond (callerFor row pk h s) (took row pk s) →
    exec (c pk) s = .next (ended s (f (commit row (callerFor row pk h s) (ans (callerFor row pk h s) (took row pk s)) (took row pk s))))

/-- No condition of the row's own. -/
def always (_ : Caller) (_ : State) : Prop := True

/-- The reply that stands at a status count of a queue. -/
def replyAt (s : State) (q : Nat) (count : BitVec 16) : Option Reply := tfind (queueOf s q).replies (count.toNat % 64)

/-- An answer that performs the row: DONE, ACCEPTED, or both. -/
def ansGood (a : Ans) : Prop := match a with | .err _ _ _ => False | .errWith _ _ _ _ => False | _ => True

/-- The command packets whose effect is followed at once by the key unit (R349). -/
def keyPolled (i : Instr) : Bool :=
  match i with
  | .keyRotate _ | .keyUnwrap _ | .keyBind _ | .keyUnbind _ | .scrubTenant _ => true
  | _ => false

/-- The command is a packet of a row, and its step ends with its reply. -/
def PacketOf (i : Instr) (row : CmdRow) (pk : Packet) : Prop := rowOf i = some (row, pk) ∧ keyPolled i = false

/-- How a packet that is not performed is answered: its reply is the first reply to its slot, the debug idle limit restarts for the
classes TRACE and STOP (R363), and nothing else happens. -/
def Refuses (i : Instr) (row : CmdRow) (pk : Packet) (h : HubId) (s : State) (st eoff : Nat) : Prop :=
  exec i s = .next (ended s (postFirst h (queueOf s pk.queue.toNat).tail (replyOf (callerFor row pk h s) st true 0 eoff 0 [])
    (noteDebug row.op false (took row pk s))))

/-- The first piece of a loaded object, which is not its last: no load of the target stands, and it starts at 0 within the longest object (R425). -/
def firstPiece (op target lim : Nat) (c : Caller) (s : State) : Prop :=
  loadOf s op target = none ∧ parN c.pk 4 4 = 0 ∧ (payOf c.pk).length ≤ lim ∧ isLast c.pk = false

/-- The piece is kept for the queue that sent it. -/
def pieceKept (op target : Nat) (c : Caller) (s : State) : State :=
  let u := dropLoad op target s
  { u with cmd := { u.cmd with loads := u.cmd.loads ++ [Load.mk op target c.queue (payOf c.pk)] } }


/-! ### The register window (chapter 18) -/

/-- A write to one of the writable registers of a hub's window: the hub and the byte enables. -/
def writeRow (i : Instr) : Option (HubId × BitVec 8) :=
  match i with
  | .doorbell h _ _ strb => some (h, strb)
  | .sqHead h _ _ strb => some (h, strb)
  | .irqStat h _ strb => some (h, strb)
  | .irqTest h _ strb => some (h, strb)
  | .irqCfg h _ strb => some (h, strb)
  | .sntSel h _ strb => some (h, strb)
  | .strArea h _ strb => some (h, strb)
  | .strPos h _ strb => some (h, strb)
  | _ => none

/-- A register of the window whose fields are all read-only, a word of a read-only region, or an unmapped word: not queue memory, not one of the nine
writable registers (Tables 18.2 to 18.10). -/
def readOnlyWord (a : Nat) : Prop :=
  ¬ (0x20000 ≤ a ∧ a < 0xA2000) ∧ ¬ (0x1000 ≤ a ∧ a < 0x1200 ∧ (a % 64 = 0 ∨ a % 64 = 0x10)) ∧
  a ≠ 0x2000 ∧ a ≠ 0x2008 ∧ a ≠ 0x2010 ∧ a ≠ 0x2018 ∧ a ≠ 0x2108 ∧ a ≠ 0x3000 ∧ a ≠ 0x3008

/-- A request at a command port that is no write of one register: a read with an effect, a write by address or to queue memory. -/
def otherRequest (i : Instr) : Option HubId :=
  match i with
  | .queueMemoryWrite h _ _ _ _ _ => some h
  | .registerWrite h _ _ _ => some h
  | .strataWindowSnapshot h _ => some h
  | .hubPorterr h => some h
  | .trcLoss h => some h
  | _ => none

/-- The outputs of a command port are as its registers say (Table 2.3, R40, R41, R450). -/
def pinsRight (x : Hub) : Prop :=
  x.primaryPin = isServing x ∧ x.irqPin = (isServing x && decide (x.irqStat &&& x.irqMask ≠ 0)) ∧
  x.readyPin = (!x.rstLow && decide (x.reads.length < 16)) ∧ x.rvalidPin = decide (x.reads ≠ [])

/-- Nothing is left to settle: a hub that serves holds its quorum (R21), and no work kept due may begin (R472). -/
def settled (s : State) : Bool :=
  (match serving s with | some h => hasQuorum s h | none => true) && (decide (s.sync.due = []) || !mayBegin s)


/-! ### Events -/

/-- No trace trigger and no armed stop that an event could match (R381, R385). -/
def noMatch (s : State) : Prop := s.hubA.trace.evMatch = false ∧ s.hubB.trace.evMatch = false ∧ s.cairn.armed = false

/-- An event with the site a hub gives one that concerns no other (R398). -/
def sited (h : HubId) (e : Ev) : Ev := if e.site = 4294967296 then { e with site := hubSite h } else e

/-- How many records an event takes (R394, R395). -/
def recCount (e : Ev) : Nat := if needsPair e then 2 else 1

/-- What a start keeps and what it resets of a hub: its time, what its supply monitor recorded, its lockstep history and its non-volatile store, nothing of its
window; sys_rst_n is low (Table 2.12). -/
def hubReset (x y : Hub) : Prop :=
  y.role = .starting ∧ y.started = false ∧ y.time = x.time ∧ y.irqStat = 0 ∧ y.irqMask = 0 ∧ y.irqCls = 0x3FFFE ∧ y.irqSev = 3 ∧ y.portErr = 0 ∧
  y.hbeat = 0 ∧ y.leases = [] ∧ y.pwr = {} ∧ y.trace = {} ∧ y.railFell = x.railFell ∧ y.pfail = x.pfail ∧ y.pfailDone = x.pfailDone ∧ y.peerChain = x.peerChain ∧
  y.stale = x.stale ∧ y.mgmt = x.mgmt ∧ y.reads = [] ∧ y.snaps = [] ∧ y.rstLow = true


/-! ### Reports of a partition (chapters 4, 5) -/

/-- The state in which an original's verdict takes effect (R107, R110): its epoch's tally open, the core and the outstanding count noted, the tile marked
while its partition marks. -/
def atVerdict (p src e : Nat) (s : State) : State := markTile p (outUp p e (noteCore p e src (openTally p e s)))

/-- An original is heard and judged: its core reports, is not withdrawn, no tile of its name is pending, a tally is open or free, and no failure of an
execution before waits for it. -/
def originalHeard (s : State) (p g src e : Nat) (c : BitVec 128) : Prop :=
  hearsFrom s p g src = true ∧ tallyFull s p e = false ∧ isWithdrawn s p src = false ∧ tileHolder (war s p) e (certTid c) = none ∧ (war s p).firsts = []

/-- An engine record is heard: its kind and result are not reserved, a tally is open or free, and neither a triage nor a failure of an execution before waits for
it. -/
def recordHeard (s : State) (p e : Nat) (r : BitVec 128) : Prop :=
  hearsPart s p = true ∧ tallyFull s p e = false ∧ engKind r ≠ 0 ∧ engKind r ≤ 6 ∧ engRslt r ≤ 7 ∧ r.extractLsb' 96 16 = 0 ∧
  (war s p).firsts = [] ∧ (war s p).triages = []


/-! ### Swaps and offers (chapter 8) -/

/-- A yield of a core of a cluster with a spare can start a swap: the core is heard and holds a logical slot, no triage names it, work may begin, and the
warden's handshake is free. -/
def yieldHeard (s : State) (p src d : Nat) : Prop :=
  hearsCore s p src = true ∧ mayBegin s = true ∧ (war s p).swap = none ∧ inTriage (war s p) src = false ∧
  slotOfPos s p (src / 32) (src % 32) ≠ none ∧ spareOf s p (src / 32) = some d

/-- The state after a swap's acknowledgement, its handshake over: the slot moved to the former spare, which is in the state its partition's probation gives. -/
def afterSwap (p : Nat) (sw : Swap) (s : State) : State :=
  ownEntry p (coreSite p (srcOf sw.cluster sw.dst)) (if (war s p).probation then stProbation else stInService)
    (remapSlot p sw.cluster sw.src_ sw.dst (modW p (fun w => { w with swap := none }) s))

end Sys2Proof.Machine
end

