-- ==== Sys2Proof/Certificates/Slice0/Obligations.lean ====
section
/-! DEFINITION. The statements for the provers. -/

open Sys2Proof Sys2Proof.Machine

/-! ### Check kernels (chapter 7) -/

/-- Table 7.3, R163, R166, R167, R170, R171: control and X-register instructions complete, with their register result and their pc; HALT ends the
sample after one step, whatever the budget, and leaves its registers, lanes and findings. What the row does where another word stands at PC is the
model's choice (log entry 14). -/
def Obligations.KernelIntegers : Prop :=
  ∀ (k : CellId) (d a b : BitVec 4) (imm : BitVec 32),
    KRan (.nop k) k (fun _ => 1) false kAny (fun _ ks t => KQuiet ks t ∧ KNextPc ks t) ∧
    KRan (.jmp k imm) k (fun _ => 1) false kAny (fun _ ks t => KQuiet ks t ∧ t.pc = imm.setWidth 10) ∧
    KRan (.bnz k a imm) k (fun _ => 1) false kAny (fun _ ks t =>
      KQuiet ks t ∧ t.pc = if xRead ks a = 0 then ks.pc + 1 else imm.setWidth 10) ∧
    KRan (.blt k a b imm) k (fun _ => 1) false kAny (fun _ ks t =>
      KQuiet ks t ∧ t.pc = if (xRead ks a).toInt < (xRead ks b).toInt then imm.setWidth 10 else ks.pc + 1) ∧
    KRan (.djnz k d imm) k (fun _ => 1) false kAny (fun _ ks t =>
      KSetX d (xRead ks d - 1) ks t ∧ t.pc = if xRead ks d = 1 then ks.pc + 1 else imm.setWidth 10) ∧
    KRan (.li k d imm) k (fun _ => 1) false kAny (fun _ ks t => KSetX d (imm.signExtend 64) ks t ∧ KNextPc ks t) ∧
    KRan (.add k d a b) k (fun _ => 1) false kAny (fun _ ks t => KSetX d (xRead ks a + xRead ks b) ks t ∧ KNextPc ks t) ∧
    KRan (.addi k d a imm) k (fun _ => 1) false kAny (fun _ ks t =>
      KSetX d (xRead ks a + imm.signExtend 64) ks t ∧ KNextPc ks t) ∧
    KRan (.mul k d a b) k (fun _ => 1) false kAny (fun _ ks t => KSetX d (xRead ks a * xRead ks b) ks t ∧ KNextPc ks t) ∧
    (∀ s c ks budget, kSample s k (.halt k) = some (c, ks, budget) →
      ∃ t, exec (.halt k) s = .next (ended s (kPut k t s)) ∧ KQuiet ks t ∧ t.status = .halted ∧
        t.steps = BitVec.ofNat 24 (min 16777215 (ks.steps.toNat + 1)))

/-- R165: an aligned read inside the buffer puts the element, zero-extended, in X[D] or, as an extended value, in V[D]. -/
def Obligations.KernelLoads : Prop :=
  ∀ (k : CellId) (d a ty : BitVec 4) (imm : BitVec 32),
    (ty.toNat ≤ 3 → KRan (.ldx k d a ty imm) k (fun _ => 1) false
      (fun c ks => kReadable c (kAddr ks a imm) (2 ^ ty.toNat) 1 = true)
      (fun c ks t => KSetX d (BitVec.ofNat 64 (fieldAt c.buf (kAddr ks a imm) (2 ^ ty.toNat))) ks t ∧ KNextPc ks t)) ∧
    (ty.toNat ≤ 8 → KRan (.vld k d a ty imm) k (fun _ => 1) false
      (fun c ks => kReadable c (kAddr ks a imm) (tySize ty.toNat) 1 = true)
      (fun c ks t => KSetV d (extOf .nearest (elemAt c ty.toNat (kAddr ks a imm) 0)) ks t ∧ KNextPc ks t))

/-- R165, R171: a read that is misaligned or does not lie wholly in the buffer traps with cause 2; VGAM traps with cause 3 where the capture's
descriptor is not there or its bound is not. -/
def Obligations.KernelTraps : Prop :=
  ∀ (k : CellId) (d a b c' ty : BitVec 4) (imm : BitVec 32),
    (ty.toNat ≤ 3 → KTraps (.ldx k d a ty imm) k 2 (fun c ks => kReadable c (kAddr ks a imm) (2 ^ ty.toNat) 1 = false)) ∧
    (ty.toNat ≤ 8 →
      KTraps (.vld k d a ty imm) k 2 (fun c ks => kReadable c (kAddr ks a imm) (tySize ty.toNat) 1 = false) ∧
      KTraps (.lsum k a b ty) k 2 (fun c ks => xRead ks b ≠ 0 ∧
        kReadable c (xRead ks a).toNat (tySize ty.toNat) (xRead ks b).toNat = false) ∧
      KTraps (.lasum k a b ty) k 2 (fun c ks => xRead ks b ≠ 0 ∧
        kReadable c (xRead ks a).toNat (tySize ty.toNat) (xRead ks b).toNat = false) ∧
      KTraps (.lsqsum k a b ty) k 2 (fun c ks => xRead ks b ≠ 0 ∧
        kReadable c (xRead ks a).toNat (tySize ty.toNat) (xRead ks b).toNat = false) ∧
      KTraps (.ldot k a b c' ty) k 2 (fun c ks => xRead ks b ≠ 0 ∧
        (kReadable c (xRead ks a).toNat (tySize ty.toNat) (xRead ks b).toNat = false ∨
         kReadable c (xRead ks c').toNat (tySize ty.toNat) (xRead ks b).toNat = false)) ∧
      KTraps (.lscan k d a b c' ty imm) k 2 (fun c ks => xRead ks b ≠ 0 ∧
        kReadable c (xRead ks a).toNat (tySize ty.toNat) (xRead ks b).toNat = false)) ∧
    KTraps (.vgam k d a) k 3 (fun c ks => c.desc = none ∨
      (∃ ds, c.desc = some ds ∧ xRead ks a ≠ 0 ∧ boundG ds (xRead ks a).toNat = none))

/-- R167, R168: the lane instructions complete. LCLR clears the lanes; LSUM, LASUM, LSQSUM and LDOT over readable operands add the terms and leave X,
M, V and the findings; MERGE puts the sum of the lanes and their flags in M[D]. -/
def Obligations.KernelLanes : Prop :=
  ∀ (k : CellId) (d a b c' ty : BitVec 4),
    KRan (.lclr k) k (fun _ => 1) false kAny (fun _ ks t =>
      KXSame ks t ∧ KMSame ks t ∧ KVSame ks t ∧ KFindSame ks t ∧ laneBits t = 0 ∧ laneFlags t = {} ∧ KNextPc ks t) ∧
    (ty.toNat ≤ 8 →
      KRan (.lsum k a b ty) k (fun ks => laneSteps ty.toNat (xRead ks b).toNat) false
        (fun c ks => xRead ks b = 0 ∨ kReadable c (xRead ks a).toNat (tySize ty.toNat) (xRead ks b).toNat = true)
        (fun c ks t => KXSame ks t ∧ KMSame ks t ∧ KVSame ks t ∧ KFindSame ks t ∧ KNextPc ks t ∧
          t.lanes = (lanesAdd ty.toNat (xRead ks b).toNat (elemAt c ty.toNat (xRead ks a).toNat) ks).lanes) ∧
      KRan (.lasum k a b ty) k (fun ks => laneSteps ty.toNat (xRead ks b).toNat) false
        (fun c ks => xRead ks b = 0 ∨ kReadable c (xRead ks a).toNat (tySize ty.toNat) (xRead ks b).toNat = true)
        (fun c ks t => KXSame ks t ∧ KMSame ks t ∧ KVSame ks t ∧ KFindSame ks t ∧ KNextPc ks t ∧
          t.lanes = (lanesAdd ty.toNat (xRead ks b).toNat (fun i => flAbs (elemAt c ty.toNat (xRead ks a).toNat i)) ks).lanes) ∧
      KRan (.lsqsum k a b ty) k (fun ks => laneSteps ty.toNat (xRead ks b).toNat) false
        (fun c ks => xRead ks b = 0 ∨ kReadable c (xRead ks a).toNat (tySize ty.toNat) (xRead ks b).toNat = true)
        (fun c ks t => KXSame ks t ∧ KMSame ks t ∧ KVSame ks t ∧ KFindSame ks t ∧ KNextPc ks t ∧
          t.lanes = (lanesAdd ty.toNat (xRead ks b).toNat
            (fun i => flMul (elemAt c ty.toNat (xRead ks a).toNat i) (elemAt c ty.toNat (xRead ks a).toNat i)) ks).lanes) ∧
      KRan (.ldot k a b c' ty) k (fun ks => laneSteps ty.toNat (xRead ks b).toNat) false
        (fun c ks => xRead ks b = 0 ∨ (kReadable c (xRead ks a).toNat (tySize ty.toNat) (xRead ks b).toNat = true ∧
          kReadable c (xRead ks c').toNat (tySize ty.toNat) (xRead ks b).toNat = true))
        (fun c ks t => KXSame ks t ∧ KMSame ks t ∧ KVSame ks t ∧ KFindSame ks t ∧ KNextPc ks t ∧
          t.lanes = (lanesAdd ty.toNat (xRead ks b).toNat
            (fun i => flMul (elemAt c ty.toNat (xRead ks a).toNat i) (elemAt c ty.toNat (xRead ks c').toNat i)) ks).lanes)) ∧
    (d.toNat ≤ 3 → KRan (.merge k d) k (fun _ => 24) false (fun _ ks => kFits (laneTotal ks))
      (fun _ ks t => KSetM d { laneFlags ks with val := BitVec.ofInt 640 (laneTotal ks) } ks t ∧ KNextPc ks t))

/-- R140, R168: sums are exact, so the way elements are spread over the lanes never changes the merged bits: adding n terms adds the sum of what the
finite ones weigh. -/
def Obligations.LanesAddExactly : Prop :=
  ∀ (ty n : Nat) (term : Nat → Fl) (k : KState), keysRise k.lanes →
    keysRise (lanesAdd ty n term k).lanes ∧
    laneBits (lanesAdd ty n term k) = laneBits k + ((List.range n).map (fun i => termBits (term i))).foldl (· + ·) 0

/-- R167: the exact instructions on M registers complete, where the exact result fits 640 bits; MTOV rounds M[A] to V[D]. The charge and the word at
PC: log entry 14. -/
def Obligations.KernelExact : Prop :=
  ∀ (k : CellId) (d a b : BitVec 4) (imm : BitVec 32) (rnd : BitVec 2),
    (d.toNat ≤ 3 → KRan (.mli k d imm) k (fun _ => 1) false
      (fun _ _ => kFits ((imm.setWidth 24).toInt * 2 ^ ((imm.extractLsb' 24 8).toInt + 300).toNat))
      (fun _ ks t => KSetM d { val := BitVec.ofInt 640 ((imm.setWidth 24).toInt * 2 ^ ((imm.extractLsb' 24 8).toInt + 300).toNat) } ks t ∧
        KNextPc ks t)) ∧
    (d.toNat ≤ 3 → a.toNat ≤ 3 → b.toNat ≤ 3 →
      KRan (.madd k d a b) k (fun _ => 1) false (fun _ ks => kFits ((mRead ks a).val.toInt + (mRead ks b).val.toInt))
        (fun _ ks t => KSetM d
          { val := BitVec.ofInt 640 ((mRead ks a).val.toInt + (mRead ks b).val.toInt)
            pinf := (mRead ks a).pinf || (mRead ks b).pinf
            ninf := (mRead ks a).ninf || (mRead ks b).ninf
            nan := (mRead ks a).nan || (mRead ks b).nan } ks t ∧ KNextPc ks t) ∧
      KRan (.msub k d a b) k (fun _ => 1) false (fun _ ks => kFits ((mRead ks a).val.toInt - (mRead ks b).val.toInt))
        (fun _ ks t => KSetM d
          { val := BitVec.ofInt 640 ((mRead ks a).val.toInt - (mRead ks b).val.toInt)
            pinf := (mRead ks a).pinf || (mRead ks b).ninf
            ninf := (mRead ks a).ninf || (mRead ks b).pinf
            nan := (mRead ks a).nan || (mRead ks b).nan } ks t ∧ KNextPc ks t) ∧
      KRan (.mabs k d a) k (fun _ => 1) false (fun _ ks => kFits ((mRead ks a).val.toInt.natAbs : Int))
        (fun _ ks t => KSetM d
          { val := BitVec.ofInt 640 ((mRead ks a).val.toInt.natAbs : Int)
            pinf := (mRead ks a).pinf || (mRead ks a).ninf
            nan := (mRead ks a).nan } ks t ∧ KNextPc ks t)) ∧
    (a.toNat ≤ 3 → rnd ≠ 3 → KRan (.mtov k d a rnd) k (fun _ => 2) false kAny
      (fun _ ks t => KSetV d (extOf (rndOf rnd) (mVal (mRead ks a))) ks t ∧ KNextPc ks t))

/-- Where an exact result does not fit 640 bits, and for VGAM of no element, the manual gives no value: the instruction completes, and the register
holds the open value (the model's choice, log entries 4 and 14). -/
def Obligations.KernelExactOpen : Prop :=
  ∀ (k : CellId) (d a b : BitVec 4), d.toNat ≤ 3 → a.toNat ≤ 3 → b.toNat ≤ 3 →
    KRan (.madd k d a b) k (fun _ => 1) true (fun _ ks => ¬ kFits ((mRead ks a).val.toInt + (mRead ks b).val.toInt))
      (fun c ks t => (mRead t d).val = Config.freeWide c.free ∧ (∀ r, r ≠ d → mRead t r = mRead ks r) ∧ KNextPc ks t) ∧
    KRan (.msub k d a b) k (fun _ => 1) true (fun _ ks => ¬ kFits ((mRead ks a).val.toInt - (mRead ks b).val.toInt))
      (fun c ks t => (mRead t d).val = Config.freeWide c.free ∧ (∀ r, r ≠ d → mRead t r = mRead ks r) ∧ KNextPc ks t) ∧
    KRan (.mabs k d a) k (fun _ => 1) true (fun _ ks => ¬ kFits ((mRead ks a).val.toInt.natAbs : Int))
      (fun c ks t => (mRead t d).val = Config.freeWide c.free ∧ (∀ r, r ≠ d → mRead t r = mRead ks r) ∧ KNextPc ks t) ∧
    KRan (.merge k d) k (fun _ => 24) true (fun _ ks => ¬ kFits (laneTotal ks))
      (fun c ks t => (mRead t d).val = Config.freeWide c.free ∧ (∀ r, r ≠ d → mRead t r = mRead ks r) ∧ KNextPc ks t) ∧
    KRan (.vgam k d a) k (fun _ => 4) true (fun c ks => xRead ks a = 0 ∧ c.desc ≠ none)
      (fun c ks t => KSetV d ((Config.freeWide c.free).setWidth 80) ks t ∧ KNextPc ks t)

/-- R164, R167: the extended instructions complete with their result in V[D]. The unit's values are open within their bounds (log entry 8). -/
def Obligations.KernelExtended : Prop :=
  ∀ (k : CellId) (d a b : BitVec 4) (imm : BitVec 32) (rnd : BitVec 2),
    KRan (.vli k d imm) k (fun _ => 1) false kAny
      (fun _ ks t => KSetV d (extOf .nearest (decodeIeee 8 23 imm.toNat)) ks t ∧ KNextPc ks t) ∧
    (rnd ≠ 3 →
      KRan (.vadd k d a b rnd) k (fun _ => 1) false kAny
        (fun _ ks t => KSetV d (extAdd (rndOf rnd) (vRead ks a) (vRead ks b)) ks t ∧ KNextPc ks t) ∧
      KRan (.vsub k d a b rnd) k (fun _ => 1) false kAny
        (fun _ ks t => KSetV d (extAdd (rndOf rnd) (vRead ks a) (extNeg (vRead ks b))) ks t ∧ KNextPc ks t) ∧
      KRan (.vmul k d a b rnd) k (fun _ => 1) false kAny
        (fun _ ks t => KSetV d (extMul (rndOf rnd) (vRead ks a) (vRead ks b)) ks t ∧ KNextPc ks t)) ∧
    KRan (.vfx k d a) k (fun _ => 1) false kAny
      (fun _ ks t => KSetV d (extOfRat .nearest ((xRead ks a).toInt : Rat)) ks t ∧ KNextPc ks t) ∧
    (imm.toNat % 4 ≠ 3 → KRan (.vfn k d a imm) k (fun _ => 8) false kAny
      (fun _ ks t => KSetV d (if imm.toNat % 4 = 0 then extExp (vRead ks a) else if imm.toNat % 4 = 1 then extRecip (vRead ks a)
        else extSqrt (vRead ks a)) ks t ∧ KNextPc ks t)) ∧
    (∀ g, KRan (.vgam k d a) k (fun _ => 4) false
      (fun c ks => xRead ks a ≠ 0 ∧ ∃ ds, c.desc = some ds ∧ boundG ds (xRead ks a).toNat = some g)
      (fun _ ks t => KSetV d (extOf .up (.fin false g)) ks t ∧ KNextPc ks t))

/-- Table 7.3, R169: CKLE records a finding unless V[A] ≤ V[B]; FIND always records one; LSCAN puts the number of elements it fails in X[D] and
records a finding for each in order: the store holds 64, the rest are counted up to 65,535. -/
def Obligations.KernelFindings : Prop :=
  ∀ (k : CellId) (d a b c' ty : BitVec 4) (imm : BitVec 32),
    KRan (.ckle k a b c' imm) k (fun _ => 1) false (fun _ ks => extLe (extVal (vRead ks a)) (extVal (vRead ks b)) = true)
      (fun _ ks t => KQuiet ks t ∧ KNextPc ks t) ∧
    KRan (.ckle k a b c' imm) k (fun _ => 1) false (fun _ ks => extLe (extVal (vRead ks a)) (extVal (vRead ks b)) = false)
      (fun _ ks t => KFound (Finding.mk (imm.setWidth 16) ((xRead ks c').setWidth 32) (f32Fl (extVal (vRead ks a)))
        (f32Fl (extVal (vRead ks b)))) ks t ∧ KNextPc ks t) ∧
    KRan (.find k c' imm) k (fun _ => 1) false kAny
      (fun _ ks t => KFound (Finding.mk (imm.setWidth 16) ((xRead ks c').setWidth 32) 0 0) ks t ∧
        KNextPc ks t) ∧
    (ty.toNat ≤ 8 → KRan (.lscan k d a b c' ty imm) k (fun ks => laneSteps ty.toNat (xRead ks b).toNat) false
      (fun c ks => xRead ks b = 0 ∨ kReadable c (xRead ks a).toNat (tySize ty.toNat) (xRead ks b).toNat = true)
      (fun c ks t => KMSame ks t ∧ KVSame ks t ∧ t.lanes = ks.lanes ∧ KNextPc ks t ∧
        (∀ r, xRead t r = if r = 0 then 0 else if r = d then
          BitVec.ofNat 64 ((List.range (xRead ks b).toNat).countP
            (fun i => scanFails (elemAt c ty.toNat (xRead ks a).toNat i) (extVal (vRead ks c'))))
          else xRead ks r) ∧
        (ks.finds.length ≤ 64 → ks.lost ≤ 65535 →
          t.finds = (ks.finds ++ scanFindings c ty.toNat (xRead ks a).toNat (xRead ks b).toNat (extVal (vRead ks c')) imm).take 64 ∧
          t.lost = min 65535 (ks.lost + ((ks.finds ++
            scanFindings c ty.toNat (xRead ks a).toNat (xRead ks b).toNat (extVal (vRead ks c')) imm).length - 64)))))

/-- Whatever a kernel instruction does, it changes nothing outside the kernel state of the cell it runs on, but for the count of open values read: no
other cell, no capture, no queue, no warden, no hub register (R165: no instruction writes the operand buffer; R166: an instruction that the cell's
program counter does not read does nothing; R171: a trap never affects any other sample). -/
def Obligations.KernelFrame : Prop :=
  ∀ (i : Instr) (k : CellId), kernelCell i = some k → ∀ s t, exec i s = .next t →
    (∃ n, s.free ≤ n ∧ ∃ u, t = ended s { s with free := n, tst := u } ∧
      u = { s.tst with cells := u.cells } ∧
      ∀ j, j ≠ cellKey k.hub k.cell → tget {} u.cells j = tget {} s.tst.cells j) ∧
    (kRunning s k i = none → t = ended s s)

/-! ### Command packets by class (chapter 17) -/

/-- R430: HUB.NOP, HUB.QBIND, HUB.STATUS, HUB.PROFILE, HUB.DEBUG and HUB.COUNTERS complete with their results. Whose turn a packet is, and results
whose layout no table gives, are the model's choice (log entries 11, 28, 52, 55 and 95). -/
def Obligations.HubCommands : Prop :=
  Performs hubNopRow .hubNop always (fun c s => .done
    [BitVec.ofNat 8 c.role, BitVec.ofNat 8 c.tenant, BitVec.ofNat 8 c.queue, BitVec.ofNat 8 (roleCode (hubOf s c.hub).role)] [] 0 s) ∧
  Performs hubQbindRow .hubQbind
    (fun c s => 1 ≤ parB c.pk 0 ∧ parB c.pk 0 ≤ 7 ∧ parB c.pk 0 ≠ c.queue ∧
      (queueOf s (parB c.pk 0)).taken = (queueOf s (parB c.pk 0)).tail ∧ openOf s (parB c.pk 0) = 0 ∧ heldIn s (parB c.pk 0) = false)
    (fun c s => ansOk (modQueue (parB c.pk 0) (fun x => { x with bind := parB c.pk 1 }) s)) ∧
  (∀ pk h s, Ready hubStatusRow pk h s → ∃ pay, Answers hubStatusRow .hubStatus pk h s (.done [] pay 0 (took hubStatusRow pk s)) ∧
    pay.length = 64 ∧ fieldAt pay 0 1 = roleCode s.hubA.role ∧ fieldAt pay 1 1 = roleCode s.hubB.role ∧
    fieldAt pay 3 1 = s.boot.device % 256 ∧ fieldAt pay 6 1 = (if s.keys.dbg.isSome then 1 else 0) ∧
    fieldAt pay 24 8 = (hubOf s h).hbeat % 2 ^ 64) ∧
  Performs hubProfileRow .hubProfile (fun c s => parB c.pk 0 ≤ 3 ∧ parB c.pk 0 ≠ s.boot.profile.id)
    (fun c s => ansOk (setProfile (parB c.pk 0) 2 s)) ∧
  Performs hubDebugRow .hubDebug (fun c s => parB c.pk 0 = 0 ∧ s.keys.dbg = none)
    (fun c s => .done (leBytes 4 s.keys.nextSession) [] 0 (openDebug c.pk.tag.toNat s)) ∧
  Performs hubDebugRow .hubDebug (fun c s => parB c.pk 0 = 1 ∧ s.keys.dbg ≠ none) (fun _ s => ansOk (closeDebug 1 s)) ∧
  Performs hubDebugRow .hubDebug (fun c _ => parB c.pk 0 = 2) (fun _ s => .done [] (sessionList s) 0 s) ∧
  Performs hubCountersRow .hubCounters
    (fun c s => parB c.pk 0 ≤ 4 ∧ okSite s (parN c.pk 4 4) = true ∧
      (if parB c.pk 0 ≤ 1 then isClusterSite (parN c.pk 4 4) else isPartSite (parN c.pk 4 4)) = true ∧
      (if parB c.pk 0 = 1 then 1 ≤ parN c.pk 8 2 ∧ parN c.pk 8 2 ≤ 128 ∧ siteCluster (parN c.pk 4 4) + parN c.pk 8 2 ≤ 640
       else parN c.pk 8 2 = 0) ∧
      (c.role = 2 → tenantReads s c.tenant (sitePart (parN c.pk 4 4)) = true))
    (fun c s => .done [] (countersBytes s (parB c.pk 0) (parN c.pk 4 4) (parN c.pk 8 2)) 0 s)

/-- R431: SCREEN.REPORT, SHADOW.SET and SHADOW.GET complete: a floor is set for one cluster or for all of a partition. The order of the report's
fields and the rounding of shares are the model's choice (log entries 11, 28 and 62). -/
def Obligations.ScreenCommands : Prop :=
  Performs screenReportRow .screenReport (fun c _ => parB c.pk 0 ≤ 97)
    (fun c s => .done [] (screenDevice s ++ screenPart s (parB c.pk 0)) 0 s) ∧
  Performs screenReportRow .screenReport (fun c _ => parB c.pk 0 = 0xFF) (fun _ s => .done [] (screenDevice s) 0 s) ∧
  Performs shadowSetRow .shadowSet
    (fun c s => okSite s (parN c.pk 0 4) = true ∧ isClusterSite (parN c.pk 0 4) = true ∧ isPartSite (parN c.pk 0 4) = false ∧
      parB c.pk 4 ≤ 32)
    (fun c s =>
      let k := clusterKey (sitePart (parN c.pk 0 4)) (siteCluster (parN c.pk 0 4))
      ansOk { s with gov := { s.gov with floors := tput 0 s.gov.floors k (parB c.pk 4) } }) ∧
  Performs shadowSetRow .shadowSet
    (fun c s => okSite s (parN c.pk 0 4) = true ∧ isPartSite (parN c.pk 0 4) = true ∧ parB c.pk 4 ≤ 32)
    (fun c s => ansOk (forEach (List.range 640) (fun k s =>
      { s with gov := { s.gov with floors := tput 0 s.gov.floors (clusterKey (sitePart (parN c.pk 0 4)) k) (parB c.pk 4) } }) s)) ∧
  Performs shadowGetRow .shadowGet
    (fun c s => okSite s (parN c.pk 0 4) = true ∧ isClusterSite (parN c.pk 0 4) = true ∧ 1 ≤ parN c.pk 4 2 ∧ parN c.pk 4 2 ≤ 640 ∧
      siteCluster (parN c.pk 0 4) + parN c.pk 4 2 ≤ 640)
    (fun c s => .done [] ((List.range (parN c.pk 4 2)).flatMap (fun i =>
      let p := sitePart (parN c.pk 0 4)
      let k := siteCluster (parN c.pk 0 4) + i
      leBytes 1 (fracSteps s p k) ++ leBytes 1 (tget 0 s.gov.floors (clusterKey p k)) ++ leBytes 1 (fracOf s (clusterKey p k)) ++
      leBytes 1 (min 255 (tget 0 s.gov.same (clusterKey p k))))) 0 s)

/-- R432: the TSTONE commands complete: a descriptor is set or removed, the audit share set, a kernel loaded piece by piece, unloaded, attached and
detached, a kept result returned. Whose turn a packet is, and results whose layout no table gives, are the model's choice (log entries 11 and 28). -/
def Obligations.TouchstoneCommands : Prop :=
  Performs tstoneDescRow .tstoneDesc
    (fun c s => parN c.pk 0 2 < 4096 ∧ (c.role = 2 → ownsJob c s (parN c.pk 0 2) = true) ∧ parB c.pk 3 = 1)
    (fun c s => ansOk (modTst (fun t => { t with descs := tdel t.descs (descKey (parN c.pk 0 2) (parB c.pk 2)) }) s)) ∧
  (∀ d, Performs tstoneDescRow .tstoneDesc
    (fun c s => parN c.pk 0 2 < 4096 ∧ (c.role = 2 → ownsJob c s (parN c.pk 0 2) = true) ∧ parB c.pk 3 = 0 ∧
      parseDesc (payOf c.pk) = some d ∧ s.tst.descs.length < 8192)
    (fun c s => ansOk (modTst (fun t => { t with descs := tset t.descs (descKey (parN c.pk 0 2) (parB c.pk 2)) d }) s))) ∧
  Performs tstoneShareRow .tstoneShare (fun c _ => parB c.pk 0 ≤ 8)
    (fun c s => ansOk (modTst (fun t => { t with share := some (parB c.pk 0) }) s)) ∧
  Performs tstoneShareRow .tstoneShare (fun c _ => parB c.pk 0 = 0xFF)
    (fun _ s => ansOk (modTst (fun t => { t with share := none }) s)) ∧
  Performs tstoneReportRow .tstoneReport always
    (fun _ s => .done [] (tstoneHubReport s .a ++ tstoneHubReport s .b ++
      (tenantQuanta s).flatMap (fun e => leBytes 4 e.1 ++ leBytes 8 e.2)) 0 s) ∧
  (∀ k, Performs tstoneKloadRow .tstoneKload
    (fun c s => parB c.pk 0 < 64 ∧ tfind s.tst.kernels (parB c.pk 0) = none ∧ loadOf s 0x0410 (parB c.pk 0) = none ∧
      parN c.pk 4 4 = 0 ∧ (payOf c.pk).length ≤ 10464 ∧ isLast c.pk = true ∧
      checkImage (dropLoad 0x0410 (parB c.pk 0) s) c.tenant (payOf c.pk) = .inl k)
    (fun c s => ansOk (modTst (fun t => { t with kernels := tset t.kernels (parB c.pk 0) k }) (dropLoad 0x0410 (parB c.pk 0) s)))) ∧
  Performs tstoneKloadRow .tstoneKload
    (fun c s => parB c.pk 0 < 64 ∧ tfind s.tst.kernels (parB c.pk 0) = none ∧ firstPiece 0x0410 (parB c.pk 0) 10464 c s)
    (fun c s => ansOk (pieceKept 0x0410 (parB c.pk 0) c s)) ∧
  Performs tstoneKunloadRow .tstoneKunload
    (fun c s => parB c.pk 0 < 64 ∧ ∃ k, tfind s.tst.kernels (parB c.pk 0) = some k ∧ (c.role = 2 → k.tenant = c.tenant))
    (fun c s => .both [] (unloadKernel (parB c.pk 0) s)) ∧
  (∀ i, Performs tstoneKattachRow .tstoneKattach
    (fun c s => parB c.pk 0 < 64 ∧ parN c.pk 2 2 < 4096 ∧
      (∃ k, tfind s.tst.kernels (parB c.pk 0) = some k ∧ k.tenant = c.tenant) ∧ ownsJob c s (parN c.pk 2 2) = true ∧
      parB c.pk 4 ∈ [0, 1, 2, 5] ∧ parB c.pk 5 ≤ 16 ∧ parB c.pk 6 = 1 ∧
      (s.tst.attaches.filter (fun a => a.2.slot = parB c.pk 0)).length < 8 ∧
      firstKey (fun i => (tfind s.tst.attaches i).isNone) 0 128 = some i)
    (fun c s =>
      let a := Attach.mk (parB c.pk 0) c.tenant (parN c.pk 2 2) (parB c.pk 4) (parB c.pk 5) (some (parB c.pk 7)) 0
      .done (leBytes 1 i) [] 0 (modTst (fun t => { t with attaches := tset t.attaches i a }) s))) ∧
  Performs tstoneKdetachRow .tstoneKdetach
    (fun c s => parB c.pk 0 < 128 ∧ ∃ a, tfind s.tst.attaches (parB c.pk 0) = some a ∧ (c.role = 2 → a.tenant = c.tenant))
    (fun c s => ansOk (dropAttach (parB c.pk 0) s)) ∧
  (∀ r, Performs tstoneKresultRow .tstoneKresult
    (fun c s => s.tst.results.find? (fun r => r.cid = parN c.pk 0 4) = some r ∧ (c.role = 2 → r.tenant = c.tenant))
    (fun _ s => .done [] (kresultBytes r) 0 s))

/-- R433, R434: the TEST and QUARRY commands complete: D is set for the next governor period, tests become urgent, a yield is declared, a bundle is imported in pieces, a pattern
exported, the index listed, a pattern retired. Where a pattern goes and how a free entry lists are the model's choice (log entries 11, 28, 104 and
105). -/
def Obligations.TestCommands : Prop :=
  Performs testSetRow .testSet (fun c _ => 5 ≤ parB c.pk 0 ∧ parB c.pk 0 ≤ 120)
    (fun c s => ansOk { s with test := { s.test with dNext := parB c.pk 0 } }) ∧
  Performs testRunRow .testRun
    (fun c s => okSite s (parN c.pk 0 4) = true ∧ coreOrCluster (parN c.pk 0 4) = true ∧ isCoreSite (parN c.pk 0 4) = true)
    (fun c s => ansOk (makeUrgent (sitePart (parN c.pk 0 4)) (siteSrc (parN c.pk 0 4)) s)) ∧
  Performs testRunRow .testRun
    (fun c s => okSite s (parN c.pk 0 4) = true ∧ coreOrCluster (parN c.pk 0 4) = true ∧ isCoreSite (parN c.pk 0 4) = false)
    (fun c s => ansOk (forEach (List.range 17) (fun i s =>
      makeUrgent (sitePart (parN c.pk 0 4)) (srcOf (siteCluster (parN c.pk 0 4)) i) s) s)) ∧
  Performs testStatusRow .testStatus (fun c s => okSite s (parN c.pk 0 4) = true ∧ isClusterSite (parN c.pk 0 4) = true)
    (fun c s =>
      let k := cluOf s (sitePart (parN c.pk 0 4)) (siteCluster (parN c.pk 0 4))
      .done [] (leBytes 1 k.rot ++ leBytes 1 (k.cand.getD 0xFF) ++ leBytes 14 0 ++
        (List.range 17).flatMap (posBytes s (sitePart (parN c.pk 0 4)) (siteCluster (parN c.pk 0 4)))) 0 s) ∧
  Performs testYieldRow .testYield
    (fun c _ => parN c.pk 0 2 < 4096 ∧ (parN c.pk 4 4 ≤ 3600000 ∨ parN c.pk 4 4 = 0xFFFFFFFF))
    (fun c s => ansOk { s with test := { s.test with yields := tput 0 s.test.yields (parN c.pk 0 2) (parN c.pk 4 4) } }) ∧
  Performs quarryImportRow .quarryImport
    (firstPiece 0x0601 0 20640) (fun c s => ansOk (pieceKept 0x0601 0 c s)) ∧
  (∀ i x, Performs quarryExportRow .quarryExport
    (fun c s => patFind s (BitVec.ofNat 64 (parN c.pk 0 8)) (BitVec.ofNat 32 (parN c.pk 8 4)) = some (i, x) ∧ x.state = 2 ∧ x.source = 1 ∧
      holdsChain s c.hub (BitVec.ofNat 64 (parN c.pk 0 8)) = true)
    (fun c s => .done (leBytes 4 (bundleBody x.image x.chain ++ x.sig).length) [] 0
      (irqBit c.hub 16 (modHub c.hub (fun k => { k with
        expData := bundleBody x.image x.chain ++ x.sig, expOrigin := BitVec.ofNat 64 (parN c.pk 0 8)
        expSeq := BitVec.ofNat 32 (parN c.pk 8 4), expGen := k.expGen + 1 }) s)))) ∧
  Performs quarryListRow .quarryList (fun c _ => parN c.pk 0 2 < 4096 ∧ 1 ≤ parB c.pk 2 ∧ parB c.pk 2 ≤ 200)
    (fun c s => .done [] ((List.range (min (parB c.pk 2) (4096 - parN c.pk 0 2))).flatMap
      (fun k => indexBytes (tfind s.quarry.index (parN c.pk 0 2 + k)))) 0 s) ∧
  Performs quarryRetireRow .quarryRetire
    (fun c s => ∃ i x, patFind s (BitVec.ofNat 64 (parN c.pk 0 8)) (BitVec.ofNat 32 (parN c.pk 8 4)) = some (i, x) ∧ x.source ≠ 0)
    (fun c s =>
      let o := BitVec.ofNat 64 (parN c.pk 0 8)
      let q := BitVec.ofNat 32 (parN c.pk 8 4)
      let hs := s.quarry.harvests.filter (fun h => !(h.origin = o && h.seq = q))
      ansOk (dropPattern o q { s with quarry := { s.quarry with harvests := hs } }))

/-- R435: the QUAR commands complete: entries are listed, the state of sites given, a core withdrawn at once where its cluster has no spare for it, a
restore test begun. Statuses that no list gives are the model's choice (log entries 11, 20, 29 and 30). -/
def Obligations.QuarantineCommands : Prop :=
  Performs quarListRow .quarList (fun c _ => parN c.pk 0 2 < 32768 ∧ 1 ≤ parN c.pk 2 2 ∧ parN c.pk 2 2 ≤ 400)
    (fun c s =>
      let l := s.defects.tab.filter (fun e => decide (parN c.pk 0 2 ≤ e.1))
      .done (leBytes 2 (match (l.drop (parN c.pk 2 2)).head? with | some e => e.1 | none => 32768) ++ leBytes 2 s.defects.tab.length)
        ((l.take (parN c.pk 2 2)).flatMap (fun e => leBytes 8 e.2.toNat)) 0 s) ∧
  Performs quarStateRow .quarState
    (fun c s => 1 ≤ parN c.pk 0 2 ∧ parN c.pk 0 2 ≤ 256 ∧
      (List.range (parN c.pk 0 2)).find? (fun i => !okSite s (fieldAt (payOf c.pk) (4 * i) 4)) = none)
    (fun c s => .done [] ((List.range (parN c.pk 0 2)).flatMap (fun i => siteStatus s (fieldAt (payOf c.pk) (4 * i) 4))) 0 s) ∧
  Performs quarSetRow .quarSet
    (fun c s => okSite s (parN c.pk 0 4) = true ∧ isHubSite (parN c.pk 0 4) = false ∧ (parB c.pk 4 = 4 ∨ parB c.pk 4 = 5) ∧
      defState? s (siteKey (parN c.pk 0 4)) = some (parB c.pk 4))
    (fun _ s => ansOk s) ∧
  Performs quarSetRow .quarSet
    (fun c s => okSite s (parN c.pk 0 4) = true ∧ isHubSite (parN c.pk 0 4) = false ∧ (parB c.pk 4 = 4 ∨ parB c.pk 4 = 5) ∧
      defState? s (siteKey (parN c.pk 0 4)) = none ∧ isCoreSite (siteKey (parN c.pk 0 4)) = true ∧
      (coreOf s (sitePart (siteKey (parN c.pk 0 4))) (siteSrc (siteKey (parN c.pk 0 4)))).quarSet = none ∧
      (slotOfPos s (sitePart (siteKey (parN c.pk 0 4))) (siteSrc (siteKey (parN c.pk 0 4)) / 32)
        (siteSrc (siteKey (parN c.pk 0 4)) % 32)) = none)
    (fun c s => ansOk (withdrawCore (sitePart (siteKey (parN c.pk 0 4))) (siteSrc (siteKey (parN c.pk 0 4))) 0x3FF 12 6 (parB c.pk 4) s)) ∧
  (∀ i e, Performs quarRestoreRow .quarRestore
    (fun c s => okSite s (parN c.pk 0 4) = true ∧ defFind s (siteKey (parN c.pk 0 4)) = some (i, e) ∧
      noRestore (siteKey (parN c.pk 0 4)) (defKind e) (defSt e) = false ∧ isCoreSite (siteKey (parN c.pk 0 4)) = true ∧
      (coreOf s (sitePart (siteKey (parN c.pk 0 4))) (siteSrc (siteKey (parN c.pk 0 4)))).test = none ∧
      harvesting s (sitePart (siteKey (parN c.pk 0 4))) (siteSrc (siteKey (parN c.pk 0 4))) = false ∧
      isOpen 0x0704 (siteKey (parN c.pk 0 4)) s = false ∧ partInService s (sitePart (siteKey (parN c.pk 0 4))) = true)
    (fun c s => .opened (siteKey (parN c.pk 0 4)) 0
      (startTest (sitePart (siteKey (parN c.pk 0 4))) (siteSrc (siteKey (parN c.pk 0 4))) 3 s)))

/-- R238 to R244, R251, R252: the SYNC commands complete: the lowest free object is taken, a barrier is armed, an object freed, a semaphore counts and
saturates, a flag releases its waiters, a semaphore is taken from, records are read, a job ends. The object that is taken, and a range past object
32,767, are the model's choice (log entries 11, 107 and 134). -/
def Obligations.SyncCommands : Prop :=
  (∀ o, Performs syncAllocRow .syncAlloc
    (fun c s => c.role = 1 ∧ 1 ≤ parB c.pk 0 ∧ parB c.pk 0 ≤ 3 ∧ parN c.pk 2 2 < 4096 ∧
      firstKey (fun i => decide ((objOf s i).state = 0)) 0 32768 = some o ∧ tfind s.sync.jobs (parN c.pk 2 2) = none)
    (fun c s =>
      let s1 := modObj o (fun _ => { type := parB c.pk 0, state := 1, tenant := parB c.pk 4, job := parN c.pk 2 2 }) s
      .done (leBytes 2 o) [] 0 { s1 with sync := { s1.sync with jobs := tset s1.sync.jobs (parN c.pk 2 2) (parB c.pk 4) } })) ∧
  Performs syncArmRow .syncArm
    (fun c s => parN c.pk 0 2 < 32768 ∧ (c.role = 2 → (objOf s (parN c.pk 0 2)).tenant = c.tenant) ∧ (objOf s (parN c.pk 0 2)).type = 1 ∧
      (objOf s (parN c.pk 0 2)).state = 1 ∧ parN c.pk 4 4 ≤ parN c.pk 8 4 ∧ fieldAt (payOf c.pk) 0 16 < 2 ^ 98 ∧
      1 ≤ (parts.map (armCount (payOf c.pk))).sum ∧ (parts.map (armCount (payOf c.pk))).sum ≤ 1003912 ∧
      rangeMeets s (parN c.pk 0 2) (parN c.pk 4 4) (parN c.pk 8 4) = false ∧
      (∀ p ∈ parts, armCount (payOf c.pk) p = 0 ∨ partInService s p = true))
    (fun c s => ansOk (armBarrier (parN c.pk 0 2) (parN c.pk 4 4) (parN c.pk 8 4) (fieldAt (payOf c.pk) 0 16) (payOf c.pk) s)) ∧
  Performs syncFreeRow .syncFree
    (fun c s => parN c.pk 0 2 < 32768 ∧ (c.role = 2 → (objOf s (parN c.pk 0 2)).tenant = c.tenant) ∧ (objOf s (parN c.pk 0 2)).type ≠ 0 ∧
      ((objOf s (parN c.pk 0 2)).type = 1 → (objOf s (parN c.pk 0 2)).state = 1 ∨ (objOf s (parN c.pk 0 2)).state = 4))
    (fun c s => ansOk (freeObj (parN c.pk 0 2) s)) ∧
  Performs syncSignalRow .syncSignal
    (fun c s => parN c.pk 0 2 < 32768 ∧ (c.role = 2 → (objOf s (parN c.pk 0 2)).tenant = c.tenant) ∧ (objOf s (parN c.pk 0 2)).type = 2 ∧
      (objOf s (parN c.pk 0 2)).state ≠ 4 ∧ (objOf s (parN c.pk 0 2)).count + parN c.pk 4 4 ≤ 4294967295)
    (fun c s => ansOk (writeCount (parN c.pk 0 2) ((objOf s (parN c.pk 0 2)).count + parN c.pk 4 4) s)) ∧
  Performs syncSignalRow .syncSignal
    (fun c s => parN c.pk 0 2 < 32768 ∧ (c.role = 2 → (objOf s (parN c.pk 0 2)).tenant = c.tenant) ∧ (objOf s (parN c.pk 0 2)).type = 2 ∧
      (objOf s (parN c.pk 0 2)).state ≠ 4 ∧ 4294967295 < (objOf s (parN c.pk 0 2)).count + parN c.pk 4 4)
    (fun c s => ansOk (semSaturated (parN c.pk 0 2) (writeCount (parN c.pk 0 2) 4294967295 s))) ∧
  Performs syncSignalRow .syncSignal
    (fun c s => parN c.pk 0 2 < 32768 ∧ (c.role = 2 → (objOf s (parN c.pk 0 2)).tenant = c.tenant) ∧ (objOf s (parN c.pk 0 2)).type = 3 ∧
      (objOf s (parN c.pk 0 2)).state ≠ 4 ∧ parN c.pk 4 4 ≠ 0)
    (fun c s => ansOk (releaseFlag (parN c.pk 0 2) (writeCount (parN c.pk 0 2) (parN c.pk 4 4) s))) ∧
  Performs syncTakeRow .syncTake
    (fun c s => parN c.pk 0 2 < 32768 ∧ (c.role = 2 → (objOf s (parN c.pk 0 2)).tenant = c.tenant) ∧ (objOf s (parN c.pk 0 2)).type = 2 ∧
      (objOf s (parN c.pk 0 2)).state ≠ 4 ∧ 1 ≤ parN c.pk 4 4 ∧ parN c.pk 4 4 ≤ (objOf s (parN c.pk 0 2)).count)
    (fun c s => ansOk (writeCount (parN c.pk 0 2) ((objOf s (parN c.pk 0 2)).count - parN c.pk 4 4) s)) ∧
  (∀ o n s, objOf (writeCount o n s) o = { objOf s o with count := n, epoch := ((objOf s o).epoch + 1) % 4294967296 }) ∧
  Performs syncQueryRow .syncQuery
    (fun c _ => c.role ≠ 2 ∧ parN c.pk 0 2 < 32768 ∧ 1 ≤ parB c.pk 2 ∧ parB c.pk 2 ≤ 60)
    (fun c s => .done [] ((List.range (min (parB c.pk 2) (32768 - parN c.pk 0 2))).flatMap
      (fun i => objBytes (objOf s (parN c.pk 0 2 + i)))) 0 s) ∧
  Performs syncJobendRow .syncJobend (fun c s => ownsJob c s (parN c.pk 0 2 % 4096) = true ∧ parN c.pk 0 2 < 4096)
    (fun c s => .both [] (jobEnd (parN c.pk 0 2) s))

/-- R436: the FENCE commands complete: a partition's and a core's or cluster's reset is ordered, a wafer reset, a detour acknowledged, the state of
every partition reported, the device restored. When a core's reset is answered, what FENCE.RESTORE keeps, and the layout of a state report, are the
model's choice (log entries 11, 28, 96 and 99). -/
def Obligations.FenceCommands : Prop :=
  Performs fenceResetRow .fenceReset
    (fun c s => (parB c.pk 4 = 2 ∨ parB c.pk 4 = 3) ∧ okSite s (parN c.pk 0 4) = true ∧ levelSite (parB c.pk 4) (parN c.pk 0 4) = true ∧
      partBarred s (sitePart (parN c.pk 0 4)) = false ∧ (isForce c.pk = true ∨ jobsOn s (sitePart (parN c.pk 0 4)) = []) ∧
      inReset s (parB c.pk 4) (parN c.pk 0 4) = false ∧ (resetOf s (sitePart (parN c.pk 0 4))).barred = false)
    (fun c s => .opened (partSite (sitePart (parN c.pk 0 4))) (jobsOn s (sitePart (parN c.pk 0 4))).length
      (beginLarge c (parB c.pk 4) (sitePart (parN c.pk 0 4)) (jobsOn s (sitePart (parN c.pk 0 4))) s)) ∧
  Performs fenceResetRow .fenceReset
    (fun c s => parB c.pk 4 ≤ 1 ∧ okSite s (parN c.pk 0 4) = true ∧ levelSite (parB c.pk 4) (parN c.pk 0 4) = true ∧
      (isForce c.pk = true ∨ domainEpochs s (parN c.pk 0 4) = []) ∧ partInService s (sitePart (parN c.pk 0 4)) = true ∧
      inReset s (parB c.pk 4) (parN c.pk 0 4) = false)
    (fun c s => .done (leBytes 2 (epochJobs s (domainEpochs s (parN c.pk 0 4))).length ++ leBytes 6 0) [] 0
      (beginSmall c (parB c.pk 4) (parN c.pk 0 4) (epochJobs s (domainEpochs s (parN c.pk 0 4))) s)) ∧
  Performs fenceResetRow .fenceReset
    (fun c s => parB c.pk 4 = 4 ∧ parN c.pk 0 4 = 0 ∧ s.boot.wafReset = 0 ∧ parts.any (fun p => (war s p).alive) = true)
    (fun c s => .opened waferKey (liveJobs s (fun _ => true)).length (beginWafer c (liveJobs s (fun _ => true)) s)) ∧
  Performs fenceDetourRow .fenceDetour (fun c s => parB c.pk 0 ∈ s.boot.detour)
    (fun c s => ansOk (beginWaiting (parB c.pk 0) { s with boot := { s.boot with detour := s.boot.detour.filter (· ≠ parB c.pk 0) } })) ∧
  Performs fenceStatusRow .fenceStatus always
    (fun _ s => .done [] (parts.flatMap (fun p =>
        leBytes 1 (reported s (partSite p)) ++ leBytes 1 (if (war s p).reset.bringup then 0xFF else ((war s p).reset.done.map (·.1)).getD ((war s p).reset.level.getD 0xFF)) ++
        leBytes 1 (if (war s p).reset.bringup then 0 else if (war s p).reset.done.isSome then 6 else (war s p).reset.step) ++ leBytes 1 (wardenLive (war s p)) ++ leBytes 4 0 ++
        stampBytes (war s p).stamps) ++
      leBytes 1 (roleCode s.hubA.role) ++ leBytes 1 (roleCode s.hubB.role) ++ leBytes 6 0 ++ stampBytes s.boot.wafers) 0 s) ∧
  Performs fenceRestoreRow .fenceRestore (fun _ s => s.boot.device = 1)
    (fun c s => ansOk (restoreStart (commitDefects (raise (ev evDeviceRestored [(2, c.pk.tag.toNat)]) s))))

/-- R437, R453: the BOOT and LINK commands complete: a core firmware manifest is accepted, partitions that wait are checked, the start reported, a
hub's other firmware slot written, a link trained, the links reported. The slot that is written, and statuses of LINK.TRAIN, are the model's choice
(log entries 11, 25, 26 and 28). -/
def Obligations.BootCommands : Prop :=
  Performs bootCorefwRow .bootCorefw
    (fun c s => loadOf s 0x0A01 0 = none ∧ parN c.pk 4 4 = 0 ∧ (payOf c.pk).length ≤ 4324 ∧ isLast c.pk = true ∧
      manifestFault 1 (payOf c.pk) = 0 ∧ fieldAt (payOf c.pk) 12 2 = s.quarry.stepping)
    (fun c s =>
      let u := dropLoad 0x0A01 0 s
      let m := Manifest.mk (fieldAt (payOf c.pk) 8 4) (fieldAt (payOf c.pk) 12 2) (fieldAt (payOf c.pk) 16 4) (fieldAt (payOf c.pk) 20 4)
        (manifestDigest (payOf c.pk))
      ansOk (firmwareAll { u with boot := { u.boot with manifest := some m } })) ∧
  Performs bootCorefwRow .bootCorefw (firstPiece 0x0A01 0 4324) (fun c s => ansOk (pieceKept 0x0A01 0 c s)) ∧
  Performs bootCheckRow .bootCheck (fun c _ => maskStray c.pk 0 = none)
    (fun c s =>
      let ps := maskParts (parN c.pk 0 16)
      .done (leBytes 16 (partsMask (ps.filter (fun p => !waitsCheck s p))).toNat) [] 0
        (forEach (ps.filter (waitsCheck s))
          (fun p s => imageOrder p (modReset p (fun r => { r with fwCheck := true }) s)) s)) ∧
  (∀ pk h s, Ready bootStatusRow pk h s → ∃ pay, Answers bootStatusRow .bootStatus pk h s (.done [] pay 0 (took bootStatusRow pk s)) ∧
    fieldAt pay 0 1 = (hubOf s h).kind % 256 ∧ fieldAt pay 2 1 = s.hubA.fwSlot % 256 ∧ fieldAt pay 3 1 = s.hubB.fwSlot % 256) ∧
  Performs bootFwloadRow .bootFwload (firstPiece 0x0A04 0 1048576) (fun c s => ansOk (pieceKept 0x0A04 0 c s)) ∧
  Performs bootFwloadRow .bootFwload
    (fun c s => loadOf s 0x0A04 0 = none ∧ parN c.pk 4 4 = 0 ∧ (payOf c.pk).length ≤ 1048576 ∧ isLast c.pk = true ∧
      manifestFault 0 (payOf c.pk) = 0 ∧ Config.sha384 ((payOf c.pk).drop (manifestLen (payOf c.pk))) = manifestDigest (payOf c.pk))
    (fun c s =>
      let u := dropLoad 0x0A04 0 s
      let put := fun (g : HubId) => modHub g (fun x => { x with fwImg := tset x.fwImg (1 - x.fwSlot) (payOf c.pk) })
      ansOk (nvWrite nvFirmware (put c.hub (if writesAlone u c.hub then u else put (other c.hub) u)))) ∧
  Performs linkTrainRow .linkTrain
    (fun c s => okSite s (parN c.pk 0 4) = true ∧ isLinkSite (parN c.pk 0 4) = true ∧
      strapsOk s (sitePart (parN c.pk 0 4)) = true ∧
      s.keys.variant.links.getLsbD (globalLink s (sitePart (parN c.pk 0 4)) (siteIdx (parN c.pk 0 4) / 16)) = true ∧
      1 ≤ parB c.pk 4 ∧ parB c.pk 4 ≤ 3 ∧
      (lnk s (globalLink s (sitePart (parN c.pk 0 4)) (siteIdx (parN c.pk 0 4) / 16))).trainReq = false ∧
      partInService s (sitePart (parN c.pk 0 4)) = true)
    (fun c s => .opened (parN c.pk 0 4) 0
      (trainLink (globalLink s (sitePart (parN c.pk 0 4)) (siteIdx (parN c.pk 0 4) / 16)) 1 (BitVec.ofNat 2 (parB c.pk 4))
        (sendEntry (sitePart (parN c.pk 0 4)) (parN c.pk 0 4) stFenced s))) ∧
  (∀ pk h s, Ready linkStatusRow pk h s → ∃ pay, Answers linkStatusRow .linkStatus pk h s (.done [] pay 0 (took linkStatusRow pk s)) ∧
    pay.length = 48 * 32)

/-- R345, R349, R351, R355, R361, R367: the KEY commands complete: identities and attestations are returned, a context assigned, rotated, bound to a
slot and unbound, a content key unwrapped, a slot freed, a root installed and removed, a variant certificate staged, the key unit reported. Statuses
that no table gives are the model's choice (log entries 11, 24, 27 and 28). -/
def Obligations.KeyCommands : Prop :=
  Performs keyIdRow .keyId
    (fun c s => parB c.pk 0 ≤ 1 ∧ parN c.pk 4 4 ≤ (keyIdObject s (if parB c.pk 0 = 1 then .b else .a)).length ∧
      (hubOf s (if parB c.pk 0 = 1 then .b else .a)).role ≠ .down)
    (fun c s =>
      let obj := keyIdObject s (if parB c.pk 0 = 1 then .b else .a)
      .done (leBytes 4 obj.length) ((obj.drop (parN c.pk 4 4)).take 4096) 0 s) ∧
  Performs keyAttestRow .keyAttest always
    (fun c s =>
      let r := attestReport s c.hub (leBytes 32 c.pk.param.toNat)
      .done [] (r ++ padTo 96 (signAs (isB c.hub) (Config.sha384 r))) 0 s) ∧
  Performs keyAssignRow .keyAssign
    (fun c s => 1 ≤ parB c.pk 0 ∧ parB c.pk 0 < 64 ∧ 1 ≤ parB c.pk 1 ∧ (ctxOf s (parB c.pk 0)).state = 0 ∧ (ctxOf s (parB c.pk 0)).tenant = 0)
    (fun c s => ansOk (modCtx (parB c.pk 0) (fun x => { x with tenant := parB c.pk 1 }) s)) ∧
  PerformsThen keyPoll keyRotateRow .keyRotate
    (fun c s => parB c.pk 0 < 64 ∧ (c.role = 2 → (ctxOf s (parB c.pk 0)).tenant = c.tenant) ∧ (ctxOf s (parB c.pk 0)).state = 0 ∧
      (ctxOf s (parB c.pk 0)).wsrc = 0 ∧ (isForce c.pk = true ∨ changeWaits s = false))
    (fun c s => .slow (parB c.pk 0) 0 (rotateCtx (parB c.pk 0) none s)) ∧
  PerformsThen keyPoll keyUnbindRow .keyUnbind
    (fun c s => parB c.pk 0 < 64 ∧ (c.role = 2 → (ctxOf s (parB c.pk 0)).tenant = c.tenant) ∧ (ctxOf s (parB c.pk 0)).state = 0 ∧
      (ctxOf s (parB c.pk 0)).wsrc = 1 ∧ (isForce c.pk = true ∨ changeWaits s = false))
    (fun c s => .slow (parB c.pk 0) 0 (rotateCtx (parB c.pk 0) none s)) ∧
  PerformsThen keyPoll keyUnwrapRow .keyUnwrap
    (fun c s => parN c.pk 0 2 < s.keys.keySlots ∧ (slotOf s (parN c.pk 0 2)).filled = false ∧
      firstPiece 0x0B05 (parN c.pk 0 2) 12640 c s)
    (fun c s => ansOk (pieceKept 0x0B05 (parN c.pk 0 2) c s)) ∧
  PerformsThen keyPoll keyBindRow .keyBind
    (fun c s => parN c.pk 0 2 < s.keys.keySlots ∧ parB c.pk 2 < 64 ∧
      (c.role = 2 → (ctxOf s (parB c.pk 2)).tenant = c.tenant ∧ (slotOf s (parN c.pk 0 2)).owner = c.tenant) ∧
      (c.role ≠ 2 → (slotOf s (parN c.pk 0 2)).owner = 0 ∧ (ctxOf s (parB c.pk 2)).tenant = 0) ∧
      (slotOf s (parN c.pk 0 2)).filled = true ∧ (slotOf s (parN c.pk 0 2)).oneSided = false ∧
      (ctxOf s (parB c.pk 2)).state = 0 ∧ (ctxOf s (parB c.pk 2)).wsrc = 0 ∧ (isForce c.pk = true ∨ changeWaits s = false))
    (fun c s => .slow (parB c.pk 2) 0 (rotateCtx (parB c.pk 2) (some (parN c.pk 0 2)) s)) ∧
  Performs keySlotfreeRow .keySlotfree
    (fun c s => parN c.pk 0 2 < s.keys.keySlots ∧
      (c.role = 2 → (slotOf s (parN c.pk 0 2)).filled = true ∧ (slotOf s (parN c.pk 0 2)).owner = c.tenant) ∧ namesSlot s (parN c.pk 0 2) = [])
    (fun c s => ansOk { s with keys := { s.keys with slots := tdel s.keys.slots (parN c.pk 0 2) } }) ∧
  Performs keyTrootRow .keyTroot
    (fun c s => parB c.pk 0 = 0 ∧ 1 ≤ parB c.pk 1 ∧ parB c.pk 2 ≤ 3 ∧ s.keys.roots.length < 256 ∧
      (s.keys.roots.filter (fun r => decide (r.tenant = parB c.pk 1))).length < 4)
    (fun c s =>
      let rest := s.keys.roots.filter (fun r => !(decide (r.tenant = parB c.pk 1) && decide (r.key = payOf c.pk)))
      ansOk (nvWrite nvVariant { s with keys := { s.keys with roots := rest ++ [Root.mk (parB c.pk 1) (parB c.pk 2) (payOf c.pk)] } })) ∧
  Performs keyVariantRow .keyVariant (firstPiece 0x0B0A 0 4260) (fun c s => ansOk (pieceKept 0x0B0A 0 c s)) ∧
  Performs keyVariantRow .keyVariant
    (fun c s => loadOf s 0x0B0A 0 = none ∧ parN c.pk 4 4 = 0 ∧ (payOf c.pk).length ≤ 4260 ∧ isLast c.pk = true ∧
      variantFault (dropLoad 0x0B0A 0 s) (payOf c.pk) = 0)
    (fun c s =>
      let u := dropLoad 0x0B0A 0 s
      let v := parseVariant (payOf c.pk)
      ansOk (nvWrite nvVariant (raise (ev evVariantStaged [(8, v.digest.toNat)]) { u with keys := { u.keys with staged := some v } }))) ∧
  Performs keyStatusRow .keyStatus (fun c _ => parB c.pk 0 = 0)
    (fun c s => .done [] ((List.range 64).flatMap
      (fun i => if sees c (ctxOf s i).tenant then ctxBytes (ctxOf s i) else leBytes 32 0)) 0 s) ∧
  Performs keyStatusRow .keyStatus (fun c _ => parB c.pk 0 = 1 ∧ parB c.pk 1 < 98)
    (fun c s => .done [] (chanBytes c s (2 * parB c.pk 1) ++ chanBytes c s (2 * parB c.pk 1 + 1)) 0 s)

/-- R357, R358, R363, R364: the SCRUB, TRACE and STOP commands complete: a tenant's scrub begins and is reported, trace is set, armed, triggered and
reported, a stop is issued, armed, ended and reported. Statuses and layouts that no table gives are the model's choice (log entries 11, 27, 28, 55 and
59). -/
def Obligations.ScrubTraceStopCommands : Prop :=
  PerformsThen keyPoll scrubTenantRow .scrubTenant
    (fun c s => 1 ≤ parB c.pk 0 ∧ maskStray c.pk 16 = none ∧ underScrub s (parB c.pk 0) = false ∧
      (isForce c.pk = true ∨ (liveJobs s (fun x => decide (tfind s.sync.jobs x.job = some (parB c.pk 0))) = [] ∧
        (ctxsOf s (parB c.pk 0) = [] ∨ changeWaits s = false))))
    (fun c s =>
      let jobs := liveJobs s (fun x => decide (tfind s.sync.jobs x.job = some (parB c.pk 0)))
      .opened (parB c.pk 0) jobs.length (beginScrub (parB c.pk 0) (BitVec.ofNat 128 (parN c.pk 16 16)) jobs s)) ∧
  Performs scrubStatusRow .scrubStatus
    (fun c s => 1 ≤ parB c.pk 0 ∧ s.keys.scrubs.find? (fun x => x.tenant = parB c.pk 0) = none)
    (fun _ s => .done (leBytes 8 0) [] 0 s) ∧
  (∀ x, Performs scrubStatusRow .scrubStatus
    (fun c s => 1 ≤ parB c.pk 0 ∧ s.keys.scrubs.find? (fun x => x.tenant = parB c.pk 0) = some x)
    (fun _ s => .done (leBytes 1 (scrubStep x) ++ leBytes 3 0 ++ leBytes 4 ((x.ctxs.map (fun i => (ctxOf s i).need.length)).sum)) [] 0 s)) ∧
  Performs traceSetRow .traceSet
    (fun c _ => parB c.pk 0 ≤ 1 ∧ parB c.pk 1 ≤ 1 ∧ parB c.pk 2 ≤ 7 ∧ parB c.pk 3 ≤ 15 ∧ 1024 ≤ parN c.pk 4 4 ∧ parN c.pk 4 4 ≤ 16777216 ∧
      parB c.pk 8 ≤ 3 ∧ maskStray c.pk 16 = none)
    (fun c s => ansOk (forEach parts (fun p s => modW p (fun w =>
        if p ∈ maskParts (parN c.pk 16 16) then
          { w with trcOn := BitVec.ofNat 3 (parB c.pk 2), ccOn := BitVec.ofNat 4 (parB c.pk 3), pcsPeriod := parN c.pk 4 4 }
        else { w with trcOn := 0, ccOn := 0 }) s)
      (forEach (hubsNamed s (parB c.pk 8)) (fun h s =>
        modTrace h (setMode (decide (parB c.pk 0 = 1)) (decide (parB c.pk 1 = 1))) s) s))) ∧
  Performs traceArmRow .traceArm (fun c _ => parB c.pk 0 ≤ 15 ∧ parB c.pk 1 ≤ 7 ∧ parB c.pk 6 ≤ 3)
    (fun c s => ansOk (forEach (hubsNamed s (parB c.pk 6)) (fun h s => modTrace h (armBuf (4194304 * parB c.pk 0)
      ((parB c.pk 1).testBit 0) ((parB c.pk 1).testBit 1) ((parB c.pk 1).testBit 2) (parN c.pk 2 2) (parN c.pk 4 2)) s) s)) ∧
  Performs traceTriggerRow .traceTrigger always (fun _ s => ansOk (trigHub raise 1 0 .b (trigHub raise 1 0 .a s))) ∧
  Performs traceStatusRow .traceStatus always (fun _ s => .done [] (traceBytes s .a ++ traceBytes s .b) 0 s) ∧
  Performs stopIssueRow .stopIssue
    (fun c s => parB c.pk 0 = 0 ∧ parN c.pk 2 2 = 0 ∧ s.cairn.state = 0)
    (fun c s => ansOk (cairnIssue raise c.hub 0 [] 1 0 s)) ∧
  Performs stopArmRow .stopArm
    (fun c _ => parB c.pk 0 ≤ 1 ∧ parB c.pk 1 = 0 ∧ parN c.pk 6 2 = 0)
    (fun c s => ansOk { s with cairn := { s.cairn with
      armed := decide (parB c.pk 0 = 1), armLevel := 0, armCode := parN c.pk 2 2, armMask := parN c.pk 4 2, armCores := [] } }) ∧
  Performs stopResumeRow .stopResume (fun c s => parB c.pk 0 ≤ 1 ∧ (s.cairn.state = 2 ∨ (s.cairn.state = 3 ∧ parB c.pk 0 = 1)))
    (fun _ s => ansOk (beginResume s)) ∧
  (∀ pk h s, Ready stopStatusRow pk h s → ∃ pay, Answers stopStatusRow .stopStatus pk h s (.done [] pay 0 (took stopStatusRow pk s)) ∧
    fieldAt pay 0 1 = s.cairn.state % 256 ∧ fieldAt pay 2 2 = s.cairn.scanned.length % 65536)

/-- R399, R404 to R409, R333, R334: the STRATA and POWER commands complete: the store is reported and read, frozen and unfrozen, a time pair is
written, the code list read; power is reported, an input masked, a bank powered up or down. Statuses and layouts that no table gives are the model's
choice (log entries 11, 28, 76, 77 and 90). -/
def Obligations.StrataPowerCommands : Prop :=
  (∀ pk h s, Ready strataStatusRow pk h s → ∃ pay, Answers strataStatusRow .strataStatus pk h s (.done [] pay 0 (took strataStatusRow pk s)) ∧
    pay.length = 64 ∧ fieldAt pay 0 8 = oldestHeld s % 2 ^ 64 ∧ fieldAt pay 8 8 = newestHeld s % 2 ^ 64 ∧
    fieldAt pay 16 2 = s.strata.perm.length % 65536 ∧ fieldAt pay 20 1 = (if s.strata.frozen then 1 else 0)) ∧
  Performs strataReadRow .strataRead (fun c _ => parB c.pk 0 ≤ 1 ∧ 1 ≤ parB c.pk 1 ∧ parB c.pk 1 ≤ 60 ∧ parB c.pk 2 ≤ 4)
    (fun c s =>
      let f : Sel := { cls := parN c.pk 4 4, sev := parB c.pk 2, tenant := if c.role = 2 then some c.tenant else none }
      let r := readStrata s (parB c.pk 0) (parB c.pk 1) (parN c.pk 8 8) f
      .done (leBytes 8 r.cont ++ [BitVec.ofNat 8 (flag r.past)]) (r.recs.flatMap recBytes) 0 s) ∧
  Performs strataFreezeRow .strataFreeze (fun _ s => s.strata.frozen = false)
    (fun c s =>
      let u := raise (ev evStrataFreeze [(1, c.role), (2, c.pk.tag.toNat)]) s
      ansOk { u with strata := { u.strata with frozen := true, frozenAt := now u } }) ∧
  Performs strataUnfreezeRow .strataUnfreeze always (fun _ s => ansOk (endFreeze ufCommand s)) ∧
  Performs strataTimepairRow .strataTimepair (fun c s => parN c.pk 8 8 ≤ now s)
    (fun c s => ansOk (raise { ev evStrataTimepair [(8, parN c.pk 0 8), (8, parN c.pk 8 8), (4, parN c.pk 16 4), (1, parB c.pk 20)] with
      srck := 5 } s)) ∧
  Performs strataCodesRow .strataCodes (fun c _ => 1 ≤ parB c.pk 2 ∧ parB c.pk 2 ≤ 200)
    (fun c s => .done [] (codesFrom (parN c.pk 0 2) (parB c.pk 2)) 0 s) ∧
  Performs powerStatusRow .powerStatus always
    (fun _ s => .done [] (parts.flatMap (powerBytes s) ++ railBytes s.hubA ++ railBytes s.hubB) 0 s) ∧
  Performs powerMaskRow .powerMask
    (fun c s => okSite s (parN c.pk 0 4) = true ∧ isInputSite (parN c.pk 0 4) = true ∧ parB c.pk 4 ≤ 1)
    (fun c s => ansOk (maskInput (parN c.pk 0 4) (decide (parB c.pk 4 = 1)) s)) ∧
  Performs powerBankRow .powerBank
    (fun c s => okSite s (parN c.pk 0 4) = true ∧ isBankSite (parN c.pk 0 4) = true ∧ defState? s (parN c.pk 0 4) ≠ some 5 ∧
      (war s (sitePart (parN c.pk 0 4))).bankOff.any (fun b => b.bank = siteIdx (parN c.pk 0 4)) = false ∧
      hearsPart s (sitePart (parN c.pk 0 4)) = true ∧ parB c.pk 4 = 1)
    (fun c s => ansOk (bankUp (sitePart (parN c.pk 0 4)) (siteIdx (parN c.pk 0 4)) s)) ∧
  Performs powerBankRow .powerBank
    (fun c s => okSite s (parN c.pk 0 4) = true ∧ isBankSite (parN c.pk 0 4) = true ∧ defState? s (parN c.pk 0 4) ≠ some 5 ∧
      (war s (sitePart (parN c.pk 0 4))).bankOff.any (fun b => b.bank = siteIdx (parN c.pk 0 4)) = false ∧
      hearsPart s (sitePart (parN c.pk 0 4)) = true ∧ parB c.pk 4 = 0 ∧
      (chanOf s (2 * sitePart (parN c.pk 0 4) + siteIdx (parN c.pk 0 4) / 64)).bankEn.getLsbD (siteIdx (parN c.pk 0 4) % 64) = true)
    (fun c s => .opened (parN c.pk 0 4) 0 (startBankOff (sitePart (parN c.pk 0 4)) (siteIdx (parN c.pk 0 4)) s))

/-! ### The command protocol (chapter 17) -/

/-- R412, R413, Table 17.1: a packet put in a slot reads back whole: opcode, tag, length, flags, reserved bytes, parameters, CRC and payload, each at
every value. -/
def Obligations.PacketReadsBack : Prop :=
  ∀ (op : Nat) (pk : Packet) (x : Queue) (count : BitVec 16), op < 65536 → pk.payload.length = pk.plen.toNat → pk.plen.toNat ≤ 4096 →
    pk.internal = false →
    packetAt pk.queue { x with mem := memWrite x.mem (slotAddr count) (packetBytes op pk) } count = (op, pk)

/-- R412: the 16 slots of a queue lie apart: writing a packet or results in one changes no byte of another, and every write keeps queue memory in its
canonical form (log entry 16). -/
def Obligations.SlotsApart : Prop :=
  ∀ (t : Tab Byte) (c d : BitVec 16) (b : List Byte), b.length ≤ 4160 → c.toNat % 16 ≠ d.toNat % 16 →
    memRead (memWrite t (slotAddr c) b) (slotAddr d) 4160 = memRead t (slotAddr d) 4160 ∧
    memRead (memWrite t (slotAddr c) b) (slotAddr c) b.length = b ∧
    (tabWf 0 t = true → tabWf 0 (memWrite t (slotAddr c) b) = true)

/-- R416, R418, R422, R424: an answer DONE posts one final reply with status 0 at the tail of the caller's status queue, its inline results and the
length of its payload results, after the results are in the slot; it sets the queue's bit of IRQ_STAT (Table 18.6); and it changes nothing else of the
state its effect left, but for the debug session's count. An answer ACCEPTED posts one reply with status 1 that is not final, and leaves the command
open with its TAG and key; a command that ends within its own step is answered ACCEPTED and then DONE. Whose turn a packet is: log entry 11. -/
def Obligations.CommandReplies : Prop :=
  ∀ (row : CmdRow) (c : Caller) (s s' : State), c.queue < 8 →
    (∀ (res pay : List Byte) (cause : Nat),
      let t := commit row c (.done res pay cause s') s
      (queueOf t c.queue).sqTail = (queueOf s' c.queue).sqTail + 1 ∧
      replyAt t c.queue (queueOf s' c.queue).sqTail =
        some { tag := c.pk.tag, opcode := BitVec.ofNat 16 c.op, status := 0, queue := c.queue, final := true, rlen := pay.length, eoff := 0,
               cause, res := padTo 16 res } ∧
      memRead (queueOf t c.queue).mem (slotAddr c.count + 64) pay.length = pay ∧
      (hubOf t c.hub).irqStat.getLsbD c.queue = true ∧
      (∀ r, r ≠ c.queue → queueOf t r = queueOf s' r) ∧
      t = { s' with cmd := { s'.cmd with queues := t.cmd.queues }, hubA := t.hubA, hubB := t.hubB, keys := t.keys } ∧
      hubOf t c.hub = { hubOf s' c.hub with irqStat := (hubOf t c.hub).irqStat } ∧ hubOf t (other c.hub) = hubOf s' (other c.hub) ∧
      (opClass row.op ≠ 0xD → opClass row.op ≠ 0xE → t.keys = s'.keys)) ∧
    (∀ (key jobs : Nat) (res : List Byte),
      (let t := commit row c (.opened key jobs s') s
       (queueOf t c.queue).sqTail = (queueOf s' c.queue).sqTail + 1 ∧
       (∃ r, replyAt t c.queue (queueOf s' c.queue).sqTail = some r ∧ r.tag = c.pk.tag ∧ r.status = 1 ∧ r.final = false) ∧
       (∃ o, t.cmd.opens = s'.cmd.opens ++ [o] ∧ o.queue = c.queue ∧ o.tag = c.pk.tag ∧ o.key = key ∧ o.jobs = jobs ∧ o.first = none)) ∧
      (let t := commit row c (.both res s') s
       (queueOf t c.queue).sqTail = (queueOf s' c.queue).sqTail + 2 ∧
       (∃ r, replyAt t c.queue (queueOf s' c.queue).sqTail = some r ∧ r.tag = c.pk.tag ∧ r.status = 1 ∧ r.final = false) ∧
       (∃ r, replyAt t c.queue ((queueOf s' c.queue).sqTail + 1) = some r ∧ r.tag = c.pk.tag ∧ r.status = 0 ∧ r.final = true ∧
         r.res = padTo 16 res) ∧
       t.cmd.opens = s'.cmd.opens))

/-- Table 17.3, orders 1, 3, 4 and 5, R419, R424: a packet whose turn it is and that fails its header checks is answered BAD_PARAM with the byte at
fault, one that its role, the device state, the debug session or a scrub does not permit NOT_PERMITTED; the TAG of an open command of the queue, and a
PARAM byte that the row does not name, are answered BAD_PARAM; a row that would open a ninth command is answered BUSY_RETRY; none has any effect
(R422). The order of the checks within order 5 is the model's choice (log entry 11). -/
def Obligations.CommandRefusals : Prop :=
  ∀ i row pk h s, PacketOf i row pk → Turn pk h s → (powerWarn s = false ∨ quiet row pk = true) →
    (∀ e, headFault row pk (took row pk s) = some e → Refuses i row pk h s stBadParam e) ∧
    (headFault row pk (took row pk s) = none → permitted row (callerFor row pk h s) (took row pk s) = false →
      Refuses i row pk h s stNotPermitted 0) ∧
    (headFault row pk (took row pk s) = none → permitted row (callerFor row pk h s) (took row pk s) = true →
      ∀ a, row.body (callerFor row pk h s) (took row pk s) = a → ansGood a →
      ((∃ o ∈ s.cmd.opens, o.queue = pk.queue.toNat ∧ o.tag = pk.tag) → Refuses i row pk h s stBadParam 2) ∧
      ((∀ o ∈ s.cmd.opens, o.queue = pk.queue.toNat → o.tag ≠ pk.tag) → ∀ n, strayParam pk row.named = some n →
        Refuses i row pk h s stBadParam (16 + n)) ∧
      ((∀ o ∈ s.cmd.opens, o.queue = pk.queue.toNat → o.tag ≠ pk.tag) → strayParam pk row.named = none → 8 ≤ openOf s pk.queue.toNat →
        (∃ k j u, a = .opened k j u) → Refuses i row pk h s stBusy 0))

/-- R422: a packet that is not performed has no effect on any table, port or resource: everything but its queue's reply, the queue's bit of IRQ_STAT
and a debug session's times is as before the packet came. -/
def Obligations.RefusalFrame : Prop :=
  ∀ i row pk h s st e t, Turn pk h s → Refuses i row pk h s st e → exec i s = .next t →
    t.pending = s.pending ∧ t.free = s.free ∧ t.wardens = s.wardens ∧ t.sync = s.sync ∧ t.defects = s.defects ∧ t.quarry = s.quarry ∧ t.test = s.test ∧
    t.gov = s.gov ∧ t.tst = s.tst ∧ t.strata = s.strata ∧ t.boot = s.boot ∧ t.links = s.links ∧ t.cairn = s.cairn ∧ t.vein = s.vein ∧
    t.mir = s.mir ∧ t.net = s.net ∧ t.outs = s.outs ∧ { t.keys with dbg := none } = { s.keys with dbg := none } ∧
    t.cmd.opens = s.cmd.opens ∧ t.cmd.loads = s.cmd.loads ∧ t.cmd.held = s.cmd.held ∧
    (∀ q, q ≠ pk.queue.toNat → queueOf t q = queueOf s q) ∧
    (hubOf t (other h)) = pinsOf (hubOf s (other h)) ∧
    (∃ b, hubOf t h = pinsOf { hubOf s h with irqStat := b })

/-- R426: in PowerWarn a command that changes a table is taken and held without a reply, at the end of the commands held. Which commands change a
table is the model's choice (log entry 17). -/
def Obligations.PowerWarnHolds : Prop :=
  ∀ i row pk h s, PacketOf i row pk → Turn pk h s → powerWarn s = true → quiet row pk = false →
    ∃ t, exec i s = .next t ∧ t.cmd.held = s.cmd.held ++ [(pk.queue.toNat, (queueOf s pk.queue.toNat).tail, i)] ∧
      (queueOf t pk.queue.toNat).sqTail = (queueOf s pk.queue.toNat).sqTail ∧
      (queueOf t pk.queue.toNat).taken = (queueOf s pk.queue.toNat).taken + 1

/-- R414, R415: whatever waits elsewhere, no packet is taken from a queue while queue 0 holds a packet that may be taken, nor while the queue's status
queue has no more free entries than the queue has open commands. -/
def Obligations.TurnOrder : Prop :=
  ∀ (s : State) (q : Nat), turnOf s q = true →
    (q = 0 ∨ takeable s 0 = false) ∧ openOf s q < 64 - ((queueOf s q).sqTail - (queueOf s q).sqHead).toNat ∧
    (queueOf s q).taken ≠ (queueOf s q).tail ∧ heldIn s q = false

/-! ### The register window (chapter 18) -/

/-- R450, R452 to R454, Table 18.6: a whole write to a register of the serving hub has its effect: W1C bits clear, IRQ_TEST sets, IRQ_CFG and SNT_SEL
take a legal value and ignore a reserved one, STR_AREA and STR_POS are set and discard the port's snapshots. The port takes the request while
sys_rst_n is high and fewer than 16 reads are outstanding (R41, Table 2.12); what happens while it does not is DroppedWrites'. -/
def Obligations.RegisterWrites : Prop :=
  ∀ (h : HubId) (v : BitVec 64) (s : State), isServing (hubOf s h) = true → portTakes (hubOf s h) = true →
    exec (.irqStat h v 0xFF) s = .next (ended s (modHub h (fun x => { x with irqStat := x.irqStat &&& ~~~(v.setWidth 19) }) s)) ∧
    exec (.irqTest h v 0xFF) s = .next (ended s (modHub h (fun x => { x with irqStat := x.irqStat ||| v.setWidth 19 }) s)) ∧
    (v.toNat % 8 ≤ 4 → v.getLsbD 32 = false → exec (.irqCfg h v 0xFF) s =
      .next (ended s (modHub h (fun x => { x with irqCls := (v >>> 32).setWidth 18, irqSev := v.toNat % 8 }) s))) ∧
    (4 < v.toNat % 8 ∨ v.getLsbD 32 = true → exec (.irqCfg h v 0xFF) s = .next (ended s s)) ∧
    (v.toNat % 128 ≤ 0x61 → exec (.sntSel h v 0xFF) s = .next (ended s (modHub h (fun x => { x with sntSel := v.toNat % 128 }) s))) ∧
    (0x61 < v.toNat % 128 → exec (.sntSel h v 0xFF) s = .next (ended s s)) ∧
    (v.toNat % 4 ≠ 3 → exec (.strArea h v 0xFF) s = .next (ended s (modHub h (fun x => { x with strArea := v.toNat % 4, snaps := [] }) s))) ∧
    exec (.strPos h v 0xFF) s = .next (ended s (modHub h (fun x => { x with strPos := v.toNat, snaps := [] }) s))

/-- R40, R41, R43, R44, R443: while cmd_ready is 0, with sys_rst_n low or 16 reads outstanding, no request transfers, and a command that makes one
changes nothing but what the outputs show; else a write without all its byte enables is dropped and counted in PORTERR, which saturates, and sets bit
18; a write at a hub that does not serve is dropped and not counted. That the sender repeats a request is the model's choice (log entry 124). -/
def Obligations.DroppedWrites : Prop :=
  ∀ (i : Instr) (h : HubId) (strb : BitVec 8) (s : State),
    ((writeRow i = some (h, strb) ∨ otherRequest i = some h) → (hubOf s h).rstLow = true ∨ 16 ≤ (hubOf s h).reads.length → exec i s = .next (ended s s)) ∧
    (writeRow i = some (h, strb) → (hubOf s h).rstLow = false → (hubOf s h).reads.length < 16 →
    (isServing (hubOf s h) = false → exec i s = .next (ended s s)) ∧
    (isServing (hubOf s h) = true → strb ≠ 0xFF → ∃ t, exec i s = .next t ∧
      (hubOf t h).portErr = (if (hubOf s h).portErr = 0xFFFFFFFF then 0xFFFFFFFF else (hubOf s h).portErr + 1) ∧
      (hubOf t h).irqStat = (hubOf s h).irqStat ||| (1#19 <<< 18) ∧ hubOf t (other h) = pinsOf (hubOf s (other h)) ∧
      t = { s with hubA := t.hubA, hubB := t.hubB }))

/-- R447: with differences taken modulo 65,536, a write of v to a queue's tail takes effect exactly where v lies at most 16 above its head and at most
16 above the tail in force, and packets of no known opcode are then answered; a write of v to its status head exactly where v lies no further above it
than the status tail, and the value then goes to the mirror and slots return. Any other value is ignored and counted in PORTERR, and the value in
force changes nothing. -/
def Obligations.QueuePointers : Prop :=
  ∀ (h : HubId) (q : BitVec 3) (v : BitVec 64) (s : State), isServing (hubOf s h) = true → portTakes (hubOf s h) = true →
    (v.setWidth 16 ≠ (queueOf s q.toNat).tail →
      (if (v.setWidth 16 - (queueOf s q.toNat).head).toNat ≤ 16 ∧ (v.setWidth 16 - (queueOf s q.toNat).tail).toNat ≤ 16 then
        exec (.doorbell h q v 0xFF) s = .next (ended s (rejectUnknown maxWaiting (modQueue q.toNat (fun x => { x with tail := v.setWidth 16 }) s)))
       else exec (.doorbell h q v 0xFF) s = .next (ended s (portErr h s))))∧
    (v.setWidth 16 = (queueOf s q.toNat).tail → exec (.doorbell h q v 0xFF) s = .next (ended s s)) ∧
    (v.setWidth 16 ≠ (queueOf s q.toNat).sqHead →
      (if (v.setWidth 16 - (queueOf s q.toNat).sqHead).toNat ≤ ((queueOf s q.toNat).sqTail - (queueOf s q.toNat).sqHead).toNat then
        exec (.sqHead h q v 0xFF) s = .next (ended s (rejectUnknown maxWaiting (modQueue q.toNat (returnSlots (waitsReply s q.toNat))
          (mirWrite (.sqHead q.toNat (v.setWidth 16)) (modQueue q.toNat (fun x => { x with sqHead := v.setWidth 16, fullRaised := false }) s)))))
       else exec (.sqHead h q v 0xFF) s = .next (ended s (portErr h s)))) ∧
    (v.setWidth 16 = (queueOf s q.toNat).sqHead → exec (.sqHead h q v 0xFF) s = .next (ended s s))

/-- R449: a write to queue memory writes the bytes its enables name and no other byte; to a slot taken and not yet returned it is dropped and counted.
That a byte nothing has written reads 0 is the model's choice (log entry 16). -/
def Obligations.QueueMemoryWrites : Prop :=
  ∀ (h : HubId) (q : BitVec 3) (slot : BitVec 4) (word : Nat) (v : BitVec 64) (strb : BitVec 8) (s : State),
    isServing (hubOf s h) = true → portTakes (hubOf s h) = true → word < 520 →
    (slotTaken (queueOf s q.toNat) slot.toNat = true → exec (.queueMemoryWrite h q slot word v strb) s = .next (ended s (portErr h s))) ∧
    (slotTaken (queueOf s q.toNat) slot.toNat = false → ∃ m,
      exec (.queueMemoryWrite h q slot word v strb) s = .next (ended s (modQueue q.toNat (fun x => { x with mem := m }) s)) ∧
      (∀ i, i < 8 → tget 0 m (4160 * slot.toNat + 8 * word + i) =
        if strb.getLsbD i then (v >>> (8 * i)).setWidth 8 else tget 0 (queueOf s q.toNat).mem (4160 * slot.toNat + 8 * word + i)) ∧
      (∀ a, a < 4160 * slot.toNat + 8 * word ∨ 4160 * slot.toNat + 8 * word + 8 ≤ a → tget 0 m a = tget 0 (queueOf s q.toNat).mem a) ∧
      (tabWf 0 (queueOf s q.toNat).mem = true → tabWf 0 m = true))

/-- R443, R9: REGISTER_WRITE reaches the writable registers by their addresses; a word with no writable field drops the write, counted at the serving
hub. -/
def Obligations.RegisterAddresses : Prop :=
  ∀ (h : HubId) (addr : BitVec 20) (v : BitVec 64) (strb : BitVec 8) (s : State), portTakes (hubOf s h) = true →
    (addr.toNat / 8 * 8 = 0x2000 → exec (.registerWrite h addr v strb) s = exec (.irqStat h v strb) s) ∧
    (addr.toNat / 8 * 8 = 0x2010 → exec (.registerWrite h addr v strb) s = exec (.irqTest h v strb) s) ∧
    (addr.toNat / 8 * 8 = 0x2018 → exec (.registerWrite h addr v strb) s = exec (.irqCfg h v strb) s) ∧
    (addr.toNat / 8 * 8 = 0x2108 → exec (.registerWrite h addr v strb) s = exec (.sntSel h v strb) s) ∧
    (addr.toNat / 8 * 8 = 0x3000 → exec (.registerWrite h addr v strb) s = exec (.strArea h v strb) s) ∧
    (addr.toNat / 8 * 8 = 0x3008 → exec (.registerWrite h addr v strb) s = exec (.strPos h v strb) s) ∧
    (addr.toNat / 8 * 8 = 0x2008 → isServing (hubOf s h) = true → strb = 0xFF →
      exec (.registerWrite h addr v strb) s = .next (ended s (modHub h (fun x => { x with irqMask := v.setWidth 19 }) s))) ∧
    (∀ q : BitVec 3, addr.toNat / 8 * 8 = 0x1000 + 64 * q.toNat → exec (.registerWrite h addr v strb) s = exec (.doorbell h q v strb) s) ∧
    (∀ q : BitVec 3, addr.toNat / 8 * 8 = 0x1010 + 64 * q.toNat → exec (.registerWrite h addr v strb) s = exec (.sqHead h q v strb) s) ∧
    (readOnlyWord (addr.toNat / 8 * 8) →
      exec (.registerWrite h addr v strb) s = .next (ended s (if isServing (hubOf s h) then portErr h s else s)))

/-- R40 to R42, R44, R444, R446, R454: the reads that change state have their effect as they are taken, and their response waits behind those before
it; cmd_rst_n discards the port's outstanding reads and snapshots and changes no register; a full status queue is told of once. The time of an answer
and the limit's effect on a request are the model's choice (log entries 85 and 124). -/
def Obligations.ReadsAndResets : Prop :=
  ∀ (h : HubId) (slot : BitVec 6) (q : BitVec 3) (s : State), isServing (hubOf s h) = true →
    (portTakes (hubOf s h) = true →
      (∃ t, exec (.strataWindowSnapshot h slot) s = .next t ∧ tfind (hubOf t h).snaps slot.toNat = some (windowBytes s h slot.toNat) ∧
        ∃ v, (hubOf t h).reads = (hubOf s h).reads ++ [(0, 0x4000 + 64 * slot.toNat, v)]) ∧
      (∃ t, exec (.hubPorterr h) s = .next t ∧ (hubOf t h).portErr = 0 ∧
        (hubOf t h).reads = (hubOf s h).reads ++ [(0, 0x118, BitVec.ofNat 64 (hubOf s h).portErr.toNat)]) ∧
      (∃ t, exec (.trcLoss h) s = .next t ∧ (hubOf t h).trcLost = 0 ∧
        (hubOf t h).reads = (hubOf s h).reads ++ [(0, 0x2210, BitVec.ofNat 64 (hubOf s h).trcLost.toNat)])) ∧
    exec (.cmdPortReset h) s = .next (ended s (modHub h (fun x => { x with snaps := [], reads := [] }) s)) ∧
    (sqFree (queueOf s q.toNat) = 0 → (queueOf s q.toNat).fullRaised = false →
      exec (.statusQueueFull q) s = .next (ended s (raise
        (ev evStatusQueueFull [(2, q.toNat), (1, (queueOf s q.toNat).bind), (4, ((queueOf s q.toNat).tail - (queueOf s q.toNat).taken).toNat)])
        (modQueue q.toNat (fun x => { x with fullRaised := true }) s))))

/-! ### The queue of commands, and what holds after every step -/

/-- A step runs the command at the front of the queue on the state with the rest. -/
def Obligations.StepRunsFront : Prop :=
  ∀ (c : Instr) (rest : List Instr) (s : State), step { s with pending := c :: rest } = exec c { s with pending := rest }

/-- On an empty queue the block lets 10 ns pass (the model's choice, log entries 2, 124 and 135): both hubs' time goes on where their refclk runs
(R67, R396, R397), each port's oldest read response transfers where cmd_rready is 1 (R40), the live wardens' timers count, and their partitions show
wcl_shd_ready; the values of these inputs are open. Where the hub that serves, if any, holds its quorum (R21; log entry 162) and no work is kept due
that may begin (R472), then: where no transfer waits at a dispatch channel nothing else changes; where one group's transfers wait at one warden, they
go in their order if its ready is 1 and stay if it is 0 (R124). -/
def Obligations.IdleTick : Prop :=
  ∀ s, s.pending = [] → settled s = true → ∃ t, step s = .next t ∧
    (waitingWardens s = [] → t = { s with hubA := t.hubA, hubB := t.hubB, wardens := t.wardens, outs := t.outs, free := s.free + 100 } ∧
      (∀ h, (hubOf s h).refLost = false → (hubOf s h).slowAdj = 0 → (hubOf s h).time < 2 ^ 64 - 10 → (hubOf t h).time = (hubOf s h).time + 10) ∧
      (∀ h, (hubOf s h).refLost = false → 0 < (hubOf s h).slowAdj → (hubOf s h).time < 2 ^ 64 - 10 →
        (hubOf t h).time = (hubOf s h).time + 5 ∧ (hubOf t h).slowAdj = (hubOf s h).slowAdj - 1) ∧
      (∀ h, (hubOf s h).refLost = true → (hubOf t h).time = (hubOf s h).time ∧ (hubOf t h).slowAdj = (hubOf s h).slowAdj) ∧
      (∀ h, (hubOf t h).rready = (Config.freeValue (s.free + (if h = .a then 98 else 99))).getLsbD 0 ∧
        (hubOf t h).reads = if (hubOf t h).rready then (hubOf s h).reads.tail else (hubOf s h).reads) ∧
      t.outs = (if (hubOf t .b).rready then ((hubOf s .b).reads.take 1).map (fun r => .read .b r.1 r.2.1 r.2.2) else []) ++
        (if (hubOf t .a).rready then ((hubOf s .a).reads.take 1).map (fun r => .read .a r.1 r.2.1 r.2.2) else []) ++ s.outs ∧
      (∀ h, { hubOf t h with time := 0, slowAdj := 0 } =
        { pinsOf { hubOf s h with reads := (hubOf t h).reads, rready := (hubOf t h).rready } with time := 0, slowAdj := 0 }) ∧
      (∀ p, (war t p).timer = (if (war s p).alive then (war s p).timer + 1 else (war s p).timer)) ∧
      (∀ p, (war s p).alive = true → (war t p).shdReady = (Config.freeValue (s.free + p)).setWidth 20) ∧
      (∀ p, { war t p with timer := 0, shdReady := 0 } = { war s p with timer := 0, shdReady := 0 })) ∧
    (∀ p g l, g < 20 → l ≠ [] → (∀ d ∈ l, d.kind ≠ 1) → waitingWardens s = [p] → (war s p).shdQ = [(g, l)] → (war s p).patNext = none → (war s p).alive = true →
      ((Config.freeValue (s.free + p)).getLsbD g = true → (war t p).shdQ = [] ∧
        ∀ d ∈ l, Out.disp p g d.kind d.dst d.tile ∈ t.outs) ∧
      ((Config.freeValue (s.free + p)).getLsbD g = false → (war t p).shdQ = [(g, l)]))

/-- Table 2.3, R40, R41, R450: after every step, whatever the command and from whatever state, cmd_primary is 1 exactly while its hub is Primary or
Sole, cmd_irq exactly while it is and an enabled status bit is set, cmd_ready while sys_rst_n is high and fewer than 16 reads are outstanding,
cmd_rvalid while a response waits; and the commands that wait are those that waited. -/
def Obligations.PinsFollow : Prop :=
  ∀ s, (∀ c ∈ s.pending, c.wf = true) → ∃ t, step s = .next t ∧ pinsRight t.hubA ∧ pinsRight t.hubB ∧
    t.pending = s.pending.tail ∧ ∀ c ∈ t.pending, c.wf = true

/-- At reset the outputs are as PinsFollow asks, and no command waits. -/
def Obligations.PinsAtReset : Prop :=
  pinsRight State.reset.hubA ∧ pinsRight State.reset.hubB ∧ State.reset.pending = []

/-! ### Events, starts, power (chapters 12, 13, 16) -/

/-- R398, R401, R404, R408: an event of the hubs' own parts is recorded by the serving hub with the next count and a time not before the last
record's, in the circulating area, and in the hold area during a freeze while it has room, else counted as lost; while no hub serves it is held. It
changes nothing of queues, wardens, objects, tables or roles. That an event waits while no hub serves is R401's; its order at a failover is the
model's choice (log entry 92). -/
def Obligations.RaisedEvents : Prop :=
  ∀ (e : Ev) (s : State),
    (serving s = none → raise e s = { s with strata := { s.strata with hubHeld := s.strata.hubHeld ++ [(.a, e)] } }) ∧
    (∀ h, serving s = some h → noMatch s →
      let t := max (hubOf s h).time (lastStamp s)
      (s.strata.frozen = false →
        (raise e s).strata.circ = newestRecs 32768 (s.strata.circ ++ recsOf (sited h e) s.strata.nextCount t) ∧
        (raise e s).strata.perm = permFill s.strata.perm (recsOf (sited h e) s.strata.nextCount t) ∧
        (raise e s).strata.nextCount = s.strata.nextCount + recCount e ∧ (raise e s).strata.hold = s.strata.hold) ∧
      (s.strata.frozen = true → (raise e s).strata.circ = s.strata.circ ∧ (raise e s).strata.perm = s.strata.perm ∧
        (s.strata.hold.length + recCount e ≤ 4096 →
          (raise e s).strata.hold = s.strata.hold ++ recsOf (sited h e) s.strata.nextCount t ∧ (raise e s).strata.lost = s.strata.lost) ∧
        (4096 < s.strata.hold.length + recCount e →
          (raise e s).strata.hold = s.strata.hold ∧ (raise e s).strata.lost = s.strata.lost + 1 ∧ (raise e s).strata.nextCount = s.strata.nextCount))) ∧
    (raise e s).cmd = s.cmd ∧ (raise e s).wardens = s.wardens ∧ (raise e s).sync = s.sync ∧ (raise e s).defects = s.defects ∧
    (raise e s).quarry = s.quarry ∧ (raise e s).test = s.test ∧ (raise e s).gov = s.gov ∧ (raise e s).tst = s.tst ∧ (raise e s).boot = s.boot ∧
    (raise e s).links = s.links ∧ (raise e s).vein = s.vein ∧ (raise e s).mir = s.mir ∧ (raise e s).free = s.free ∧
    (∀ h, (hubOf (raise e s) h).role = (hubOf s h).role ∧ (hubOf (raise e s) h).time = (hubOf s h).time)

/-- R65, R216, R267, R287, R345, R404: a wafer reset puts both hubs in Starting with the reset values of their windows, ends every queue, message,
object, capture and warden, and keeps the hubs' time, the committed defect table, the roots, the permanent area and the reset stamps; counts go on
65,537 after the persisted value. The clearing of the circulating area, and what of lockstep and timers stays, are the model's choice (log entries 22,
89, 98 and 146). -/
def Obligations.WaferResetKeeps : Prop :=
  ∀ s, ∃ t, exec .waferReset s = .next t ∧ hubReset s.hubA t.hubA ∧ hubReset s.hubB t.hubB ∧
    t.cmd = {} ∧ t.net = [] ∧ t.mir = {} ∧ t.tst = {} ∧ t.links = [] ∧ t.cairn = {} ∧ t.vein = {} ∧ t.test = {} ∧
    t.sync.objs = [] ∧ t.sync.rels = [] ∧ t.sync.nextRsn = s.sync.rsnNv + 65537 ∧
    (∀ p, (war t p).alive = false ∧ (war t p).lease = none ∧ (war t p).stamps = (war s p).stamps) ∧
    t.defects.tab = s.defects.committed ∧ t.defects.committed = s.defects.committed ∧ t.keys.roots = s.keys.roots ∧ t.keys.purge = s.keys.purge ∧
    t.keys.variant = s.keys.staged.getD s.keys.variant ∧ t.quarry.index = s.quarry.index ∧ t.gov.log = s.gov.log ∧
    t.strata.perm = s.strata.perm ∧ t.strata.circ = [] ∧ t.strata.nextCount = s.strata.countNv + 65537

/-- R67, R68, R290, R291, R298 to R302, R363, R364: the start of a hub, and the events of its clock, management cores, heartbeat and debug session.
What a firmware slot holds as made, and a vote without majority as an operand, are the model's choice (log entries 5, 130 and 131). -/
def Obligations.HubEvents : Prop :=
  ∀ (h : HubId) (inp : StartIn) (ns core : Nat) (s : State),
    ((hubOf s h).role = .starting → (hubOf s h).started = false →
      let sel := if startKind h s = 2 then (hubOf s h).profileSampled else inp.profileSel
      let at_ := if (hubOf s h).railFell then powerOnTime (highestTime s) else (hubOf s h).time
      let u := modHub h (fun x => { x with
        time := at_, releasedAt := at_
        profileSampled := sel, rstLow := false, byReset := decide (startKind h s ≠ 2) && !x.railFell }) s
      let fa := slotFault s h 0
      let fb := slotFault s h 1
      let i := if fa ≠ 0 then 1 else if fb ≠ 0 then 0 else if (slotImage s h 0).1 < (slotImage s h 1).1 then 1 else 0
      let w := modHub h (fun x => { x with fwSlot := i, imgver := (slotImage s h i).1, fwDigest := (slotImage s h i).2 }) u
      let v := if fa ≠ 0 then raise (evAt evFwFallback (hubSite h) [(1, hubNum h), (2, 0), (1, fa)]) w
        else if fb ≠ 0 then raise (evAt evFwFallback (hubSite h) [(1, hubNum h), (2, 1), (1, fb)]) w else w
      let k := modHub h (fun x => { x with seed := seedOf (isB h), keyId := idKeyId (isB h) }) v
      exec (.hubStart h inp) s = .next (ended s
        (if fa ≠ 0 ∧ fb ≠ 0 then failStart h 1 u
         else if identityOk (isB h) = false then failStart h 2 (modHub h (fun x => { x with keyId := 0 }) v)
         else match openRoots (isB h) with
           | none => failStart h 3 (raise (evAt evKeyRootFail (hubSite h) [(1, hubNum h)]) k)
           | some r => endStart h (startKind h s) (fullReason (startKind h s) at_ inp.tableOk s) inp (modHub h (fun x => { x with rootKeys := r }) k)))) ∧
    ((hubOf s h).refLost = false → exec (.refclkLost h) s =
      .next (ended s (raise (fromSrc 4 (evAt evRefclkLost (hubSite h) [])) (modHub h (fun x => { x with refLost := true }) s)))) ∧
    ((hubOf s h).refLost = true → exec (.refclkBack h ns) s = .next (ended s (stepTime h (hubOf s h).time (raise (fromSrc 4 (evAt evRefclkBack (hubSite h) [(8, ns)]))
      (modHub h (fun x => { x with refLost := false, time := (x.time + ns) % 2 ^ 64 }) s))))) ∧
    (core ≤ 2 → (hubOf s h).role ≠ .down → (hubOf s h).mgmtOut = [] → tget [] (hubOf s h).mgmt core = [] →
      exec (.lockstepMasked h core) s = .next (ended s (raise (evAt evLockstepMasked (mgmtSite h core) [(1, hubNum h), (2, core), (4, 1)])
        (modHub h (fun x => { x with mgmt := tput [] x.mgmt core [x.time] }) s)))) ∧
    (core ≤ 2 → (hubOf s h).role ≠ .down → core ∉ (hubOf s h).mgmtOut → (hubOf s h).mgmtOut ≠ [] → exec (.lockstepMasked h core) s = .next (ended s (goDown h s))) ∧
    ((hubOf s h).role ≠ .down → 3 ∉ (hubOf s h).mgmtOut → exec (.lockstepMasked h 3) s = .next (ended s (goDown h s))) ∧
    (serving s = some h → (hubOf s h).refLost = false → exec .hbeatTick s = .next (ended s (modHub h (fun x => { x with hbeat := x.hbeat + 1 }) s))) ∧
    ((hubOf s h).role ≠ .down → (hubOf s h).rstLow = false → (hubOf s h).refLost = false → exec (.peerHbToggle h) s = .next (ended s (modHub h (fun x => { x with peerHb := !x.peerHb }) s))) ∧
    (∀ d, serving s = some h → (hubOf s h).refLost = false → s.keys.dbg = some d → exec .debugSessionIdle s = .next (ended s (raise (ev evDebugClose [(4, d.num), (1, 3), (4, d.cmds)])
      { s with keys := { s.keys with dbg := none, sessions := lastN 64 (s.keys.sessions ++ [{ d with closeAt := now s }]) } })))

/-- R63, R329 to R335: the power-fail warning of a hub, its flush, the ride-through, the hubs' rail, and a warden's own supply. That the sender says
when an interval has passed, and the flush as a whole, are the model's choice (log entries 3, 69, 78, 79, 80 and 167). An ordered wafer reset no longer waits
for a warden that stops (R286). -/
def Obligations.PowerEvents : Prop :=
  ∀ (h : HubId) (reading : BitVec 32) (ns p : Nat) (s : State),
    let table := if s.defects.dirty then some (s.defects.commits, s.defects.tab) else none
    ((hubOf s h).role = .secondary → (hubOf s h).rstLow = false → (hubOf s h).pwr.warn = false → exec (.powerFailWarn h) s =
      .next (ended s (forEach parts stopRecovery (raise (evAt evPowerFailWarn (hubSite h) [(1, hubNum h), (1, 3)])
        (modHub h (fun x => { x with pwr := { warn := true, since := x.time, pin := false, flushed := false, table }, pfailDone := false,
                                      coldNext := x.coldNext || startUnderWay s h }) (endFreeze ufPower s)))))) ∧
    (isServing (hubOf s h) = true → (hubOf s h).rstLow = false → (hubOf s h).pwr.warn = false → ∃ u, exec (.powerFailWarn h) s = .next (ended s (powerOrders h (forEach parts stopRecovery u))) ∧
      u = raise (evAt evPowerFailWarn (hubSite h) [(1, hubNum h), (1, roleCode (hubOf s h).role)])
        (modHub h (fun x => { x with pwr := { warn := true, since := x.time, pin := false, flushed := false, table }, pfailDone := false,
                                      coldNext := x.coldNext || startUnderWay s h }) (endFreeze ufPower s)) ∧ (hubOf u h).pwr.warn = true) ∧
    exec (.powerFailWarnRelease h) s = .next (ended s (modHub h (fun x => { x with pwr := { x.pwr with pin := true } }) s)) ∧
    ((hubOf s h).pwr.warn = true → (hubOf s h).pwr.flushed = false → ∃ t, exec (.powerFlushDone h) s = .next t ∧
      (hubOf t h).pwr.flushed = true ∧ (hubOf t h).pfail = flushRecs h s.strata.circ ∧ (hubOf t h).pfailDone = true ∧ t.sync.rsnNv = s.sync.nextRsn - 1) ∧
    ((hubOf s h).role = .secondary → (hubOf s h).pwr.warn = true → (hubOf s h).pwr.pin = true → (hubOf s h).pwr.flushed = true → exec (.powerRideThrough h) s =
      .next (ended s (keyPoll (settleDue performHeld
        (raise (evAt evPowerRideThrough (hubSite h) [(1, hubNum h), (8, (hubOf s h).time - (hubOf s h).pwr.since), (4, s.cmd.held.length), (4, heldRequests s)])
        (modHub h (fun x => { x with pwr := { x.pwr with warn := false } }) s)))))) ∧
    ((hubOf s h).role ≠ .down → (hubOf s h).rstLow = false → (hubOf s h).railLow = false → exec (.hubRailLow h reading) s =
      .next (ended s (raise (fromSrc 4 (evAt evHubRailLow (hubSite h) [(1, hubNum h), (4, reading.toNat)])) (modHub h (fun x => { x with railLow := true }) s)))) ∧
    ((hubOf s h).role ≠ .down → (hubOf s h).rstLow = false → (hubOf s h).railLow = true → exec (.hubRailOk h ns) s =
      .next (ended s (raise (fromSrc 4 (evAt evHubRailOk (hubSite h) [(1, hubNum h), (8, ns)])) (modHub h (fun x => { x with railLow := false }) s)))) ∧
    ((hubOf s h).rstLow = true → exec (.powerFailWarn h) s = .next (ended s s) ∧ exec (.hubRailLow h reading) s = .next (ended s s) ∧
      exec (.hubRailOk h ns) s = .next (ended s s)) ∧
    exec (.hubRailCollapse h) s = .next (ended s (goDown h (modHub h (fun x => { x with railFell := true }) s))) ∧
    ((war s p).alive = true → ∃ t, exec (.wardenSupplyLoss p) s = .next (ended s (match serving (waferCheck t) with | some g => loadDetour g (waferCheck t) | none => waferCheck t)) ∧
      exec (.wardenInteriorStop p) s = exec (.wardenSupplyLoss p) s ∧
      (war t p).alive = false ∧ (war t p).stopped = true ∧ (war t p).ch0.fenceReq = true ∧ (war t p).ch1.fenceReq = true ∧ (war t p).ch0.drainErr = true ∧
      (war t p).ch1.drainErr = true ∧ (war t p).lnkFence = true ∧ (war t p).pmap = 0 ∧ (war t p).ch0.bankEn = 0xFFFFFFFFFFFFFFFF ∧ (war t p).ch1.bankEn = 0xFFFFFFFFFFFFFFFF ∧ (war t p).droop.req = false ∧
      (war t p).staging = [] ∧ (war t p).evs = [] ∧ (war t p).shdQ = [] ∧ (war t p).patBuf = [] ∧ (war t p).patNext = none ∧ (war t p).heldW = [] ∧ (war t p).haltReq = false ∧ (war t p).pcsWait = [] ∧ (war t p).reset.wafer = false ∧
      nodeOfPart p ∈ t.vein.nodesOut ∧
      (∀ r, r ≠ p → war t r = war s r) ∧ t = { s with wardens := t.wardens, vein := { s.vein with nodesOut := t.vein.nodesOut } })

/-- R324 to R328, R337: droop windows open on an unmasked input, extend, close and mark; the stretch handshake; held work; stuck sensors. That the
sender says when an interval has passed, and which held piece goes, are the model's choice, and what a masked input reads when the unmasked ones
clear is open (log entries 3, 72, 74 and 164). -/
def Obligations.DroopEvents : Prop :=
  ∀ (p : Nat) (droop : BitVec 8) (margin : BitVec 32) (s : State),
    ((war s p).alive = true →
      (((droop ++ margin : BitVec 40) &&& ~~~(war s p).droop.mask) = 0 →
        exec (.droopWindowOpen p droop margin) s = .next (ended s (modDroop p (fun d => { d with inputs := d.inputs ||| (droop ++ margin) }) s))) ∧
      (((droop ++ margin : BitVec 40) &&& ~~~(war s p).droop.mask) ≠ 0 → (war s p).droop.open_ = false →
        let u := modW p (fun w => { w with droop := { w.droop with open_ := true, openAt := w.timer, closing := false, opened := w.droop.opened ||| liveInputs w.droop } })
          (modDroop p (fun d => { d with inputs := d.inputs ||| (droop ++ margin) }) s)
        exec (.droopWindowOpen p droop margin) s = .next (ended s (if (war s p).droop.order then u else openEffect p u))) ∧
      (((droop ++ margin : BitVec 40) &&& ~~~(war s p).droop.mask) ≠ 0 → (war s p).droop.open_ = true →
        exec (.droopWindowOpen p droop margin) s = .next (ended s
          (modDroop p (fun d => { d with closing := false }) (modDroop p (fun d => { d with inputs := d.inputs ||| (droop ++ margin) }) s)))) ∧
      (let left := fun (d : Droop) => d.inputs &&& d.mask &&& (freeRead s).1.setWidth 40
       let u := modDroop p (fun d => { d with inputs := left d, stuck := d.stuck &&& left d }) (freeRead s).2
       exec (.droopInputClear p) s = .next (ended s (if (war s p).droop.open_ then modDroop p (fun d => { d with closing := true }) u else u))) ∧
      (∀ level, level = true ∨ (war s p).droop.again = false → exec (.stretchAckChange p level) s = .next (ended s (modDroop p (fun d => { d with ack := level }) s)))) ∧
    ((war s p).droop.open_ = true → (war s p).droop.closing = true → ∃ u t, exec (.droopWindow p) s = .next t ∧
      t = ended s (windowEvent p (if (war s p).droop.order then u else closeEffect p u)) ∧ u = modDroop p (fun _ => (war u p).droop) s ∧
      (war u p).droop.open_ = false ∧ (war u p).droop.closing = false ∧ (war u p).droop.sinceEv = (war s p).droop.sinceEv + 1 ∧
      ((war s p).droop.order = true ∨ (war s p).patNext = none ∧ (∀ src, .slice src ∉ (war s p).heldW) →
        (war t p).droop.open_ = false ∧ (war t p).droop.closing = false ∧
        ((war s p).droop.order = false → (war t p).droop.req = false ∧ (war t p).heldW = []))) ∧
    (windowOpen (war s p) = false → exec (.markingEnd p) s = .next (ended s (modDroop p (fun d => { d with marking := false }) s))) ∧
    (∀ bit, bit < 40 → (war s p).droop.inputs.getLsbD bit = true → (war s p).droop.stuck.getLsbD bit = false → exec (.powerSensorStuck p bit) s =
      .next (ended s (raiseW p (evAt evPowerSensorStuck (inputSite p bit) [(4, inputSite p bit)]) (modDroop p (fun d => { d with stuck := setBit d.stuck bit true }) s)))) ∧
    ((war s p).droop.req = true → (war s p).droop.ack = false → (war s p).droop.gaveUp = false → exec (.stretchNoAck p) s =
      .next (ended s (raiseW p (evAt evStretchNoAck (partSite p) [(2, p)]) (modDroop p (fun d => { d with gaveUp := true }) s)))) ∧
    (∀ g fr d r, (war s p).heldW = .disp g fr d :: r → (war s p).halt = none → exec (.droopHoldExpiry p) s =
      .next (ended s (enqueue p g d (modW p (fun w => { w with heldW := r }) s))) ∧
      ((war s p).alive = true → chanFree (war s p) g = true → exec (.droopHoldExpiry p) s = .next (ended s (drive (.disp p g d.kind d.dst d.tile) (modW p (fun w => { w with heldW := r }) s))))) ∧
    (∀ src r, (war s p).heldW = .slice src :: r → (war s p).halt = none → exec (.droopHoldExpiry p) s = .next (ended s (driveSlice p src (modW p (fun w => { w with heldW := r }) s)))) ∧
    (∀ c r, (war s p).heldW = .swap c :: r → (war s p).halt = none → exec (.droopHoldExpiry p) s =
      .next (ended s (modClu p c (fun k => { k with holdOver := true }) (modW p (fun w => { w with heldW := r }) s))))


/-! ### Leases, claims and roles (R21, R22, R293), the mirror (R19) and the Vein (R25 to R29, R292) -/

/-- R21, R22, R303: a warden starts with its straps and its seeds, and nothing of another warden changes. Leases are renewed, lapse and expire; a hub
that falls below a quorum serves no more. A warden grants its lease to a claimer only where it holds none. That the sender says when an interval has
passed, and that a hub without quorum settles in the same step, are the model's choice (log entries 3 and 100). -/
def Obligations.WardenEvents : Prop :=
  ∀ (h : HubId) (p : Nat) (inp : WardenIn) (s : State),
    (p ≤ 97 → (war s p).alive = false → (war s p).stopped = false →
      ∃ t, exec (.wardenStart p inp) s = .next t ∧ (war t p).alive = true ∧ (war t p).linkBase = inp.linkBase % 64 ∧ (war t p).linkCount = inp.linkCount % 16 ∧
        (∀ i, i < 21 → tfind (war t p).prng i = some ((inp.seeds[i]?).getD 0)) ∧ (war t p).lease = (war s p).lease ∧
        nodeOfPart p ∉ t.vein.nodesOut ∧ (∀ r, r ≠ p → war t r = war s r) ∧ t.cmd = s.cmd ∧ t.strata = s.strata) ∧
    (isServing (hubOf s h) = true → claimable s p = true → (war s p).lease = some h →
      exec (.leaseRenewal h p) s = .next (ended s (modHub h (fun x => { x with leases := tset x.leases p x.time }) (modW p (fun w => { w with lapsed := false }) s)))) ∧
    ((hubOf s h).leases.any (fun e => e.1 = p) = true →
      let u := modHub h (fun x => { x with leases := tdel x.leases p }) s
      exec (.primaryLeaseExpiry h p) s = .next (ended s
        (if isServing (hubOf u h) && !hasQuorum u h then settleRole (other h) (settleRole h (setRole h .starting u)) else u))) ∧
    ((war s p).lease = some h →
      let u := modW p (fun w => { w with lease := none, lapsed := true, lapseAt := w.timer }) s
      ((hubOf s h).leases.any (fun e => e.1 = p) = false → exec (.leaseLapse p) s = .next (ended s u)) ∧
      ((hubOf s h).leases.any (fun e => e.1 = p) = true → exec (.leaseLapse p) s = .next (ended s (dropLease h p u)))) ∧
    (inFlight (.claim h p) s = true → claimable s p = true → (hubOf s h).role = .claiming →
      ((war s p).lease.isSome = true → exec (.primacyClaim h p) s = .next (ended s (recv (.claim h p) s))) ∧
      ((war s p).lease = none → exec (.primacyClaim h p) s = .next (ended s
        (modHub h (fun x => { x with leases := tset x.leases p x.time }) (settleEntries p (modW p (fun w => { w with lease := some h, lapsed := false }) (idleTime p (recv (.claim h p) s)))))))) ∧
    (serving s = some h → hasQuorum s h = false → quorumCheck s = settleRole (other h) (settleRole h (setRole h .starting s))) ∧
    (serving s = some h → hasQuorum s h = true → quorumCheck s = s) ∧ (serving s = none → quorumCheck s = s)

/-- R19, R21, R265, R293: a claim goes to every warden that may grant it, is withdrawn where no quorum came, ends the hub at its third withdrawal, and
a quorum makes a claimer with no stale region Primary, or Sole where its peer is Down, and the first to take the role confirms the release sequence;
the peer is probed, declared failed, and mirrored to again. That the sender says when an interval has passed, and when a region is stale, are the
model's choice (log entries 3, 81, 100 and 126). -/
def Obligations.RoleEvents : Prop :=
  ∀ (h : HubId) (cause : Nat) (s : State),
    let noClaims := s.net.filter (fun m => match m with | .claim g _ => g ≠ h | _ => true)
    ((hubOf s h).role = .claiming → exec (.claimTick h) s = .next (ended s (sendClaims h s))) ∧
    ((hubOf s h).role = .claiming → hasQuorum s h = false →
      let u := modHub h (fun x => { x with withdrawals := x.withdrawals + 1, leases := [], mayClaim := false })
        (raise (evAt evClaimWithdrawn (hubSite h) [(1, hubNum h), (4, (hubOf s h).leases.length), (4, (hubOf s h).withdrawals + 1)]) { s with net := noClaims })
      exec (.claimWithdrawn h) s = .next (ended s
        (if 3 ≤ (hubOf s h).withdrawals + 1 then goDown h (setRole h .starting u) else settleRole h (setRole h .starting u)))) ∧
    ((hubOf s h).role = .starting → (hubOf s h).started = true →
      exec (.claimRetry h) s = .next (ended s (settleRole h (modHub h (fun x => { x with mayClaim := true }) s)))) ∧
    ((hubOf s h).role = .claiming → (hubOf s h).stale ≠ [] → exec (.claimQuorum h) s = .next (ended s s)) ∧
    ((hubOf s h).role = .claiming → (hubOf s h).stale = [] → hasQuorum s h = true → serving s = none →
      let role : Role := if (hubOf s (other h)).role = .down then .sole else .primary
      let u := modHub h (fun x => { x with withdrawals := 0, mayClaim := true }) { s with net := noClaims }
      let v := if s.boot.up then takeOver h role u else powerOrders h (slotsMissing (bringUp h (confirm h (firstRecords h (takeRegs h none (setRole h role u))))))
      (hubOf v h).role ≠ .down → exec (.claimQuorum h) s = .next (ended s (settleRole (other h) { v with boot := { v.boot with lastServ := some h } }))) ∧
    ((hubOf s h).role = .primary ∨ (hubOf s h).role = .secondary → exec (.peerProbe h) s = .next (ended s (drive (.peerProbe h) s))) ∧
    (cause = 1 ∨ cause = 2 → (hubOf s h).role = .primary → exec (.hubFailover h cause) s = .next (ended s (recollect h (mirFlush (setRole h .sole
      (raise (evAt evHubFailover (hubSite h) [(1, hubNum h), (1, cause), (1, 5)]) (modHub h (fun x => { x with peerFailed := true }) s))))))) ∧
    (cause = 1 ∨ cause = 2 → (hubOf s h).role = .secondary →
      let u := modHub h (fun x => { x with peerFailed := true }) s
      exec (.hubFailover h cause) s = .next (ended s (beginClaim h (irqBit h 9
        { u with strata := { s.strata with hubHeld := s.strata.hubHeld ++ [(h, evAt evHubFailover (hubSite h) [(1, hubNum h), (1, cause), (1, 2)])] } })))) ∧
    ((hubOf s h).role = .sole → (hubOf s (other h)).role = .secondary →
      exec (.peerSecondary h) s = .next (ended s (recollect h (setRole h .primary (modHub h (fun x => { x with peerFailed := false }) s)))))

/-- R19, R22, R34, R250, R263: the Secondary takes the oldest mirror write and acknowledges it; each acknowledgement lets the Primary do what waited
for it. That a write is one item in flight is the model's choice (log entry 13). -/
def Obligations.MirrorEvents : Prop :=
  ∀ (h : HubId) (i : MItem) (rest : List MItem) (rsn : Nat) (s : State),
    (s.mir.out = i :: rest → (hubOf s h).role = .secondary →
      exec (.mirrorWrite h) s = .next (ended s (mirApply i (modMir (fun m => { m with out := rest, acks := m.acks ++ [i] }) s)))) ∧
    (s.mir.acks.find? (fun i => !isRelItem i) = some i → (hubOf s h).role = .primary →
      exec (.mirrorAck h) s = .next (ended s (mirActs i (modMir (fun m => { m with acks := m.acks.erase i }) s)))) ∧
    (∀ r, MItem.release rsn ∈ s.mir.acks → waitingRel s rsn = some r →
      let u := modMir (fun m => { m with acks := m.acks.erase (.release rsn) }) s
      let v := if (gatherOf s r.obj).releasing = some rsn then commitRelease r u else u
      ((∃ h, serving s = some h ∧ hasQuorum s h = true) → exec (.releaseAck rsn) s =
        .next (ended s (sendReleases r { v with sync := { v.sync with relWait := v.sync.relWait.filter (fun r => r.rsn ≠ rsn) } }))) ∧
      ((∀ h, serving s = some h → hasQuorum s h = false) → exec (.releaseAck rsn) s = .next (ended s s)) ∧
      mirApply (.release rsn) s = modMir (fun m => { m with rels := tset m.rels r.obj r }) (commitRelease r s)) ∧
    (∀ q v, (mirApply (.sqHead q v) s).mir = s.mir ∧ (queueOf (mirApply (.sqHead q v) s) q).sqHeadMir = v) ∧
    (∀ o n p num, mirApply (.sem o n p num) s = mirCount o s ∧ mirActs (.sem o n p num) s = send (.postAck p num) (postActs o s) ∧
      (hasSecondary s = true → tfind (mirCount o s).mir.sems o = some ((objOf s o).count + mirroredPosts s o)) ∧
      ((objOf s o).type = 2 → (objOf s o).state ≠ 4 →
        ((objOf s o).count < 0xFFFFFFFF → postActs o s = writeCount o ((objOf s o).count + 1) s) ∧
        ((objOf s o).count = 0xFFFFFFFF → postActs o s = semSaturated o (refusePost o s)))) ∧
    (∀ o e n, tfind (mirApply (.attempt o e n) s).mir.attempts o = some (e, n)) ∧
    (∀ p n, (p, n) ∈ (mirApply (.event p n) s).mir.events ∧ mirActs (.event p n) s = send (.evAck p n) s)

/-- R25 to R29, R292, R377: a node delivers a flit that is for it and sends any other on its route; a trace packet that does not fit the input's
buffer is dropped whole, with its record, and counted; a refused flit is sent again, once. No flit of classes 0 to 3 is dropped: one with no live
route, and one refused a second time, waits at its node. The order of a buffer, which record a packet carried, and what becomes of a flit refused
twice, are the model's choice (log entries 47, 48, 125, 127, 128 and 170). -/
def Obligations.VeinEvents : Prop :=
  ∀ (n port : Nat) (f : Flit) (s : State), nodeUp s n = true →
    (f.cls < 4 → port ≤ 4 → f.dst < 100 → (port, f) ∉ (nodeOf s n).resent →
      (f.dst = n → exec (.veinFlit n port f) s = .next (ended s (drive (.deliver n f) s))) ∧
      (∀ i vc, f.dst ≠ n → routeFlit s n f = some (i, vc) → exec (.veinFlit n port f) s =
        .next (ended s (drive (.flit n i (if f.vc = vc then f else { f with vc, ecc := Config.flitEcc f.cls vc f.data })) s))) ∧
      (f.dst ≠ n → routeFlit s n f = none → exec (.veinFlit n port f) s = .next (ended s (holdFlit n f s)))) ∧
    (f.cls = 4 → port = 4 → f.dst < 100 → f.dst ≠ n → f.head = true → (port, f) ∉ (nodeOf s n).resent → 512 < tget 0 (nodeOf s n).bufs port + f.len →
      exec (.veinFlit n port f) s = .next (ended s (losePacket f (modNode n (fun v => { v with
        dropping := insertOnce v.dropping port, drops := tmod (0, 0) v.drops f.src (fun d => (d.1 + 1, d.2 + 16 * f.len)) }) s)))) ∧
    (∀ m i, neighbour n port = some m → linkUp s n m = true → portTo m n = some i → tget [] (nodeOf s n).refused port = [] →
      let u := modNode n (fun v => { v with refused := tput [] v.refused port [nodeTime s n] }) s
      ((port, f) ∉ (nodeOf s n).resent → exec (.veinFlitRefused n port f) s =
        .next (ended s (drive (.flit m i f) (modNode n (fun v => { v with resent := v.resent ++ [(port, f)] }) u)))) ∧
      ((port, f) ∈ (nodeOf s n).resent → exec (.veinFlitRefused n port f) s =
        .next (ended s (holdFlit m f (modNode n (fun v => { v with resent := v.resent.erase (port, f) }) u)))))


/-! ### Resets, recovery, links, banks and keys (chapters 9, 11, 12, 14) -/

/-- R23, R57, R69, R270, R277, R281, R283, R285, R472: a reset quiesces, fences and drains its channels, is ordered, acknowledged, and its stages end
or fail; a warden whose hold expires fences on its own, and a failed warden is entered and fenced. That the sender says when an interval has passed,
and stamps of escalated resets, are the model's choice (log entries 3, 101 and 102). -/
def Obligations.ResetEvents : Prop :=
  ∀ (p m : Nat) (s : State), m < 2 →
    ((war s p).alive = false → ∀ site : BitVec 15, ∀ i ∈ [Instr.fenceQuiesceEnd p, .memoryFenceAck p m, .fenceAckTimeout p m, .memoryDrained p m, .drainTimeout p m,
      .drainStuck p m, .transitEmptyWait p, .resetAck p site], exec i s = .next (ended s s)) ∧
    ((war s p).alive = true →
    ((resetOf s p).quiesce = true → ∃ t, exec (.fenceQuiesceEnd p) s = .next t ∧ (war t p).ch0.fenceReq = true ∧ (war t p).ch1.fenceReq = true ∧
      (war t p).ch0.drain = 1 ∧ (war t p).ch1.drain = 1 ∧ (war t p).ch0.drainErr = false ∧ (war t p).lnkFence = true ∧ (war t p).reset = { (war s p).reset with quiesce := false } ∧
      (∀ r, r ≠ p → war t r = war s r)) ∧
    ((chanOf s (2 * p + m)).fenceReq = true → (chanOf s (2 * p + m)).drain = 1 →
      exec (.memoryFenceAck p m) s = .next (ended s (modChan (2 * p + m) (fun k => { k with fenceAck := true, drain := 2 }) s))) ∧
    ((chanOf s (2 * p + m)).fenceReq = true → (chanOf s (2 * p + m)).drain ≠ 1 → (resetOf s p).step = 3 → (chanOf s (2 * p + m)).ready = false →
      exec (.memoryFenceAck p m) s = .next (ended s (step3Check p (modChan (2 * p + m) (fun k => { k with fenceAck := true, ready := true }) s)))) ∧
    ((chanOf s (2 * p + m)).drain = 1 → exec (.fenceAckTimeout p m) s = .next (ended s (drainCheck p (modChan (2 * p + m) (fun k => { k with drain := 4, stuck := 1 }) s)))) ∧
    ((chanOf s (2 * p + m)).fenceReq = true →
      let u := modChan (2 * p + m) (fun k => { k with drained := true }) s
      ((chanOf s (2 * p + m)).drain = 2 ∨ (chanOf s (2 * p + m)).drain = 3 →
        exec (.memoryDrained p m) s = .next (ended s (drainCheck p (modChan (2 * p + m) (fun k => { k with drain := 4, stuck := 0 }) u)))) ∧
      ((chanOf s (2 * p + m)).drain ≠ 2 → (chanOf s (2 * p + m)).drain ≠ 3 → exec (.memoryDrained p m) s = .next (ended s u))) ∧
    ((chanOf s (2 * p + m)).drain = 2 → exec (.drainTimeout p m) s = .next (ended s (modChan (2 * p + m) (fun k => { k with drain := 3, drainErr := true }) s))) ∧
    ((chanOf s (2 * p + m)).drain = 3 → exec (.drainStuck p m) s = .next (ended s (drainCheck p (modChan (2 * p + m) (fun k => { k with drain := 4, stuck := 2 }) s)))) ∧
    ((resetOf s p).transit = true → exec (.transitEmptyWait p) s = .next (ended s (orderReset p s)) ∧
      ∃ sl, Out.rst p sl 0x1F ∈ (orderReset p s).outs ∧ (war (orderReset p s) p).reset.step = 2) ∧
    ((resetOf s p).step = 2 → exec (.resetAck p 0x7FFF) s = .next (ended s (resetDone p s)))) ∧
    (p ∈ s.boot.detour → exec (.detourTimeout p) s = .next (ended s (beginWaiting p (modReset p (fun r => { r with deepLost := true })
      { s with boot := { s.boot with detour := s.boot.detour.filter (· ≠ p) } })))) ∧
    ((resetOf s p).step ≠ 0 ∨ (resetOf s p).done ≠ none → (resetOf s p).wafer = false → (resetOf s p).holdReset = false → (resetOf s p).failDue = none →
      (resetOf s p).step ≠ 6 ∨ s.cairn.state = 0 →
      let at_ := if (resetOf s p).done.isSome then 6 else (resetOf s p).step
      let again := !(resetOf s p).retry
      let u := raise (evAt evRecoveryFail (partSite p) [(4, partSite p), (1, at_), (1, flag again)]) s
      (serving s ≠ none → exec (.recoveryFail p) s = .next (ended s
        (if again then beginPartition p 2 3 (resetOf s p).jobs true true (if (resetOf s p).bringup then countReset p u else u) else stayFenced p u))) ∧
      (serving s = none → exec (.recoveryFail p) s = .next (ended s (keepDue (.recovery p) (modReset p (fun r => { r with failDue := some at_ }) s))))) ∧
    ((war s p).alive = true → (war s p).lease = none → (war s p).lapsed = true → (resetOf s p).holdReset = false →
      exec (.wardenHoldExpired p) s = .next (ended s (modReset p (fun r => { r with holdReset := true, step := 1, quiesce := true, level := none, startAt := (war s p).timer })
        (raiseW p (evAt evWardenHoldExpired (partSite p) [(2, p), (8, 10 * (war s p).lapseAt), (8, 10 * (war s p).timer)]) (fencePart p s))))) ∧
    (∀ cause, (war s p).failed = false → (serving s).isSome = true →
      let u := forEach (parts.filter (fun q => q ≠ p && (war (addEntry (partSite p) 14 7 4 false (modW p (fun w => { w with failed := true }) s)) q).alive))
        (fun q s => sendEntry q (partSite p) stQuarantined s) (addEntry (partSite p) 14 7 4 false (modW p (fun w => { w with failed := true }) s))
      let v := raise (evAt evWardenFailed (partSite p) [(2, p), (1, cause), (4, (endJobsOn p u).1)]) (endJobsOn p u).2
      exec (.wardenFailed p cause) s = .next (ended s (waferCheck (stayFenced p (forEach ((v.tst.caps.filter (fun e => e.2.warden = p)).map (·.1)) abandonCap v)))))

/-- R12, R57, R229, R289, R304 to R314, R472, Table 12.6: the self-test, the firmware of a partition's control cores, the join and the end of
probation. KIND and LAYER of a failing self-test are the model's choice (log entries 3 and 103). -/
def Obligations.BringUpEvents : Prop :=
  ∀ (p : Nat) (digest : BitVec 384) (s : State),
    ((war s p).alive = true →
    ((resetOf s p).step = 4 → exec (.selfTestDone p [] []) s = .next (ended s (enterFirmware p s))) ∧
    (∀ i, (resetOf s p).step = 4 → okSite s (engineSite p i) = true → hasEntry s (engineSite p i) = false → exec (.selfTestDone p [i] []) s =
      .next (ended s (enterFirmware p (withdrawEngine p i 3 (if (resetOf s p).bringup then 4 else 3) 4 s)))) ∧
    (∀ i, (resetOf s p).step = 4 → okSite s (engineSite p i) = false → exec (.selfTestDone p [i] []) s = .next (ended s (enterFirmware p s))) ∧
    (∀ i, (resetOf s p).step = 4 → okSite s (unitSite p 4 i) = true → exec (.selfTestDone p [] [i]) s =
      .next (ended s (enterFirmware p (addEntry (unitSite p 4 i) 3 (if (resetOf s p).bringup then 4 else 3) 4 false s)))) ∧
    ((resetOf s p).step = 5 → (resetOf s p).fwStart = true → exec (.resetAck p 0x7FBF) s = .next (ended s (enterJoin p s))) ∧
    ((resetOf s p).step = 5 → (resetOf s p).fwCheck = true →
      let u := modReset p (fun r => { r with fwCheck := false, fwAsked := false }) s
      (some digest = (resetOf s p).fwMan.map (·.digest) →
        exec (.corefwDigest p digest) s = .next (ended s (drive (.rst p 0x3FD 0x1F) (modReset p (fun r => { r with fwStart := true }) u)))) ∧
      (some digest ≠ (resetOf s p).fwMan.map (·.digest) → (resetOf s p).fwRetry = false →
        exec (.corefwDigest p digest) s = .next (ended s (enterFirmware p (modReset p (fun r => { r with fwRetry := true })
          (raise (evAt evCorefwRetry (partSite p) [(2, p), (48, digest.toNat)]) u))))) ∧
      (some digest ≠ (resetOf s p).fwMan.map (·.digest) → (resetOf s p).fwRetry = true →
        exec (.corefwDigest p digest) s = .next (ended s (recoveryFail p (raise (evAt evCorefwFail (partSite p) [(2, p), (1, 1)]) u)))))) ∧
    (∀ l, s.boot.gather = some l → mayBegin s = true → exec .corefwRequest s =
      .next (ended s (askFirmware (l.filter (fun p => (resetOf s p).step = 5)) { s with boot := { s.boot with gather := none } }))) ∧
    ((resetOf s p).step = 5 → (resetOf s p).fwAsked = true → (resetOf s p).fwCheck = false →
      exec (.corefwFail p) s = .next (ended s (recoveryFail p (raise (evAt evCorefwFail (partSite p) [(2, p), (1, 2)]) s)))) ∧
    ((war s p).alive = true → (resetOf s p).step = 6 → (resetOf s p).failDue = none → s.boot.device = 0 → s.cairn.state = 0 → (war s p).ch0.keyQ = [] → (war s p).ch1.keyQ = [] →
      (war s p).ch0.drained = true → (war s p).ch1.drained = true →
      let fast := (resetOf s p).bringup && fastStart s
      let u := joinOpen p fast (joinMap p s)
      (mayBegin s = false ∨ mapWaits s p = true → exec (.partitionJoin p) s = .next (ended s (keepDue (.join p) s))) ∧
      (mayBegin s = true → mapWaits s p = false → exec (.partitionJoin p) s = .next (ended s (judgeAll (keyPoll (startTestCheck p (modReset p (fun r => { r with deepLost := false })
        (joinReport p (resetOf s p) (joinClusters p fast u)))))))) ∧
      (war u p).probation = true ∧ (war u p).fastJoin = fast ∧ (war u p).startOpen = !fast ∧ (war u p).ch0.fenceReq = false ∧ (war u p).ch1.fenceReq = false ∧
      (war u p).lnkFence = false ∧ (war u p).ch0.drained = false ∧ (war u p).ch1.drained = false ∧ (war u p).reset.step = 0 ∧ (war u p).reset.level = none) ∧
    ((war s p).probation = true → (war s p).startOpen = false →
      (mayBegin s = true → exec (.probationEnd p) s = .next (ended s (endProbation p (joinPath (war s p)) s))) ∧
      (mayBegin s = false → exec (.probationEnd p) s = .next (ended s (keepDue (.probation p) s))))

/-- R58, R222, R278, R307, R336, R350: training of links and its failures, banks that power down and up, poisoned pages, key loads and scrub orders. A
warden that has stopped takes none of these inputs (R69). That the sender says when an interval has passed is the model's choice (log entries 3, 75
and 76). -/
def Obligations.LinkAndMemoryEvents : Prop :=
  ∀ (j p l m bank : Nat) (s : State),
    ((war s p).alive = false → ∀ (width : BitVec 2) (lanes : BitVec 8) (err : Option Nat),
      (linkPlace s j = some (p, l) → exec (.linkTrainDone j width lanes) s = .next (ended s s) ∧ exec (.linkTrainTimeout j) s = .next (ended s s) ∧ exec (.linkDown j) s = .next (ended s s)) ∧
      exec (.bankQuiesceEnd p bank) s = .next (ended s s) ∧ exec (.bankIdle p bank) s = .next (ended s s) ∧ exec (.bankOffWait p bank) s = .next (ended s s) ∧
      exec (.bankPowerOn p bank) s = .next (ended s s) ∧ exec (.keyLoadAck p m) s = .next (ended s s) ∧ exec (.scrubOrderDone p m err) s = .next (ended s s)) ∧
    ((lnk s j).trainReq = true → linkPlace s j = some (p, l) → (war s p).alive = true → ∀ (width : BitVec 2) (lanes : BitVec 8),
      (width ≠ 0 → exec (.linkTrainDone j width lanes) s = .next (ended s (trainDone j true (linkTrained j width lanes s)))) ∧
      ((lnk s j).attempts < 3 → (lnk s j).why ≠ 2 →
        let u := drive (.train j (lnk s j).limit) (modLink j (fun k => { k with attempts := k.attempts + 1 }) s)
        exec (.linkTrainDone j 0 lanes) s = .next (ended s u) ∧ exec (.linkTrainTimeout j) s = .next (ended s u)) ∧
      ((lnk s j).attempts < 3 → (lnk s j).why = 2 →
        let u := drive (.retrain j) (modLink j (fun k => { k with attempts := k.attempts + 1, retrains := k.retrains + 1 }) s)
        exec (.linkTrainDone j 0 lanes) s = .next (ended s u) ∧ exec (.linkTrainTimeout j) s = .next (ended s u)) ∧
      (3 ≤ (lnk s j).attempts → exec (.linkTrainDone j 0 lanes) s = .next (ended s (trainDone j false (linkOut j 3 s))) ∧
        exec (.linkTrainTimeout j) s = .next (ended s (trainDone j false (linkOut j 3 s))))) ∧
    (linkPlace s j = some (p, l) → (war s p).alive = true → (war s p).lnkFence = false → (lnk s j).trainReq = false → (lnk s j).trainMax ≠ 0 →
      exec (.linkDown j) s = .next (ended s (drive (.retrain j) (modLink j (fun k => { k with trainReq := true, attempts := 1, why := 2, retrains := k.retrains + 1, width := 0 }) s)))) ∧
    (∀ (kind lane : BitVec 3) (cnt : BitVec 16), linkPlace s j = some (p, l) → (war s p).alive = true → kind.toNat ≤ 4 → kind ≠ 3 → exec (.linkErrorRecord j kind lane cnt) s =
      .next (ended s (modLink j (fun k => { k with errs := tmod 0 k.errs kind.toNat (fun n => satTo 4294967295 (n + cnt.toNat)) }) s))) ∧
    ((war s p).alive = true → exec (.bankQuiesceEnd p bank) s = .next (ended s (modBankOff p bank (fun b => if b.idle then b else { b with idle := true, since := (war s p).timer }) s))) ∧
    ((war s p).alive = true → (war s p).bankOff.any (fun b => b.bank = bank && b.idle) = true →
      let u := modChan (2 * p + bank / 64) (fun k => { k with bankEn := setBit k.bankEn (bank % 64) false, bankOn := setBit k.bankOn (bank % 64) false })
        (modW p (fun w => { w with bankOff := w.bankOff.filter (fun b => b.bank ≠ bank) }) s)
      exec (.bankIdle p bank) s = .next (ended s (finish 0x1003 (bankSite p bank) stDone []
        (if defState? s (bankSite p bank) = some 5 then ownEntry p (bankSite p bank) 5 u else u)))) ∧
    (∀ b, (war s p).alive = true → (war s p).bankOff.find? (fun b => b.bank = bank && b.idle && !b.told) = some b → exec (.bankOffWait p bank) s =
      .next (ended s (raiseW p (evAt evBankOffWait (bankSite p bank) [(4, bankSite p bank), (8, 10 * ((war s p).timer - b.since))])
        (modBankOff p bank (fun b => { b with told := true }) s)))) ∧
    ((war s p).alive = true → bank < 128 → (chanOf s (2 * p + bank / 64)).bankEn.getLsbD (bank % 64) = true → (chanOf s (2 * p + bank / 64)).bankOn.getLsbD (bank % 64) = false →
      exec (.bankPowerOn p bank) s = .next (ended s (ownEntry p (bankSite p bank) ((defState? s (bankSite p bank)).getD stInService)
        (modChan (2 * p + bank / 64) (fun k => { k with bankOn := setBit k.bankOn (bank % 64) true }) s)))) ∧
    (∀ page : BitVec 28, m < 2 → bank < 64 → page.toNat < 5505024 → hearsPart s p = true →
      let site := bankSite p (64 * m + bank)
      let hits := ((tget [] s.defects.bankHits site).filter (fun e => decide (now s < e + dayNs))) ++ [now s]
      let u := nvWrite nvCounters (modDefects (fun d => { d with bankHits := tset d.bankHits site (lastN 4 hits) }) s)
      exec (.memoryPoison p m page bank) s = .next (ended s (if 4 ≤ hits.length then addEntry site 7 5 4 false u else u))) ∧
    ((war s p).alive = true → m < 2 → ∀ c tag op key rest, (chanOf s (2 * p + m)).keyQ = (c, tag, op, key) :: rest → op ≠ 2 → (chanOf s (2 * p + m)).keyBeat < 3 →
      exec (.keyLoadAck p m) s = .next (ended s (driveKey (2 * p + m) (modChan (2 * p + m) (fun k => { k with keyBeat := k.keyBeat + 1 }) s)))) ∧
    ((war s p).alive = true → m < 2 → ∀ n cs, (chanOf s (2 * p + m)).pass = some (n, cs) → n < 83 → exec (.scrubOrderDone p m none) s =
      .next (ended s (drive (.scrub p m ((n + 1) * 65536) 65536) (modChan (2 * p + m) (fun k => { k with pass := some (n + 1, cs) }) s))))


/-! ### Sentry maps, certificates and shadows (chapters 2, 4, 5, 9) -/

/-- R50: a lookup of a site code that the map does not hold, or that has a reserved value in any field, is answered with 00, and no event is raised;
in every other case of a live warden whose map is in force, it is answered from the map (R46). -/
def Obligations.SentryLookup : Prop :=
  ∀ (p ch : Nat) (site : BitVec 32) (s : State),
    ((mapHolds p site.toNat = false ∨ okSite s site.toNat = false) → ∃ t, exec (.sentryLookup p ch site) s = .next t ∧
      t.outs = .answer p ch 0 :: s.outs ∧ t.strata = s.strata ∧ t.wardens = s.wardens) ∧
    ((war s p).alive = true → (war s p).valid = true → okSite s site.toNat = true → mapHolds p site.toNat = true →
      exec (.sentryLookup p ch site) s = .next (ended s (drive (.answer p ch (answerMap (mapNow (war s p)) p site.toNat)) s)))

/-- R88: a cluster that holds a core in Probation, or that lies in a partition in probation, has its fraction after R87 replaced by the lesser of 32
and four times it, under every profile. -/
def Obligations.ProbationFraction : Prop :=
  ∀ (f : Profile) (g p c : Nat) (s : State),
    (((clusterIn s p c).prob = true ↔ partState s p = 1 ∨ ∃ i, i < 17 ∧ coreState s p (srcOf c i) = 1)) ∧
    (stepsProb f g (clusterIn s p c) = if (clusterIn s p c).prob then min 32 (4 * stepsFor f g (clusterIn s p c)) else stepsFor f g (clusterIn s p c)) ∧
    stepsProb f g (clusterIn s p c) ≤ max 32 f.ceil

/-- R24, R49, R51, R216, R227 to R229, R283, R472, R121: decisions and batches take effect at the warden and are acknowledged; a partition's field of
snt_pmap follows its entry; an acknowledgement lets the Primary write the other wardens' copies; the defect table is committed by one pointer update;
a governor value reaches its warden. A warden without hub contact changes no entry except to Fenced. Where a batch ends, what waited for it goes on.
That the sender says when an update arrives is the model's choice (log entries 3 and 13). -/
def Obligations.SentryEvents : Prop :=
  ∀ (p c : Nat) (site : BitVec 32) (s : State) (rest : List Msg),
    (∀ st, s.net = .sentry p site.toNat st :: rest → (war s p).alive = true → (war s p).lease = none → st ≠ stFenced →
      exec (.sentryEntryUpdate p site) s = .next (ended s (joinEnds s))) ∧
    (∀ st, s.net = .sentry p site.toNat st :: rest → (war s p).alive = true → (war s p).lease ≠ none ∨ st = stFenced →
      let u := { s with net := rest }
      let q := fun (v : State) => joinEnds (if isCoreSite site.toNat && decide (st = stQuarantined) then judgeAll v else v)
      (resetKeeps s p site.toNat = false → isCoreSite site.toNat = false ∨ st ≠ stSpare →
        exec (.sentryEntryUpdate p site) s = .next (ended s (q (send (.switched p false [(siteKey site.toNat, st)]) (setEntry p site.toNat st u))))) ∧
      (resetKeeps s p site.toNat = true → isCoreSite site.toNat = true → st ≠ stSpare →
        exec (.sentryEntryUpdate p site) s = .next (ended s (q (send (.switched p false [(siteKey site.toNat, st)])
          (modCore p (siteSrc site.toNat) (fun k => { k with before := some st }) u)))))) ∧
    (∀ st, (war s p).valid = true → isPartSite site.toNat = true → sitePart site.toNat < 98 →
      (war (setEntry p site.toNat st s) p).pmap = pmapField (mapPut (mapNow (war s p)) site.toNat st) (war s p).pmap (sitePart site.toNat)) ∧
    (∀ st, ((war s p).lease ≠ none → ownEntry p site.toNat st s = setEntry p site.toNat st s) ∧
      ((war s p).lease = none → (war (ownEntry p site.toNat st s) p).map0 = (war s p).map0 ∧ (war (ownEntry p site.toNat st s) p).map1 = (war s p).map1 ∧
        (war (ownEntry p site.toNat st s) p).entryDue = (war s p).entryDue ++ [(site.toNat, st)])) ∧
    (∀ es, (war s p).batch = some es → (war s p).alive = true →
      ((war s p).lease ≠ none → exec (.sentryBatch p) s = .next (ended s (joinEnds (if (war s p).reset.bringup ∧ (war s p).reset.step = 1
        then drive (.rst p 0x3FE 0x1F) (modReset p (fun r => { r with step := 2 }) (switchBatch p false s)) else switchBatch p false s)))) ∧
      ((war s p).lease = none → exec (.sentryBatch p) s = .next (ended s (joinEnds s))) ∧
      exec (.sntClkRestart p) s = exec (.sentryBatch p) s ∧
      (war (switchBatch p false s) p).valid = true ∧ (war (switchBatch p false s) p).batch = none ∧ (war (switchBatch p false s) p).gen = !(war s p).gen ∧
      (war (switchBatch p false s) p).map0 = (war (switchBatch p false s) p).map1 ∧
      (∀ x st, es = [(x, st)] → x ∉ (war s p).sticky → (war (switchBatch p false s) p).map0 = mapPut (mapNow (war s p)) x st)) ∧
    (∀ b es, s.net = .switched p b es :: rest → (serving s).isSome = true →
      let u := if b then modW p (fun w => { w with switches := (w.switches + 1) % 4294967296, switchRep := w.gen }) { s with net := rest } else { s with net := rest }
      exec (.sentrySwitchAck p) s = .next (ended s (joinsGoOn p (forEach (es.filter (fun e => sharedSite e.1 && decide (sitePart e.1 = p))) (fun e s =>
        forEach (parts.filter (fun q => q ≠ p && (war s q).alive)) (fun q s => sendEntry q e.1 e.2 s) s)
        (if b then sendDue p (war u p).mapDue u else u))))) ∧
    ((serving s).isSome = true → s.defects.dirty = true → ∃ t, exec .defectCommit s = .next t ∧ t.defects.committed = s.defects.tab ∧ t.defects.tab = s.defects.tab ∧
      t.defects.dirty = false ∧ t.defects.gen = !s.defects.gen ∧ t.defects.commits = s.defects.commits + 1) ∧
    (∀ n, s.net = .frac p c n :: rest → ∃ t, exec (.fractionUpdate p c) s = .next t ∧ tfind (war t p).frac c = some n ∧
      ((c ∈ (war t p).valProb) ↔ inProbation s p c = true) ∧ t.net = rest)

/-- R106 to R117, R127 to R133, R53, R110 to R113: what certificates, shadow certificates, timeouts, loss strobes, engine records and poison notices
do at their warden. A verdict that two rules give differently, fields that no report carries, and T's draws are the model's choice (log entries 39,
139, 140, 142, 143, 144 and 145). -/
def Obligations.ScreenEvents : Prop :=
  ∀ (p g rows : Nat) (src dst : BitVec 15) (idx : BitVec 7) (epoch tid : BitVec 32) (c r : BitVec 128) (s : State),
    (originalHeard s p g src.toNat epoch.toNat c →
      let e := epoch.toNat
      let site := coreSite p src.toNat
      let u := atVerdict p src.toNat e s
      let v := certVerdict c
      let failed := certEvent p src.toNat e c v false u
      (v = .clean ∨ v = .unchecked → exec (.certificate p g src epoch c) s =
        .next (ended s (settleReport p (outDown p e (drawTile p src.toNat e c (v = .unchecked) (war s p).droop.marking u))))) ∧
      (v = .poisoned → exec (.certificate p g src epoch c) s = .next (ended s (settleReport p (poisonEpoch p e site (certTid c) 1 u)))) ∧
      (v = .metaFault → exec (.certificate p g src epoch c) s = .next (ended s (settleReport p (noteFirst p
        { epoch := e, core := true, unit := src.toNat, id := certTid c, rslt := 4, data := 0, row := 1, attempt := attemptOf (war u p) e } (failTally p e fkCert site failed))))) ∧
      (v = .malformed ∨ v = .residue ∨ v = .checksum → exec (.certificate p g src epoch c) s = .next (ended s (settleReport p (openTriage p
        { kind := 1, tid := certTid c, epoch := e, o := src.toNat, sigO := certSig c, o2 := { core := src.toNat }, check := certCheck v, dev := certDev c, cert := c }
        (failTriage p e (certTid c) fkCert site failed)))))) ∧
    (hearsFrom s p g src.toNat = true → tallyFull s p epoch.toNat = true →
      exec (.certificate p g src epoch c) s = .next (ended s (settleReport p (refuseTally p epoch.toNat s)))) ∧
    (hearsFrom s p g src.toNat = true → isWithdrawn s p src.toNat = false →
      (∀ x, (war s p).pend.find? (fun x => x.epoch = epoch.toNat && x.tid = certTid c && x.target = src.toNat) = some x →
        exec (.shadowCertificate p g src epoch c) s = .next (ended s (settleReport p (judgeShadow p x c s)))) ∧
      ((war s p).pend = [] → (war s p).triages = [] → exec (.shadowCertificate p g src epoch c) s = .next (ended s (settleReport p
        (shadowRelease p src.toNat (certTid c) (modW p (fun w => { w with cnt := { w.cnt with orphan := w.cnt.orphan + 1 } }) s)))))) ∧
    (∀ x, (war s p).pend.find? (fun x => x.epoch = epoch.toNat && x.tid = tid.toNat && x.target = dst.toNat) = some x → x.again = true → (war s p).halt = none → undispatched s p dst.toNat tid.toNat = false →
      exec (.shadowTimeout p dst tid epoch) s = .next (ended s (settleReport p (failTally p epoch.toNat fkTimeout (coreSite p x.orig)
        (raiseW p (evAt evShadowTimeout (coreSite p x.orig) [(4, epoch.toNat), (4, tid.toNat), (4, coreSite p x.orig), (4, coreSite p x.first), (4, coreSite p x.target)])
          (modW p (fun w => { w with pend := w.pend.erase x, cnt := { w.cnt with timeout := w.cnt.timeout + 1 } }) s)))))) ∧
    (hearsPart s p = true → g < 20 → tallyFull s p epoch.toNat = false →
      let u := lossEpoch p epoch.toNat (openTally p epoch.toNat s)
      limDue (war u p).timer msTicks (tget {} (war u p).lost g) = true → exec (.certificateLoss p g epoch) s =
        .next (ended s (raiseW p (ev evCertLost [(2, p), (2, g), (4, epoch.toNat), (4, (tget {} (war u p).lost g).n + 1)])
          (modW p (fun w => { w with lost := tset w.lost g { last := some (war u p).timer } }) u)))) ∧
    (recordHeard s p epoch.toNat r → okSite s (engineSite p idx.toNat) = true →
      let e := epoch.toNat
      let site := engineSite p idx.toNat
      let u := outUp p e (openTally p e s)
      let failed := failTally p e fkCert site (engEvent p idx.toNat e r u)
      (engRslt r = 0 → exec (.engineRecord p idx epoch r rows) s = .next (ended s (settleReport p (outDown p e (engineRows p idx.toNat e r rows u))))) ∧
      (engRslt r = 7 → exec (.engineRecord p idx epoch r rows) s = .next (ended s (settleReport p (poisonEpoch p e site (engOpid r) 3 u)))) ∧
      (engRslt r ≠ 0 → engRslt r ≠ 7 → isInvariant r = false → exec (.engineRecord p idx epoch r rows) s = .next (ended s (settleReport p (noteFirst p
        { epoch := e, core := false, unit := idx.toNat, id := engOpid r, rslt := engRslt r, data := engData r,
          row := if engRslt r = 3 ∨ engRslt r = 4 then 1 else 0, attempt := attemptOf (war failed p) e } failed)))) ∧
      (engRslt r ≠ 0 → engRslt r ≠ 7 → isInvariant r = true → exec (.engineRecord p idx epoch r rows) s = .next (ended s (settleReport p (openTriage p
        { kind := 2, tid := engOpid r, epoch := e, o := idx.toNat, sigO := w64 (engData r), o2 := { core := idx.toNat, ordered := false }, check := 4,
          dev := engDev r, cert := r, attempt := attemptOf (war failed p) e } failed))))) ∧
    (srcOk src.toNat = true → hearsCore s p src.toNat = true → isWithdrawn s p src.toNat = false → tallyFull s p epoch.toNat = false →
      exec (.poisonNotice p src epoch) s = .next (ended s (poisonEpoch p epoch.toNat (coreSite p src.toNat) 0 2 (openTally p epoch.toNat s))))


/-! ### Rotation, tests, captures and samples (chapters 6, 8) -/

/-- R193 to R198, R256, R328, R472: a candidate's yield, or a withdrawn core's, asks for its swap, and waits for it in a droop window; the
acknowledgement moves the slot and tests the vacated core; a failed swap withdraws the former spare; the timers open an offer and test a spare, or
keep it due while none may begin, pass an offer, report a late yield and a debt; a replay order makes the warden's replay and strobes it when no slot
is vacated. That the sender says when an interval has passed, and which slot a step needs, are the model's choice (log entries 3, 123 and 133). -/
def Obligations.RotationEvents : Prop :=
  ∀ (p c d : Nat) (src obj : BitVec 15) (s : State),
    (yieldHeard s p src.toNat d → isWithdrawn s p src.toNat = false → (cluOf s p (src.toNat / 32)).rot = 1 →
      (cluOf s p (src.toNat / 32)).cand = some (src.toNat % 32) →
      (windowOpen (war s p) = false ∨ (cluOf s p (src.toNat / 32)).holdOver = true →
        exec (.yieldNotice p src) s = .next (ended s (swapRequest p (src.toNat / 32) (src.toNat % 32) d 0 0 s))) ∧
      (windowOpen (war s p) = true → (cluOf s p (src.toNat / 32)).holdOver = false →
        exec (.yieldNotice p src) s = .next (ended s (modW p (fun w => { w with heldW := insertOnce w.heldW (.swap (src.toNat / 32)) }) s)))) ∧
    (yieldHeard s p src.toNat d → isWithdrawn s p src.toNat = true → (cluOf s p (src.toNat / 32)).rot ≤ 1 →
      windowOpen (war s p) = false ∨ (cluOf s p (src.toNat / 32)).holdOver = true →
      exec (.yieldNotice p src) s = .next (ended s (swapRequest p (src.toNat / 32) (src.toNat % 32) d 2 0 s))) ∧
    (∀ sw, (war s p).swap = some sw →
      let t := srcOf sw.cluster sw.src_
      let u := afterSwap p sw s
      (sw.why = 0 → (coreOf u p t).quarSet = none → isWithdrawn u p t = false → exec (.swapAck p) s = .next (ended s (replayAll p
        ((if mayBegin u then startTest p t 0 else keepDue (.test p t)) (ownEntry p (coreSite p t) stTesting (modClu p sw.cluster (fun k => { k with rot := 3, cand := none }) u)))))) ∧
      (sw.why ≠ 0 → exec (.swapAck p) s = .next (ended s (replayAll p (modClu p sw.cluster (fun k => { k with rot := 6, cand := none }) u)))) ∧
      (let v := modClu p sw.cluster (fun k => { k with rot := 6, cand := none }) (withdrawCore p (srcOf sw.cluster sw.dst) 0x3FF 6 7 4
          (raiseW p (evAt evSwapFail (clusterSite p sw.cluster) [(4, clusterSite p sw.cluster), (2, sw.src_), (2, sw.dst)])
            (modW p (fun w => { w with swap := none }) s)));
       (coreOf v p t).quarSet = none → isWithdrawn v p t = false → sw.why ≠ 1 → (war s p).halt = none → exec (.swapFail p) s = .next (ended s (replayAll p v)))) ∧
    (hearsPart s p = true → (cluOf s p c).rot = 0 →
      exec (.rotationTimer p c) s = .next (ended s (if mayBegin s then openOffer p c s else keepDue (.offer p c) s))) ∧
    (∀ i, (cluOf s p c).rot = 0 → spareOf s p c = some d → (serving s).isSome = true → candidateOf s p c = some i →
      openOffer p c s = modClu p c (fun k => { k with rot := 1, cand := some i, offerAt := (war s p).timer, passed := false, late := false }) s) ∧
    (hearsPart s p = true → (cluOf s p c).rot = 0 → spareOf s p c = some d → exec (.spareTestDue p c) s = .next (ended s
      (if mayBegin s then startTest p (srcOf c d) 1 (modClu p c (fun k => { k with rot := 4 }) s) else keepDue (.spareTest p c) s))) ∧
    ((cluOf s p c).rot = 1 → (war s p).halt = none → exec (.offerPass p c) s = .next (ended s (modClu p c (fun k => { k with passed := true }) s))) ∧
    (∀ i j b, (cluOf s p c).rot = 1 → (cluOf s p c).cand = some i → (cluOf s p c).late = false → liveJob s p (srcOf c i) = some j →
      tfind s.test.yields j = some b → b ≠ 0xFFFFFFFF → (war s p).halt = none → exec (.yieldLate p c) s = .next (ended s (raiseW p
        { evJob evYieldLate j 0 [(4, coreSite p (srcOf c i)), (2, j), (4, b), (8, 10 * ((war s p).timer - (cluOf s p c).offerAt))] with
            site := coreSite p (srcOf c i), tenant := tget 0 s.sync.jobs j }
        (modClu p c (fun k => { k with late := true }) s)))) ∧
    ((cluOf s p (src.toNat / 32)).inDebt = false → src.toNat / 32 < 640 → liveJob s p src.toNat = none →
      exec (.testDebt p src) s = .next (ended s (raiseW p (evAt evTestDebt (clusterSite p (src.toNat / 32))
          [(4, clusterSite p (src.toNat / 32)), (4, f32n (clusterDebt s p (src.toNat / 32))), (2, 0)])
        (modClu p (src.toNat / 32) (fun k => { k with inDebt := true }) s)))) ∧
    (∀ e a l rest, s.net = .replay p obj.toNat e a :: rest → tfind (war s p).objs obj.toNat = some l → l.epoch = e → l.state ≠ 4 → l.acted < a → l.replay.getD 0 < a →
      let u := modW p (fun w => { w with pend := w.pend.filter (fun x => x.epoch ≠ e) })
        (modLobj p obj.toNat (fun l => { l with replay := some a }) { s with net := rest })
      exec (.replayOrder p obj) s = .next (ended s (replayNext p obj.toNat u)) ∧
      (vacatedSlot u p obj.toNat = none → replayNext p obj.toNat u = replayStrobe p obj.toNat u))

/-- R187 to R190, R194, R207, R219, R472: the directed phase goes to the next waiting test, else to the next confirmation, kept due while none may
begin; a spare of a Ready cluster runs a pattern; a slice whose signature is the expected one leads to the next slice, and a first disagreement runs
it once more, at once or after a droop window; a match then charges a transient, and a second disagreement fails the test; a missed signature counts
as a disagreement. A pattern retired meanwhile, and a test whose core may run no slice, are the model's choice (log entries 3, 137, 138 and 148). -/
def Obligations.TestEvents : Prop :=
  ∀ (p c d : Nat) (src : BitVec 15) (sig o : BitVec 64) (q : BitVec 32) (s : State),
    ((war s p).alive = true → (war s p).directed = none →
      (∀ x rest, (war s p).dirWait = x :: rest → exec (.directedPhaseStart p) s = .next (ended s (loadPattern p x (modTest p x (fun t => { t with step := 4 })
        (modW p (fun w => { w with directed := some x, dirWait := rest }) s))))) ∧
      (∀ x k, (war s p).dirWait = [] → (war s p).startOpen = false →
        (war s p).cores.find? (fun k => k.2.confirm && k.2.test.isNone && !harvesting s p k.1 && decide (beneath s p k.1 = stQuarantined)) = some (x, k) →
        exec (.directedPhaseStart p) s = .next (ended s
          (if mayBegin s then startTest p x 2 (modCore p x (fun c => { c with confirm := false }) s) else keepDue (.directed p) s)))) ∧
    (hearsPart s p = true → (cluOf s p c).rot = 0 → mayRun s p o q = true → spareOf s p c = some d →
      exec (.patternRun p c o q) s = .next (ended s (if mayBegin s = false then keepDue (.pattern p c o q) s else startPattern p (srcOf c d) 4 o q (modClu p c (fun k => { k with rot := 5 })
        { s with quarry := { s.quarry with runs := s.quarry.runs ++ [{ origin := o, seq := q, part := p, src := srcOf c d }] } })))) ∧
    (∀ t, (war s p).alive = true → (coreOf s p src.toNat).test = some t → t.running = true → (t.step = 4 → t.why ≠ 4 ∧ t.why ≠ 6) → t.rep = none →
      let w := expected s p t
      exec (.testSliceSignature p src w) s = .next (ended s (nextSlice p src.toNat t s)) ∧
      (sig ≠ w → let u := modTest p src.toNat (fun t => { t with rep := some sig, running := false }) s;
        exec (.testSliceSignature p src sig) s = .next (ended s (if t.dwin then startSlice p src.toNat u else driveSlice p src.toNat u))) ∧
      (let u := modTest p src.toNat (fun t => { t with rep := some 0, running := false }) s;
        exec (.testSliceTimeout p src) s = .next (ended s (if t.dwin then startSlice p src.toNat u else driveSlice p src.toNat u)))) ∧
    (∀ t f, (war s p).alive = true → (coreOf s p src.toNat).test = some t → t.running = true → (t.step = 4 → t.why ≠ 4 ∧ t.why ≠ 6) → t.rep = some f →
      let w := expected s p t
      exec (.testSliceSignature p src w) s = .next (ended s (nextSlice p src.toNat t
        (transientOn (coreSite p src.toNat) (if (coreOf s p src.toNat).untested then 4 else 3) (fun k => evAt evTestTransient (coreSite p src.toNat)
          [(4, coreSite p src.toNat), (12, sliceName t), (8, f.toNat), (8, w.toNat), (4, k)]) s))) ∧
      (sig ≠ w → exec (.testSliceSignature p src sig) s = .next (ended s
        (testFail p src.toNat t (failKind s p t).1 (failKind s p t).2 w sig s))) ∧
      exec (.testSliceTimeout p src) s = .next (ended s (testFail p src.toNat t (failKind s p t).1 (failKind s p t).2 w 0 s)))

/-- R144, R151 to R161, R177, R179, R182, R468: a request for a capture is granted, dropped with its audit, or kept waiting behind those of its class
that wait; the granted one is ordered from its producer; a kernel's capture goes to the first attachment of its candidates that its index passes, or
to none; a stream of the right length is stored, a wrong one is not taken, and one whose metadata fails ends with its producer's fault; a whole
capture waits for a cell; a quantum and a sample end; a disagreeing lane takes the cell out of use for its test; the limits end what they limit; a
verdict frees the capture and reaches the triage. The layout of sparse and block-scaled sections, and what becomes of a triage's own capture that
fails, are the model's choice (log entries 3, 18, 44, 114, 141 and 149). -/
def Obligations.SampleEvents : Prop :=
  ∀ (p cell lane : Nat) (h : HubId) (cid tid epoch : BitVec 32) (pre : BitVec 256) (body : List Byte) (s : State) (rest : List Msg),
    (∀ g c, serving s = some g → capOf s cid.toNat = some c → c.warden = p → c.stage = 0 → c.asked = false →
      let waits := s.tst.caps.any (fun e => e.2.asked && decide (classOf e.2.kind = classOf c.kind))
      (∀ k, waits = false → roomAt s c.kind = some k → exec (.captureAlloc p cid.toNat) s = .next (ended s (grantCap cid.toNat c k (noteReach p cid.toNat s)))) ∧
      (waits = true ∨ roomAt s c.kind = none → exec (.captureAlloc p cid.toNat) s = .next (ended s (let u := noteReach p cid.toNat s
        if classOf c.kind = 1 then freeCap cid.toNat (auditDrop g 1 u) else modCap cid.toNat (fun c => { c with asked := true, time := now u }) u)))) ∧
    (∀ c, (war s p).alive = true → inFlight (.grant p cid.toNat) s = true → capOf s cid.toNat = some c → exec (.captureGrant p cid) s =
      .next (ended s (drive (.capture p c.site c.id) (modCap cid.toNat (fun c => { c with stage := 2 }) (recv (.grant p cid.toNat) s))))) ∧
    (∀ c, (war s p).alive = true → capOf s cid.toNat = some c → c.warden = p → c.stage = 2 →
      (c.kind ≠ 5 → exec (.captureStream p cid pre body) s = .next (ended s (streamInto p cid.toNat c pre true body s))) ∧
      (c.kind = 5 → passing c (preField pre 7 0) = [] → exec (.captureStream p cid pre body) s = .next (ended s (freeCap cid.toNat s))) ∧
      (∀ x more, c.kind = 5 → passing c (preField pre 7 0) = x :: more → exec (.captureStream p cid pre body) s = .next (ended s
        (streamInto p cid.toNat { c with att := x.1, slot := x.2.slot, tenant := x.2.tenant, cands := [x] } pre
          (((tfind s.tst.kernels x.2.slot).map (·.inputs)).getD false) body (modCnt c.hub (fun k => { k with coll := k.coll + more.length }) s))))) ∧
    (∀ c inputs, let d := if c.jobv then descOf s c.job (preField pre 7 0) else none
      let lim := if classOf c.kind = 2 then 262144 - 64 else 1048576
      (∀ x, c.kind ≠ 2 → layCapture c pre d inputs body = some x → body.length ≤ lim →
        (x.flags.testBit 1 = false → streamInto p cid.toNat c pre inputs body s = storeCap p cid.toNat x s) ∧
        (∀ detail data, x.flags.testBit 1 = true → x.flags.testBit 0 = false →
          sparseFault (tileBlocks x.rows x.k) (metaSection x d.isSome) = some (detail, data) →
          streamInto p cid.toNat c pre inputs body s = storeFault p cid.toNat x detail data s)) ∧
      (layCapture c pre d inputs body = none ∨ lim < body.length →
        streamInto p cid.toNat c pre inputs body s = notTaken p cid.toNat c (releaseS p c s)) ∧
      (classOf c.kind = 1 → notTaken p cid.toNat c s = freeCap cid.toNat (auditDrop c.hub 3 s)) ∧
      (classOf c.kind = 2 → notTaken p cid.toNat c s = freeCap cid.toNat (kernelDrop p c.att 2 s)) ∧
      (classOf c.kind = 0 → isSecond s p cid.toNat = false →
        notTaken p cid.toNat c s = settleReport p (giveVerdict p cid.toNat [{ code := 2, cause := 4 }] none false (freeCap cid.toNat (noVerdictEv cid.toNat c 4 s))))) ∧
    (∀ c, inFlight (.capture cid.toNat) s = true → capOf s cid.toNat = some c → exec (.captureComplete cid) s = .next (ended s
      (offerCells (if classOf c.kind = 0 then (serving s).getD .a else c.hub) (modW c.warden (fun w => { w with
          auditCap := if w.auditCap = some cid.toNat then none else w.auditCap, caps := w.caps.filter (· ≠ cid.toNat) })
        (noteWait c.hub (modCap cid.toNat (fun c => { c with stage := 4, doneAt := now s, copy2 := secondCopy s c }) (recv (.capture cid.toNat) s))))))) ∧
    (cell < 16 →
      let key := cellKey h cell
      ((cellOf s key).kat = 1 → exec (.knownAnswerTestDone h cell true) s = .next (ended s (decideCell key (modCell key (fun x => { x with kat := 0 }) s))) ∧
        exec (.knownAnswerTestDone h cell false) s = .next (ended s (cellOut key 1 s))) ∧
      (∀ w, (cellOf s key).work = some w →
        (w.cls ≠ 2 ∨ w.k.status = .running → exec (.quantumEnd h cell) s = .next (ended s (decideCell key (countQuantum key s)))) ∧
        (∀ c, capOf s w.cid = some c →
          let u := modCell key (fun x => { x with work := none }) (countQuantum key s)
          (w.cls ≠ 2 → exec (.sampleDone h cell) s = .next (ended s (decideCell key (endJudged (cellHub key) w.cid c w.desc u)))) ∧
          (w.cls = 2 → w.k.status ≠ .running → exec (.sampleDone h cell) s = .next (ended s (decideCell key (endKernel (cellHub key) w.cid c w.k u))))) ∧
        (let l := ((cellOf s key).disagree.filter (fun x => decide (now s < x + 86400000000000))) ++ [now s];
         let u := raise (fromSrc 2 (evAt evTstoneCellCheck (keySite key) [(4, keySite key), (4, w.cid), (2, lane), (4, l.length)]))
          (modCell key (fun x => { x with work := none, disagree := l, kat := 1 }) (modCap w.cid (fun c => { c with stage := 4, susp := none, notCell := some key }) s));
         exec (.tstoneCellCheck h cell lane) s = .next (ended s (offerCells (cellHub key) (noteWait (cellHub key) (if 3 ≤ l.length then cellOut key 2 u else u))))))) ∧
    (∀ t, clockRuns s = true → (war s p).triages.find? (fun t => decide (t.tid = tid.toNat) && decide (t.epoch = epoch.toNat) && !t.limit) = some t →
      (t.verd.isSome = true → exec (.arbitrationLimit p tid epoch) s = .next (ended s (settleReport p (giveVerdict p t.cid [] none true s)))) ∧
      (∀ c, t.verd = none → capOf s t.cid = some c → (war s p).halt = none ∨ t.cid ∉ (war s p).haltCaps → exec (.arbitrationLimit p tid epoch) s = .next (ended s (settleReport p
        (giveVerdict p t.cid [{ code := 2, cause := 6 }] none true
          (if c.stage < 3 then releaseS p c (abandonCap t.cid (noVerdictEv t.cid c 6 s)) else abandonCap t.cid (noVerdictEv t.cid c 6 s))))))) ∧
    (∀ g c, serving s = some g → hasQuorum s g = true → s.net = .verdict p cid.toNat :: rest → capOf s cid.toNat = some c →
      let u := freeCap cid.toNat (modTst (fun t => { t with verdicts := tdel t.verdicts cid.toNat }) { s with net := rest })
      exec (.touchstoneVerdict p cid) s = .next (ended s
        (if classOf c.kind = 0 then settleReport p (giveVerdict p cid.toNat (tget [] s.tst.verdicts cid.toNat) (some c) false u) else u))) ∧
    (∀ c, capOf s cid.toNat = some c → classOf c.kind = 2 → c.stage = 4 → clockRuns s = true → exec (.kernelLate cid) s =
      .next (ended s (endKernel c.hub cid.toNat c { ((c.susp.map (·.1)).getD {}) with status := .trapped 4 } s)))

/-! ### Arrivals, releases and reports (chapter 10) -/

/-- R22, R24, R243, R246 to R255, R262, R264, R110: what an arrival does at its warden and at the Primary; close queries, epoch-clean, failure reports
of the current, a later and no epoch, and their acknowledgement; releases in RSN order, and none without hub contact; tally-closes, acknowledged
posts, triage results and clear orders. A message in flight as a member of a list, an arrival without a copy, and the RSN of a prevented release are
the model's choice (log entries 13, 108, 109, 132 and 133). -/
def Obligations.SyncEvents : Prop :=
  ∀ (p num : Nat) (src obj : BitVec 15) (epoch tid : BitVec 32) (s : State) (rest : List Msg),
    let o := obj.toNat
    let e := epoch.toNat
    let x := objOf s o
    let u := { s with net := rest }
    (arrivalSrc src.toNat = true → hearsCore s p src.toNat = true →
      (x.state = 0 → exec (.barrierArrival p src obj epoch) s =
        .next (ended s (replayAll p (raiseW p (evAt evSyncStray (arrivalSite p src.toNat) [(4, arrivalSite p src.toNat), (2, o), (4, e)]) s)))) ∧
      (x.state ≠ 0 → x.state ≠ 4 → x.type = 2 → exec (.barrierArrival p src obj epoch) s = .next (ended s (replayAll p (arrivePost p o (markArrival p src.toNat e s))))) ∧
      (x.state ≠ 0 → x.state ≠ 4 → x.type = 3 → exec (.barrierArrival p src obj epoch) s = .next (ended s (replayAll p (send (.wait p o e) (markArrival p src.toNat e s))))) ∧
      (∀ l, x.state ≠ 0 → x.state ≠ 4 → x.type = 1 →
        let v := if srcOk src.toNat then modCore p src.toNat (fun c => { c with job := some (o, x.job) }) s else s
        tfind (war v p).objs o = some l →
        (l.state ≠ 1 → e = l.epoch → l.arr < l.parts → (war s p).lease.isSome = true → exec (.barrierArrival p src obj epoch) s = .next (ended s (replayAll p (sendClean p
          (send (.arrival p o e) (arrivalTally p src.toNat e (modLobj p o (fun l => { l with arr := l.arr + 1, sent := l.sent + 1 }) v))))))) ∧
        (l.state ≠ 1 → e = l.epoch → l.arr < l.parts → (war s p).lease = none → exec (.barrierArrival p src obj epoch) s = .next (ended s (replayAll p (sendClean p
          (arrivalTally p src.toNat e (modLobj p o (fun l => { l with arr := l.arr + 1 }) v)))))) ∧
        (l.state = 1 ∨ e ≠ l.epoch → exec (.barrierArrival p src obj epoch) s = .next (ended s (replayAll p (jobFault o e jfEpoch v)))) ∧
        (l.state ≠ 1 → e = l.epoch → l.parts ≤ l.arr → exec (.barrierArrival p src obj epoch) s = .next (ended s (replayAll p (jobFault o e jfOver v)))))) ∧
    ((serving s).isSome = true →
      (s.net = .arrival p o e :: rest → x.type = 1 → x.state = 2 → x.epoch = e →
        let v := modObj o (fun x => { x with count := x.count + 1, state := if x.count + 1 = x.part then 3 else 2 }) u
        exec (.primaryArrival p obj epoch) s = .next (ended s (if x.count + 1 = x.part then settle o (sendQueries o v) else v))) ∧
      (∀ n, s.net = .post p n o :: rest → x.type = 2 → x.state ≠ 4 → exec (.primaryArrival p obj epoch) s = .next (ended s
        (if x.count = 4294967295 then send (.postAck p n) (semSaturated o (refusePost o u)) else mirWrite (.sem o (x.count + postsOut s o + 1) p n) u))) ∧
      (s.net = .wait p o e :: rest → x.type = 3 → x.state ≠ 4 → exec (.primaryArrival p obj epoch) s = .next (ended s
        (if x.count ≠ 0 then send (.release p o 0 0 0) u else { u with sync := { u.sync with waits := u.sync.waits ++ [(p, o)] } }))) ∧
      (∀ a b y, s.net = .clean p e a :: rest → objAt s e = some (b, y) → y.epoch = e → y.attempt = a → y.gate.getLsbD p = true →
        exec (.epochClean p epoch) s = .next (ended s (settle b (modGather b (fun g => { g with clean := insertOnce g.clean p }) u)))) ∧
      (∀ r b y, s.net = .failure p e r :: rest → objAt s e = some (b, y) → y.gate.getLsbD p = true →
        (y.epoch = e → r.again = false ∨ y.fail = true → exec (.failureReport p epoch) s = .next (ended s (setFail b p r u))) ∧
        (y.epoch = e → r.again = true → y.fail = false → exec (.failureReport p epoch) s = .next (ended s u)) ∧
        (y.epoch ≠ e → exec (.failureReport p epoch) s = .next (ended s (if r.kinds = fkTallyFull then
          mirWrite (.failSet b e p) { u with sync := { u.sync with full := insertOnce u.sync.full (b, e) } } else u)))) ∧
      (∀ r b y, s.net = .failure p e r :: rest → objAt s e = some (b, y) → y.gate.getLsbD p = false →
        exec (.failureReport p epoch) s = .next (ended s (if r.kinds = fkTallyFull then send (.tfAck p e) u else u))) ∧
      (∀ r, s.net = .failure p e r :: rest → objAt s e = none →
        exec (.failureReport p epoch) s = .next (ended s (if r.kinds = fkTallyFull then send (.tfAck p e) (lateFailure p e r u) else lateFailure p e r u))) ∧
      (s.net = [.engTriage p tid.toNat e] → exec (.triageResult p tid epoch) s = .next (ended s { s with net := [] })) ∧
      (∀ cl inp ch b y, s.net = .triage p tid.toNat e cl inp ch :: rest → reportOut u p e tid.toNat = false → objAt s e = some (b, y) → y.epoch = e →
        y.gate.getLsbD p = true → (p, tid.toNat) ∈ (gatherOf s b).opened → exec (.triageResult p tid epoch) s = .next (ended s (settle b (modGather b (fun g =>
          { g with opened := if triageOpen u p e tid.toNat then g.opened else g.opened.filter (· ≠ (p, tid.toNat)), cleared := if cl then insertOnce g.cleared (p, tid.toNat) else g.cleared,
                   other := g.other || !cl, input := g.input || inp, charged := (g.charged ++ ch).eraseDups }) u))))) ∧
    (s.net = .query p o e :: rest → exec (.closeQuery p obj epoch) s =
      .next (ended s (sendClean p (modLobj p o (fun l => if l.epoch = e then { l with query := true } else l) u)))) ∧
    (s.net = .tfAck p e :: rest → exec (.failureReportAck p epoch) s =
      .next (ended s (modW p (fun w => { w with tfRep := w.tfRep.filter (fun r => r.1 ≠ e) }) u))) ∧
    (.tfAck p e ∉ s.net → (war s p).alive = true → (∃ r ∈ (war s p).tfRep, r.1 = e) →
      exec (.failureReportAck p epoch) s = .next (ended s (send (.failure p e { kinds := fkTallyFull, site := partSite p }) s))) ∧
    ((war s p).lease = none → exec (.release p obj) s = .next (ended s s)) ∧
    (∀ f r v, (war s p).alive = true → (war s p).lease.isSome = true → s.net = .release p o f r v :: rest →
      (r = 0 → exec (.release p obj) s = .next (ended s (drive (.rel p o false) u))) ∧
      (0 < r → r ≤ (war s p).rsn → exec (.release p obj) s = .next (ended s u)) ∧
      ((war s p).rsn < r → v ≠ (war s p).rsn → exec (.release p obj) s = .next (ended s (modW p (fun w => { w with early := w.early ++ [(o, f, r, v)] }) u))) ∧
      ((war s p).rsn < r → v = (war s p).rsn → (war s p).early = [] → exec (.release p obj) s = .next (ended s (deliver p o f r u)))) ∧
    (s.net = .tclose p e :: rest → exec (.tallyClose p epoch) s = .next (ended s (modW p (fun w => { w with objs := w.objs.map (fun l =>
      if l.2.type = 1 ∧ l.2.epoch = e ∧ l.2.parts = 0 then
        (l.1, { l.2 with epoch := e + 1, state := if e = l.2.elast then 1 else 2, query := false, cleanSent := false, acted := 0, replay := none })
      else l) }) (closeTally p e u)))) ∧
    (s.net = .postAck p num :: rest → exec (.postAck p num) s = .next (ended s (modW p (fun w => { w with posts := w.posts.filter (fun y => y.1 ≠ num) }) u))) ∧
    (∀ ts t, s.net = .clear p e ts :: rest →
      let v := modTally p e (fun t => { t with out := t.out - (t.triFails.filter (fun y => y.1 ∈ ts)).length, triFails := t.triFails.filter (fun y => y.1 ∉ ts) }) u
      tallyOf (war v p) e = some t →
      exec (.clearOrder p epoch) s = .next (ended s (if tallyKinds t = 0 then sendClean p v else sendAgain p e v)))

/-! ### Counters, the stop, and the governor (chapters 3, 15) -/

/-- R30, R371 to R375, R386 to R391, R89: tap records are counted and staged, or counted as bad; the sample period's pulse, its records, its timeout;
the first Cairn at a node, a further one and one at a node that is out, the halt report, the cut, a scan-out request and what its warden asks for, and
the resume order, which passes a further Cairn on; the governor's update at a serving hub whose governor has started. A record of a source that does
not exist, when a node's stop is complete, and the places of CUTHEAD's fields are the model's choice (log entries 3, 51, 57, 60, 129 and 169). -/
def Obligations.ObservationEvents : Prop :=
  ∀ (p g node edges delta : Nat) (h : HubId) (rec : BitVec 64) (recs : List (List Byte)) (s : State) (rest : List Msg),
    let u := { s with net := rest }
    (hearsPart s p = true →
      (g < 20 → tapOk p (tapOf rec) = true → exec (.counterTap p g rec) s = .next (ended s (if traceOn s p 0
        then stage p { cls := 0x10, len := 2, src := p + 512 * g, wt := wtOf s p, body := [rec] } (countTap p g (tapOf rec) s)
        else countTap p g (tapOf rec) s))) ∧
      (g < 20 → tapOk p (tapOf rec) = false → exec (.counterTap p g rec) s = .next (ended s (modW p (fun w => { w with tapBad := w.tapBad + 1 }) s))) ∧
      (traceOn s p 2 = true → (war s p).haltReq = false → (war s p).halt = none → (war s p).pcsWait = [] → exec (.pcSamplePulse p) s =
        .next (ended s (drive (.pcs p false) (modW p (fun w => { w with pcsNum := w.pcsNum + 1, pcsAt := w.timer, pcsWait := (List.range 20).map (fun g => (g, 544)) }) s)))) ∧
      (g < 20 → isHalted s p = true → bitsIn rec 53 52 = 3 → exec (.pcSample p g rec) s = .next (ended s
        (modW p (fun w => { w with haltPcs := tmod [] w.haltPcs g (fun l => if l.length < 544 then l ++ [rec] else l) }) s))) ∧
      (∀ n, g < 20 → isHalted s p = false → tget 0 (war s p).pcsWait g = n + 1 →
        let v := modW p (fun w => { w with pcsWait := tput 0 w.pcsWait g n }) s
        exec (.pcSample p g rec) s = .next (ended s (stage p { cls := 0x12, len := 2, src := p + 512 * g, wt := wtOf s p, body := [rec] } v)) ∧
        exec (.pcSampleTimeout p g) s = .next (ended s (wardenLoss p 0x12 5 (n + 1) 0 (modW p (fun w => { w with pcsWait := tput 0 w.pcsWait g 0 }) s))))) ∧
    (s.net = .cairn node :: rest → nodeUp s node = false → exec (.cairnArrival node edges) s = .next (ended s u)) ∧
    (s.net = .cairn node :: rest → nodeUp s node = true → node ∈ s.cairn.passed →
      exec (.cairnArrival node edges) s = .next (ended s (modCairn (fun c => { c with further := insertOnce c.further node }) u))) ∧
    (s.net = .cairn node :: rest → nodeUp s node = true → node ∉ s.cairn.passed →
      let v := cairnForward node (modCairn (fun c => { c with passed := c.passed ++ [node] }) u)
      (∀ q, partOfNode node = some q → exec (.cairnArrival node edges) s = .next (ended s
        (let x := modW q (fun w => { w with cairnAt := w.timer }) v
         if mayHalt v q && decide (v.cairn.state ≠ 4) then haltPart q edges x else if q ∈ v.cairn.haltedOnce then v
         else cutCheck (modCairn (fun c => { c with outside := insertOnce c.outside q }) x)))) ∧
      (partOfNode node = none → hubOfNode node = some h → exec (.cairnArrival node edges) s = .next (ended s (trigHub raise 3 0 h v))) ∧
      (partOfNode node = none → hubOfNode node = none → exec (.cairnArrival node edges) s = .next (ended s v))) ∧
    (∀ t, (serving s).isSome = true → s.net = .halted p t :: rest → exec (.cairnHaltReport p) s = .next (ended s (cutCheck (modCairn (fun c =>
      { c with stamps := tset c.stamps p t, halted := if c.state = 1 then insertOnce c.halted p else c.halted }) u)))) ∧
    (s.cairn.state = 1 → exec .cairnCutTimeout s = .next (ended s (makeCut (parts.filter (fun p => !accounted s p)) s))) ∧
    (∀ q more, toScan s h = q :: more → s.cairn.state = 3 → (scanOk s q recs = false → exec (.scanoutPull h recs) s = .next (ended s s)) ∧ (scanOk s q recs = true →
      exec (.scanoutPull h recs) s = .next (ended s (askScan h (scanCheck h (modCairn (fun c =>
        let c1 := if isB h then { c with scanB := c.scanB + recs.length, scanBytesB := c.scanBytesB + (recs.map List.length).sum }
                  else { c with scanA := c.scanA + recs.length, scanBytesA := c.scanBytesA + (recs.map List.length).sum }
        let c2 := match recs.getLast? with | some r => { c1 with lastCls := tset c1.lastCls q (fieldAt r 0 1) } | none => c1
        let c3 := { c2 with left := tset c2.left q ((scanLeft s q recs).getD 0) }
        if scanLeft s q recs = some 0 then { c3 with scanned := c3.scanned ++ [q] } else c3) (modTrace h (fun b => { b with scan := b.scan ++ recs }) (askScan h s)))))))) ∧
    (s.net = .resume p :: rest → (war s p).alive = true → (war s p).halt.isSome = true → exec (.cairnResumeOrder p) s = .next (ended s (resumeCheck (passFurther (nodeOfPart p)
      (drive (.pcs p false) (modW p (fun w => { w with halt := none, haltReq := false, haltPcs := [], haltCaps := [] }) (creditHalt p (freeRead u).1.toNat (freeRead u).2))))))) ∧
    (clockRuns s = true → s.gov.started = true → exec (.governorUpdate delta) s = .next (ended s (governorUpdate delta s)))

/-! ### Trace and Strata (chapters 15, 16) -/

/-- R375 to R384, R397, R400, R401, R408: a control core's record is staged; the oldest staged record reaches its draining hub; a Held buffer that is
drained is Armed again or Off; the time pairs, a node's drops, a lane's next frame, the loss records; an event of a warden is ingested, mirrored and
acknowledged; a gap that stays open, the limit of a freeze and what stops with the serving hub's Strata time (R473), and the Secondary's time. What no
table gives of lanes, losses and gaps is the model's choice (log entries 3, 49, 50, 53, 61 and 91). -/
def Obligations.TraceAndStrataEvents : Prop :=
  ∀ (p i lane num node : Nat) (h : HubId) (rec : BitVec 64) (s : State) (rest : List Msg),
    let u := { s with net := rest }
    (hearsPart s p = true → traceOn s p 1 = true → i < 4 → (war s p).ccOn.getLsbD i = true →
      exec (.controlCoreTrace p i rec) s = .next (ended s (stage p { cls := 0x11, len := 2, src := p + 128 * i, wt := wtOf s p, body := [rec] } s))) ∧
    (∀ r more, (war s p).staging = r :: more → drainHub s p = some h → (war s p).alive = true → exec (.traceRecord h p) s = .next (ended s (exceptionTrigger r
      (bufArrive h r (noteLoss h r (modW p (fun w => { w with staging := more, stagOcc := w.stagOcc - 8 * r.len }) s)))))) ∧
    ((traceOf s h).state = 4 → (traceOf s h).recs = [] →
      let b := traceOf s h
      let next := if b.auto then 2 else 0
      let stop : TRec := { cls := 4, len := 3, src := hubPart h, wt := hubWt s h, body := [w64 b.refused, w64 b.trigIgn] }
      exec (.traceDrained h) s = .next (ended s (raise (ev evTraceDone [(1, hubNum h), (4, b.refused), (4, b.trigIgn), (1, next)])
        (irqBit h 13 (modTrace h (fun b => { b with
          state := next, scan := b.scan ++ [trecBytes stop], admitted := 0, refused := 0, trigIgn := 0, occ := 0 }) s))))) ∧
    ((traceOf s h).state ≠ 0 → (hubOf s h).refLost = false → exec (.traceTimepair h) s = .next (ended s (forEach ((drained s h).filter (fun p => (war s p).alive)) (fun p s =>
      bufArrive h { cls := 2, len := 3, src := p, wt := hubWt s h, body := [w64 (war s p).timer, w64 (hubOf s h).time] } s) s))) ∧
    (∀ n w, (tget {} s.vein.nodes node).drops = [(p, n, w)] → drainHub s p = some h → exec (.veinDropReport node) s = .next (ended s
      (hubLoss h { part := p, cls := 0, cause := 2, node, recs := n, words := w / 8, wt := hubWt s h }
        { s with vein := { s.vein with nodes := tmod {} s.vein.nodes node (fun v => { v with drops := tdel v.drops p }) } }))) ∧
    ((hubOf s h).role ≠ .down → (hubOf s h).rstLow = false → (hubOf s h).refLost = false → laneUp s h lane = true →
      (1023 ≤ tget 0 (traceOf s h).sinceAlign lane → exec (.traceFrameSent h lane) s = .next (ended s (sendFrame h lane (frameBytes h lane 2 ((traceOf s h).seq + 1).toNat
        (leBytes 8 (hubOf s h).time ++ leBytes 8 (hubOf s h).keyId.toNat ++ leBytes 1 (lanesMask s h)))
        (modTrace h (fun b => { b with seq := (traceOf s h).seq + 1, sinceAlign := tput 0 (traceOf s h).sinceAlign lane 0 }) s)))) ∧
      (tget 0 (traceOf s h).sinceAlign lane < 1023 → (traceOf s h).scan = [] → drainable (traceOf s h) = [] → exec (.traceFrameSent h lane) s = .next (ended s
        (sendFrame h lane (frameBytes h lane 0 (traceOf s h).seq.toNat []) (modTrace h (fun b => { b with sinceAlign := tadd (traceOf s h).sinceAlign lane 1 }) s)))) ∧
      (tget 0 (traceOf s h).sinceAlign lane < 1023 → (traceOf s h).scan ≠ [] ∨ drainable (traceOf s h) ≠ [] → exec (.traceFrameSent h lane) s = .next (ended s (sendData h lane s)))) ∧
    (p < 98 → (war s p).halt = none → exec (.traceLossRecordTick p) s = .next (ended s
      (forEach (war s p).losses (fun l s => stage p (lossRec l (wtOf s p)) s) (modW p (fun w => { w with losses := [] }) s)))) ∧
    ((traceOf s h).state ≠ 0 → (traceOf s h).state ≠ 4 → exec (.traceLossRecordTick (98 + hubNum h)) s = .next (ended s (lossEvent h
      (forEach (traceOf s h).losses (sendLoss h) (modTrace h (fun b => { b with losses := [] }) s))))) ∧
    (∀ e, (serving s).isSome = true → (war s p).alive = true → (war s p).evs.find? (fun x => x.1 = num) = some (num, e) →
      exec (.eventRecord p num) s = .next (ended s (mirWrite (.event p num) (takeEvent p num e s)))) ∧
    (∀ e, tget [] s.strata.early p = [] → nextEvent s p = num →
      takeEvent p num e s = drainHeld p (tget [] (ingestTurn p num e s).strata.early p).length (ingestTurn p num e s)) ∧
    (s.net = .evAck p num :: rest → exec (.eventAck p num) s = .next (ended s (modW p (fun w => { w with evs := w.evs.filter (fun x => x.1 ≠ num) }) u))) ∧
    (∀ x, firstHeld s p = some x → (serving s).isSome = true → ∃ t, exec (.strataWardenGap p) s = .next t ∧ (war t p).evLost = 0) ∧
    (clockRuns s = true → s.strata.frozen = true → exec .strataFreezeLimit s = .next (ended s (endFreeze ufLimit s))) ∧
    (clockRuns s = false → exec .strataFreezeLimit s = .next (ended s s) ∧ exec .debugSessionIdle s = .next (ended s s) ∧
      (∀ n, exec (.governorUpdate n) s = .next (ended s s)) ∧ (∀ q tid e, exec (.arbitrationLimit q tid e) s = .next (ended s s))) ∧
    (serving s = some h → (hubOf s (other h)).role = .secondary → (hubOf s (other h)).refLost = false →
      exec .strataTimeCompare s = .next (ended s (followTime (other h) s)) ∧
      ((hubOf s (other h)).time ≤ (hubOf s h).time → (hubOf (followTime (other h) s) (other h)).time = (hubOf s h).time))
end

