-- ==== Sys2Proof/Laws/Tab.lean ====
section
/-! SUPPORT. What reads of a sparse table give after writes, and the canonical form. -/

namespace Sys2Proof.Machine
open Sys2Proof

@[simp] theorem tfind_nil {α : Type} (k : Nat) : tfind ([] : Tab α) k = none := rfl

@[simp] theorem tfind_tset_self {α : Type} (t : Tab α) (k : Nat) (v : α) : tfind (tset t k v) k = some v := by
  induction t with
  | nil => simp [tset, tfind]
  | cons e r ih =>
    obtain ⟨j, w⟩ := e
    simp only [tset]
    split
    · simp [tfind]
    · split
      · simp [tfind]
      · next h _ => simp [tfind, Ne.symm h, ih]

theorem tfind_tset_ne {α : Type} (t : Tab α) {k k' : Nat} (v : α) (h : k' ≠ k) : tfind (tset t k v) k' = tfind t k' := by
  induction t with
  | nil => simp [tset, tfind, Ne.symm h]
  | cons e r ih =>
    obtain ⟨j, w⟩ := e
    simp only [tset]
    split
    · next hk => subst hk; simp [tfind, Ne.symm h]
    · split
      · simp [tfind, Ne.symm h]
      · simp [tfind, ih]

theorem tfind_tset {α : Type} (t : Tab α) (k k' : Nat) (v : α) :
    tfind (tset t k v) k' = if k' = k then some v else tfind t k' := by
  split
  · next h => subst h; exact tfind_tset_self t k' v
  · next h => exact tfind_tset_ne t v h

@[simp] theorem tget_tset_self {α : Type} (d : α) (t : Tab α) (k : Nat) (v : α) : tget d (tset t k v) k = v := by
  simp [tget]

theorem tget_tset_ne {α : Type} (d : α) (t : Tab α) {k k' : Nat} (v : α) (h : k' ≠ k) : tget d (tset t k v) k' = tget d t k' := by
  simp [tget, tfind_tset_ne t v h]

@[simp] theorem tget_tmod_self {α : Type} (d : α) (t : Tab α) (k : Nat) (f : α → α) : tget d (tmod d t k f) k = f (tget d t k) := by
  simp [tmod]

theorem tget_tmod_ne {α : Type} (d : α) (t : Tab α) {k k' : Nat} (f : α → α) (h : k' ≠ k) :
    tget d (tmod d t k f) k' = tget d t k' := tget_tset_ne d t _ h

theorem tfind_tdel {α : Type} (t : Tab α) (k k' : Nat) : tfind (tdel t k) k' = if k' = k then none else tfind t k' := by
  induction t with
  | nil => simp [tdel]
  | cons e r ih =>
    obtain ⟨j, w⟩ := e
    by_cases hj : j = k
    · have : tdel ((j, w) :: r) k = tdel r k := by simp [tdel, hj]
      rw [this, ih]
      split
      · rfl
      · next h => have : j ≠ k' := fun e => h (by omega)
                  simp [tfind, this]
    · have : tdel ((j, w) :: r) k = (j, w) :: tdel r k := by simp [tdel, hj]
      rw [this]
      simp only [tfind, ih]
      by_cases hk : j = k'
      · simp [hk]; omega
      · simp [hk]

theorem tget_tput {α : Type} [DecidableEq α] (d : α) (t : Tab α) (k k' : Nat) (v : α) :
    tget d (tput d t k v) k' = if k' = k then v else tget d t k' := by
  unfold tput
  split
  · next hv =>
    by_cases h : k' = k
    · simp [tget, tfind_tdel, h, hv]
    · simp [tget, tfind_tdel, h]
  · by_cases h : k' = k
    · simp [h]
    · simp [tget, tfind_tset, tfind_tdel, h]

/-! ### Canonical form -/

theorem tabWf_tdel {α : Type} [DecidableEq α] (d : α) (t : Tab α) (k : Nat) (h : tabWf d t = true) : tabWf d (tdel t k) = true := by
  induction t with
  | nil => simp [tdel, tabWf]
  | cons e r ih =>
    obtain ⟨j, w⟩ := e
    simp only [tabWf, Bool.and_eq_true, List.all_eq_true, decide_eq_true_eq] at h
    by_cases hj : j = k
    · simpa [tdel, hj] using ih h.2
    · have : tdel ((j, w) :: r) k = (j, w) :: tdel r k := by simp [tdel, hj]
      rw [this]
      simp only [tabWf, Bool.and_eq_true, List.all_eq_true, decide_eq_true_eq]
      exact ⟨⟨h.1.1, fun e he => h.1.2 e (List.mem_filter.mp he).1⟩, ih h.2⟩

theorem tset_keys {α : Type} (t : Tab α) (k : Nat) (v : α) : ∀ e ∈ tset t k v, e = (k, v) ∨ e ∈ t := by
  induction t with
  | nil => simp [tset]
  | cons a r ih =>
    obtain ⟨j, w⟩ := a
    intro e he
    simp only [tset] at he
    split at he
    · simp at he ⊢; exact he.imp_right .inr
    · split at he
      · simp at he ⊢; exact he
      · simp at he ⊢
        rcases he with he | he
        · exact .inr (.inl he)
        · rcases ih e he with h | h
          · exact .inl h
          · exact .inr (.inr h)

theorem tabWf_tset {α : Type} [DecidableEq α] (d : α) (t : Tab α) (k : Nat) (v : α) (hv : v ≠ d) (h : tabWf d t = true) :
    tabWf d (tset t k v) = true := by
  induction t with
  | nil => simp [tset, tabWf, hv]
  | cons e r ih =>
    obtain ⟨j, w⟩ := e
    simp only [tabWf, Bool.and_eq_true, List.all_eq_true, decide_eq_true_eq] at h
    simp only [tset]
    split
    · next hk => subst hk; simp only [tabWf, Bool.and_eq_true, List.all_eq_true, decide_eq_true_eq]; exact ⟨⟨hv, h.1.2⟩, h.2⟩
    · split
      · next _ hlt =>
        simp only [tabWf, Bool.and_eq_true, List.all_eq_true, decide_eq_true_eq]
        refine ⟨⟨hv, ?_⟩, ⟨h.1, h.2⟩⟩
        intro e he
        simp at he
        rcases he with he | he
        · subst he; exact hlt
        · exact Nat.lt_trans hlt (h.1.2 e he)
      · next h1 h2 =>
        simp only [tabWf, Bool.and_eq_true, List.all_eq_true, decide_eq_true_eq]
        refine ⟨⟨h.1.1, ?_⟩, ih h.2⟩
        intro e he
        rcases tset_keys r k v e he with he | he
        · subst he; simp; omega
        · exact h.1.2 e he

/-- A write keeps the canonical form. -/
theorem tabWf_tput {α : Type} [DecidableEq α] (d : α) (t : Tab α) (k : Nat) (v : α) (h : tabWf d t = true) :
    tabWf d (tput d t k v) = true := by
  unfold tput
  split
  · exact tabWf_tdel d t k h
  · next hv => exact tabWf_tset d _ k v hv (tabWf_tdel d t k h)

end Sys2Proof.Machine
end

