-- ==== Sys2Proof/Laws/State.lean ====
section
/-! SUPPORT. What each named update leaves alone and what it changes: one lemma per field and update, so that no proof
unfolds a record update. -/

namespace Sys2Proof.Machine
open Sys2Proof

/-! ### modW -/

@[simp] theorem modW_pending (p : Nat) (f : Warden → Warden) (s : State) : (modW p f s).pending = s.pending := rfl
@[simp] theorem modW_free (p : Nat) (f : Warden → Warden) (s : State) : (modW p f s).free = s.free := rfl
@[simp] theorem modW_hubA (p : Nat) (f : Warden → Warden) (s : State) : (modW p f s).hubA = s.hubA := rfl
@[simp] theorem modW_hubB (p : Nat) (f : Warden → Warden) (s : State) : (modW p f s).hubB = s.hubB := rfl
@[simp] theorem modW_cmd (p : Nat) (f : Warden → Warden) (s : State) : (modW p f s).cmd = s.cmd := rfl
@[simp] theorem modW_sync (p : Nat) (f : Warden → Warden) (s : State) : (modW p f s).sync = s.sync := rfl
@[simp] theorem modW_defects (p : Nat) (f : Warden → Warden) (s : State) : (modW p f s).defects = s.defects := rfl
@[simp] theorem modW_quarry (p : Nat) (f : Warden → Warden) (s : State) : (modW p f s).quarry = s.quarry := rfl
@[simp] theorem modW_test (p : Nat) (f : Warden → Warden) (s : State) : (modW p f s).test = s.test := rfl
@[simp] theorem modW_gov (p : Nat) (f : Warden → Warden) (s : State) : (modW p f s).gov = s.gov := rfl
@[simp] theorem modW_tst (p : Nat) (f : Warden → Warden) (s : State) : (modW p f s).tst = s.tst := rfl
@[simp] theorem modW_strata (p : Nat) (f : Warden → Warden) (s : State) : (modW p f s).strata = s.strata := rfl
@[simp] theorem modW_keys (p : Nat) (f : Warden → Warden) (s : State) : (modW p f s).keys = s.keys := rfl
@[simp] theorem modW_boot (p : Nat) (f : Warden → Warden) (s : State) : (modW p f s).boot = s.boot := rfl
@[simp] theorem modW_links (p : Nat) (f : Warden → Warden) (s : State) : (modW p f s).links = s.links := rfl
@[simp] theorem modW_cairn (p : Nat) (f : Warden → Warden) (s : State) : (modW p f s).cairn = s.cairn := rfl
@[simp] theorem modW_vein (p : Nat) (f : Warden → Warden) (s : State) : (modW p f s).vein = s.vein := rfl
@[simp] theorem modW_mir (p : Nat) (f : Warden → Warden) (s : State) : (modW p f s).mir = s.mir := rfl
@[simp] theorem modW_net (p : Nat) (f : Warden → Warden) (s : State) : (modW p f s).net = s.net := rfl
@[simp] theorem modW_outs (p : Nat) (f : Warden → Warden) (s : State) : (modW p f s).outs = s.outs := rfl

/-! ### modClu -/

@[simp] theorem modClu_pending (p c : Nat) (f : Clu → Clu) (s : State) : (modClu p c f s).pending = s.pending := rfl
@[simp] theorem modClu_free (p c : Nat) (f : Clu → Clu) (s : State) : (modClu p c f s).free = s.free := rfl
@[simp] theorem modClu_hubA (p c : Nat) (f : Clu → Clu) (s : State) : (modClu p c f s).hubA = s.hubA := rfl
@[simp] theorem modClu_hubB (p c : Nat) (f : Clu → Clu) (s : State) : (modClu p c f s).hubB = s.hubB := rfl
@[simp] theorem modClu_cmd (p c : Nat) (f : Clu → Clu) (s : State) : (modClu p c f s).cmd = s.cmd := rfl
@[simp] theorem modClu_sync (p c : Nat) (f : Clu → Clu) (s : State) : (modClu p c f s).sync = s.sync := rfl
@[simp] theorem modClu_defects (p c : Nat) (f : Clu → Clu) (s : State) : (modClu p c f s).defects = s.defects := rfl
@[simp] theorem modClu_quarry (p c : Nat) (f : Clu → Clu) (s : State) : (modClu p c f s).quarry = s.quarry := rfl
@[simp] theorem modClu_test (p c : Nat) (f : Clu → Clu) (s : State) : (modClu p c f s).test = s.test := rfl
@[simp] theorem modClu_gov (p c : Nat) (f : Clu → Clu) (s : State) : (modClu p c f s).gov = s.gov := rfl
@[simp] theorem modClu_tst (p c : Nat) (f : Clu → Clu) (s : State) : (modClu p c f s).tst = s.tst := rfl
@[simp] theorem modClu_strata (p c : Nat) (f : Clu → Clu) (s : State) : (modClu p c f s).strata = s.strata := rfl
@[simp] theorem modClu_keys (p c : Nat) (f : Clu → Clu) (s : State) : (modClu p c f s).keys = s.keys := rfl
@[simp] theorem modClu_boot (p c : Nat) (f : Clu → Clu) (s : State) : (modClu p c f s).boot = s.boot := rfl
@[simp] theorem modClu_links (p c : Nat) (f : Clu → Clu) (s : State) : (modClu p c f s).links = s.links := rfl
@[simp] theorem modClu_cairn (p c : Nat) (f : Clu → Clu) (s : State) : (modClu p c f s).cairn = s.cairn := rfl
@[simp] theorem modClu_vein (p c : Nat) (f : Clu → Clu) (s : State) : (modClu p c f s).vein = s.vein := rfl
@[simp] theorem modClu_mir (p c : Nat) (f : Clu → Clu) (s : State) : (modClu p c f s).mir = s.mir := rfl
@[simp] theorem modClu_net (p c : Nat) (f : Clu → Clu) (s : State) : (modClu p c f s).net = s.net := rfl
@[simp] theorem modClu_outs (p c : Nat) (f : Clu → Clu) (s : State) : (modClu p c f s).outs = s.outs := rfl

/-! ### modCore -/

@[simp] theorem modCore_pending (p src : Nat) (f : Core → Core) (s : State) : (modCore p src f s).pending = s.pending := rfl
@[simp] theorem modCore_free (p src : Nat) (f : Core → Core) (s : State) : (modCore p src f s).free = s.free := rfl
@[simp] theorem modCore_hubA (p src : Nat) (f : Core → Core) (s : State) : (modCore p src f s).hubA = s.hubA := rfl
@[simp] theorem modCore_hubB (p src : Nat) (f : Core → Core) (s : State) : (modCore p src f s).hubB = s.hubB := rfl
@[simp] theorem modCore_cmd (p src : Nat) (f : Core → Core) (s : State) : (modCore p src f s).cmd = s.cmd := rfl
@[simp] theorem modCore_sync (p src : Nat) (f : Core → Core) (s : State) : (modCore p src f s).sync = s.sync := rfl
@[simp] theorem modCore_defects (p src : Nat) (f : Core → Core) (s : State) : (modCore p src f s).defects = s.defects := rfl
@[simp] theorem modCore_quarry (p src : Nat) (f : Core → Core) (s : State) : (modCore p src f s).quarry = s.quarry := rfl
@[simp] theorem modCore_test (p src : Nat) (f : Core → Core) (s : State) : (modCore p src f s).test = s.test := rfl
@[simp] theorem modCore_gov (p src : Nat) (f : Core → Core) (s : State) : (modCore p src f s).gov = s.gov := rfl
@[simp] theorem modCore_tst (p src : Nat) (f : Core → Core) (s : State) : (modCore p src f s).tst = s.tst := rfl
@[simp] theorem modCore_strata (p src : Nat) (f : Core → Core) (s : State) : (modCore p src f s).strata = s.strata := rfl
@[simp] theorem modCore_keys (p src : Nat) (f : Core → Core) (s : State) : (modCore p src f s).keys = s.keys := rfl
@[simp] theorem modCore_boot (p src : Nat) (f : Core → Core) (s : State) : (modCore p src f s).boot = s.boot := rfl
@[simp] theorem modCore_links (p src : Nat) (f : Core → Core) (s : State) : (modCore p src f s).links = s.links := rfl
@[simp] theorem modCore_cairn (p src : Nat) (f : Core → Core) (s : State) : (modCore p src f s).cairn = s.cairn := rfl
@[simp] theorem modCore_vein (p src : Nat) (f : Core → Core) (s : State) : (modCore p src f s).vein = s.vein := rfl
@[simp] theorem modCore_mir (p src : Nat) (f : Core → Core) (s : State) : (modCore p src f s).mir = s.mir := rfl
@[simp] theorem modCore_net (p src : Nat) (f : Core → Core) (s : State) : (modCore p src f s).net = s.net := rfl
@[simp] theorem modCore_outs (p src : Nat) (f : Core → Core) (s : State) : (modCore p src f s).outs = s.outs := rfl

/-! ### modDroop -/

@[simp] theorem modDroop_pending (p : Nat) (f : Droop → Droop) (s : State) : (modDroop p f s).pending = s.pending := rfl
@[simp] theorem modDroop_free (p : Nat) (f : Droop → Droop) (s : State) : (modDroop p f s).free = s.free := rfl
@[simp] theorem modDroop_hubA (p : Nat) (f : Droop → Droop) (s : State) : (modDroop p f s).hubA = s.hubA := rfl
@[simp] theorem modDroop_hubB (p : Nat) (f : Droop → Droop) (s : State) : (modDroop p f s).hubB = s.hubB := rfl
@[simp] theorem modDroop_cmd (p : Nat) (f : Droop → Droop) (s : State) : (modDroop p f s).cmd = s.cmd := rfl
@[simp] theorem modDroop_sync (p : Nat) (f : Droop → Droop) (s : State) : (modDroop p f s).sync = s.sync := rfl
@[simp] theorem modDroop_defects (p : Nat) (f : Droop → Droop) (s : State) : (modDroop p f s).defects = s.defects := rfl
@[simp] theorem modDroop_quarry (p : Nat) (f : Droop → Droop) (s : State) : (modDroop p f s).quarry = s.quarry := rfl
@[simp] theorem modDroop_test (p : Nat) (f : Droop → Droop) (s : State) : (modDroop p f s).test = s.test := rfl
@[simp] theorem modDroop_gov (p : Nat) (f : Droop → Droop) (s : State) : (modDroop p f s).gov = s.gov := rfl
@[simp] theorem modDroop_tst (p : Nat) (f : Droop → Droop) (s : State) : (modDroop p f s).tst = s.tst := rfl
@[simp] theorem modDroop_strata (p : Nat) (f : Droop → Droop) (s : State) : (modDroop p f s).strata = s.strata := rfl
@[simp] theorem modDroop_keys (p : Nat) (f : Droop → Droop) (s : State) : (modDroop p f s).keys = s.keys := rfl
@[simp] theorem modDroop_boot (p : Nat) (f : Droop → Droop) (s : State) : (modDroop p f s).boot = s.boot := rfl
@[simp] theorem modDroop_links (p : Nat) (f : Droop → Droop) (s : State) : (modDroop p f s).links = s.links := rfl
@[simp] theorem modDroop_cairn (p : Nat) (f : Droop → Droop) (s : State) : (modDroop p f s).cairn = s.cairn := rfl
@[simp] theorem modDroop_vein (p : Nat) (f : Droop → Droop) (s : State) : (modDroop p f s).vein = s.vein := rfl
@[simp] theorem modDroop_mir (p : Nat) (f : Droop → Droop) (s : State) : (modDroop p f s).mir = s.mir := rfl
@[simp] theorem modDroop_net (p : Nat) (f : Droop → Droop) (s : State) : (modDroop p f s).net = s.net := rfl
@[simp] theorem modDroop_outs (p : Nat) (f : Droop → Droop) (s : State) : (modDroop p f s).outs = s.outs := rfl

/-! ### modReset -/

@[simp] theorem modReset_pending (p : Nat) (f : Reset → Reset) (s : State) : (modReset p f s).pending = s.pending := rfl
@[simp] theorem modReset_free (p : Nat) (f : Reset → Reset) (s : State) : (modReset p f s).free = s.free := rfl
@[simp] theorem modReset_hubA (p : Nat) (f : Reset → Reset) (s : State) : (modReset p f s).hubA = s.hubA := rfl
@[simp] theorem modReset_hubB (p : Nat) (f : Reset → Reset) (s : State) : (modReset p f s).hubB = s.hubB := rfl
@[simp] theorem modReset_cmd (p : Nat) (f : Reset → Reset) (s : State) : (modReset p f s).cmd = s.cmd := rfl
@[simp] theorem modReset_sync (p : Nat) (f : Reset → Reset) (s : State) : (modReset p f s).sync = s.sync := rfl
@[simp] theorem modReset_defects (p : Nat) (f : Reset → Reset) (s : State) : (modReset p f s).defects = s.defects := rfl
@[simp] theorem modReset_quarry (p : Nat) (f : Reset → Reset) (s : State) : (modReset p f s).quarry = s.quarry := rfl
@[simp] theorem modReset_test (p : Nat) (f : Reset → Reset) (s : State) : (modReset p f s).test = s.test := rfl
@[simp] theorem modReset_gov (p : Nat) (f : Reset → Reset) (s : State) : (modReset p f s).gov = s.gov := rfl
@[simp] theorem modReset_tst (p : Nat) (f : Reset → Reset) (s : State) : (modReset p f s).tst = s.tst := rfl
@[simp] theorem modReset_strata (p : Nat) (f : Reset → Reset) (s : State) : (modReset p f s).strata = s.strata := rfl
@[simp] theorem modReset_keys (p : Nat) (f : Reset → Reset) (s : State) : (modReset p f s).keys = s.keys := rfl
@[simp] theorem modReset_boot (p : Nat) (f : Reset → Reset) (s : State) : (modReset p f s).boot = s.boot := rfl
@[simp] theorem modReset_links (p : Nat) (f : Reset → Reset) (s : State) : (modReset p f s).links = s.links := rfl
@[simp] theorem modReset_cairn (p : Nat) (f : Reset → Reset) (s : State) : (modReset p f s).cairn = s.cairn := rfl
@[simp] theorem modReset_vein (p : Nat) (f : Reset → Reset) (s : State) : (modReset p f s).vein = s.vein := rfl
@[simp] theorem modReset_mir (p : Nat) (f : Reset → Reset) (s : State) : (modReset p f s).mir = s.mir := rfl
@[simp] theorem modReset_net (p : Nat) (f : Reset → Reset) (s : State) : (modReset p f s).net = s.net := rfl
@[simp] theorem modReset_outs (p : Nat) (f : Reset → Reset) (s : State) : (modReset p f s).outs = s.outs := rfl

/-! ### raiseW -/

@[simp] theorem raiseW_pending (p : Nat) (e : Ev) (s : State) : (raiseW p e s).pending = s.pending := rfl
@[simp] theorem raiseW_free (p : Nat) (e : Ev) (s : State) : (raiseW p e s).free = s.free := rfl
@[simp] theorem raiseW_hubA (p : Nat) (e : Ev) (s : State) : (raiseW p e s).hubA = s.hubA := rfl
@[simp] theorem raiseW_hubB (p : Nat) (e : Ev) (s : State) : (raiseW p e s).hubB = s.hubB := rfl
@[simp] theorem raiseW_cmd (p : Nat) (e : Ev) (s : State) : (raiseW p e s).cmd = s.cmd := rfl
@[simp] theorem raiseW_sync (p : Nat) (e : Ev) (s : State) : (raiseW p e s).sync = s.sync := rfl
@[simp] theorem raiseW_defects (p : Nat) (e : Ev) (s : State) : (raiseW p e s).defects = s.defects := rfl
@[simp] theorem raiseW_quarry (p : Nat) (e : Ev) (s : State) : (raiseW p e s).quarry = s.quarry := rfl
@[simp] theorem raiseW_test (p : Nat) (e : Ev) (s : State) : (raiseW p e s).test = s.test := rfl
@[simp] theorem raiseW_gov (p : Nat) (e : Ev) (s : State) : (raiseW p e s).gov = s.gov := rfl
@[simp] theorem raiseW_tst (p : Nat) (e : Ev) (s : State) : (raiseW p e s).tst = s.tst := rfl
@[simp] theorem raiseW_strata (p : Nat) (e : Ev) (s : State) : (raiseW p e s).strata = s.strata := rfl
@[simp] theorem raiseW_keys (p : Nat) (e : Ev) (s : State) : (raiseW p e s).keys = s.keys := rfl
@[simp] theorem raiseW_boot (p : Nat) (e : Ev) (s : State) : (raiseW p e s).boot = s.boot := rfl
@[simp] theorem raiseW_links (p : Nat) (e : Ev) (s : State) : (raiseW p e s).links = s.links := rfl
@[simp] theorem raiseW_cairn (p : Nat) (e : Ev) (s : State) : (raiseW p e s).cairn = s.cairn := rfl
@[simp] theorem raiseW_vein (p : Nat) (e : Ev) (s : State) : (raiseW p e s).vein = s.vein := rfl
@[simp] theorem raiseW_mir (p : Nat) (e : Ev) (s : State) : (raiseW p e s).mir = s.mir := rfl
@[simp] theorem raiseW_net (p : Nat) (e : Ev) (s : State) : (raiseW p e s).net = s.net := rfl
@[simp] theorem raiseW_outs (p : Nat) (e : Ev) (s : State) : (raiseW p e s).outs = s.outs := rfl

/-! ### send -/

@[simp] theorem send_pending (m : Msg) (s : State) : (send m s).pending = s.pending := rfl
@[simp] theorem send_free (m : Msg) (s : State) : (send m s).free = s.free := rfl
@[simp] theorem send_hubA (m : Msg) (s : State) : (send m s).hubA = s.hubA := rfl
@[simp] theorem send_hubB (m : Msg) (s : State) : (send m s).hubB = s.hubB := rfl
@[simp] theorem send_wardens (m : Msg) (s : State) : (send m s).wardens = s.wardens := rfl
@[simp] theorem send_cmd (m : Msg) (s : State) : (send m s).cmd = s.cmd := rfl
@[simp] theorem send_sync (m : Msg) (s : State) : (send m s).sync = s.sync := rfl
@[simp] theorem send_defects (m : Msg) (s : State) : (send m s).defects = s.defects := rfl
@[simp] theorem send_quarry (m : Msg) (s : State) : (send m s).quarry = s.quarry := rfl
@[simp] theorem send_test (m : Msg) (s : State) : (send m s).test = s.test := rfl
@[simp] theorem send_gov (m : Msg) (s : State) : (send m s).gov = s.gov := rfl
@[simp] theorem send_tst (m : Msg) (s : State) : (send m s).tst = s.tst := rfl
@[simp] theorem send_strata (m : Msg) (s : State) : (send m s).strata = s.strata := rfl
@[simp] theorem send_keys (m : Msg) (s : State) : (send m s).keys = s.keys := rfl
@[simp] theorem send_boot (m : Msg) (s : State) : (send m s).boot = s.boot := rfl
@[simp] theorem send_links (m : Msg) (s : State) : (send m s).links = s.links := rfl
@[simp] theorem send_cairn (m : Msg) (s : State) : (send m s).cairn = s.cairn := rfl
@[simp] theorem send_vein (m : Msg) (s : State) : (send m s).vein = s.vein := rfl
@[simp] theorem send_mir (m : Msg) (s : State) : (send m s).mir = s.mir := rfl
@[simp] theorem send_outs (m : Msg) (s : State) : (send m s).outs = s.outs := rfl

/-! ### recv -/

@[simp] theorem recv_pending (m : Msg) (s : State) : (recv m s).pending = s.pending := rfl
@[simp] theorem recv_free (m : Msg) (s : State) : (recv m s).free = s.free := rfl
@[simp] theorem recv_hubA (m : Msg) (s : State) : (recv m s).hubA = s.hubA := rfl
@[simp] theorem recv_hubB (m : Msg) (s : State) : (recv m s).hubB = s.hubB := rfl
@[simp] theorem recv_wardens (m : Msg) (s : State) : (recv m s).wardens = s.wardens := rfl
@[simp] theorem recv_cmd (m : Msg) (s : State) : (recv m s).cmd = s.cmd := rfl
@[simp] theorem recv_sync (m : Msg) (s : State) : (recv m s).sync = s.sync := rfl
@[simp] theorem recv_defects (m : Msg) (s : State) : (recv m s).defects = s.defects := rfl
@[simp] theorem recv_quarry (m : Msg) (s : State) : (recv m s).quarry = s.quarry := rfl
@[simp] theorem recv_test (m : Msg) (s : State) : (recv m s).test = s.test := rfl
@[simp] theorem recv_gov (m : Msg) (s : State) : (recv m s).gov = s.gov := rfl
@[simp] theorem recv_tst (m : Msg) (s : State) : (recv m s).tst = s.tst := rfl
@[simp] theorem recv_strata (m : Msg) (s : State) : (recv m s).strata = s.strata := rfl
@[simp] theorem recv_keys (m : Msg) (s : State) : (recv m s).keys = s.keys := rfl
@[simp] theorem recv_boot (m : Msg) (s : State) : (recv m s).boot = s.boot := rfl
@[simp] theorem recv_links (m : Msg) (s : State) : (recv m s).links = s.links := rfl
@[simp] theorem recv_cairn (m : Msg) (s : State) : (recv m s).cairn = s.cairn := rfl
@[simp] theorem recv_vein (m : Msg) (s : State) : (recv m s).vein = s.vein := rfl
@[simp] theorem recv_mir (m : Msg) (s : State) : (recv m s).mir = s.mir := rfl
@[simp] theorem recv_outs (m : Msg) (s : State) : (recv m s).outs = s.outs := rfl

/-! ### drive -/

@[simp] theorem drive_pending (o : Out) (s : State) : (drive o s).pending = s.pending := rfl
@[simp] theorem drive_free (o : Out) (s : State) : (drive o s).free = s.free := rfl
@[simp] theorem drive_hubA (o : Out) (s : State) : (drive o s).hubA = s.hubA := rfl
@[simp] theorem drive_hubB (o : Out) (s : State) : (drive o s).hubB = s.hubB := rfl
@[simp] theorem drive_wardens (o : Out) (s : State) : (drive o s).wardens = s.wardens := rfl
@[simp] theorem drive_cmd (o : Out) (s : State) : (drive o s).cmd = s.cmd := rfl
@[simp] theorem drive_sync (o : Out) (s : State) : (drive o s).sync = s.sync := rfl
@[simp] theorem drive_defects (o : Out) (s : State) : (drive o s).defects = s.defects := rfl
@[simp] theorem drive_quarry (o : Out) (s : State) : (drive o s).quarry = s.quarry := rfl
@[simp] theorem drive_test (o : Out) (s : State) : (drive o s).test = s.test := rfl
@[simp] theorem drive_gov (o : Out) (s : State) : (drive o s).gov = s.gov := rfl
@[simp] theorem drive_tst (o : Out) (s : State) : (drive o s).tst = s.tst := rfl
@[simp] theorem drive_strata (o : Out) (s : State) : (drive o s).strata = s.strata := rfl
@[simp] theorem drive_keys (o : Out) (s : State) : (drive o s).keys = s.keys := rfl
@[simp] theorem drive_boot (o : Out) (s : State) : (drive o s).boot = s.boot := rfl
@[simp] theorem drive_links (o : Out) (s : State) : (drive o s).links = s.links := rfl
@[simp] theorem drive_cairn (o : Out) (s : State) : (drive o s).cairn = s.cairn := rfl
@[simp] theorem drive_vein (o : Out) (s : State) : (drive o s).vein = s.vein := rfl
@[simp] theorem drive_mir (o : Out) (s : State) : (drive o s).mir = s.mir := rfl
@[simp] theorem drive_net (o : Out) (s : State) : (drive o s).net = s.net := rfl

/-! ### modQueue -/

@[simp] theorem modQueue_pending (q : Nat) (f : Queue → Queue) (s : State) : (modQueue q f s).pending = s.pending := rfl
@[simp] theorem modQueue_free (q : Nat) (f : Queue → Queue) (s : State) : (modQueue q f s).free = s.free := rfl
@[simp] theorem modQueue_hubA (q : Nat) (f : Queue → Queue) (s : State) : (modQueue q f s).hubA = s.hubA := rfl
@[simp] theorem modQueue_hubB (q : Nat) (f : Queue → Queue) (s : State) : (modQueue q f s).hubB = s.hubB := rfl
@[simp] theorem modQueue_wardens (q : Nat) (f : Queue → Queue) (s : State) : (modQueue q f s).wardens = s.wardens := rfl
@[simp] theorem modQueue_sync (q : Nat) (f : Queue → Queue) (s : State) : (modQueue q f s).sync = s.sync := rfl
@[simp] theorem modQueue_defects (q : Nat) (f : Queue → Queue) (s : State) : (modQueue q f s).defects = s.defects := rfl
@[simp] theorem modQueue_quarry (q : Nat) (f : Queue → Queue) (s : State) : (modQueue q f s).quarry = s.quarry := rfl
@[simp] theorem modQueue_test (q : Nat) (f : Queue → Queue) (s : State) : (modQueue q f s).test = s.test := rfl
@[simp] theorem modQueue_gov (q : Nat) (f : Queue → Queue) (s : State) : (modQueue q f s).gov = s.gov := rfl
@[simp] theorem modQueue_tst (q : Nat) (f : Queue → Queue) (s : State) : (modQueue q f s).tst = s.tst := rfl
@[simp] theorem modQueue_strata (q : Nat) (f : Queue → Queue) (s : State) : (modQueue q f s).strata = s.strata := rfl
@[simp] theorem modQueue_keys (q : Nat) (f : Queue → Queue) (s : State) : (modQueue q f s).keys = s.keys := rfl
@[simp] theorem modQueue_boot (q : Nat) (f : Queue → Queue) (s : State) : (modQueue q f s).boot = s.boot := rfl
@[simp] theorem modQueue_links (q : Nat) (f : Queue → Queue) (s : State) : (modQueue q f s).links = s.links := rfl
@[simp] theorem modQueue_cairn (q : Nat) (f : Queue → Queue) (s : State) : (modQueue q f s).cairn = s.cairn := rfl
@[simp] theorem modQueue_vein (q : Nat) (f : Queue → Queue) (s : State) : (modQueue q f s).vein = s.vein := rfl
@[simp] theorem modQueue_mir (q : Nat) (f : Queue → Queue) (s : State) : (modQueue q f s).mir = s.mir := rfl
@[simp] theorem modQueue_net (q : Nat) (f : Queue → Queue) (s : State) : (modQueue q f s).net = s.net := rfl
@[simp] theorem modQueue_outs (q : Nat) (f : Queue → Queue) (s : State) : (modQueue q f s).outs = s.outs := rfl

/-! ### putResult -/

@[simp] theorem putResult_pending (q : Nat) (n : BitVec 16) (b : List Byte) (s : State) : (putResult q n b s).pending = s.pending := rfl
@[simp] theorem putResult_free (q : Nat) (n : BitVec 16) (b : List Byte) (s : State) : (putResult q n b s).free = s.free := rfl
@[simp] theorem putResult_hubA (q : Nat) (n : BitVec 16) (b : List Byte) (s : State) : (putResult q n b s).hubA = s.hubA := rfl
@[simp] theorem putResult_hubB (q : Nat) (n : BitVec 16) (b : List Byte) (s : State) : (putResult q n b s).hubB = s.hubB := rfl
@[simp] theorem putResult_wardens (q : Nat) (n : BitVec 16) (b : List Byte) (s : State) : (putResult q n b s).wardens = s.wardens := rfl
@[simp] theorem putResult_sync (q : Nat) (n : BitVec 16) (b : List Byte) (s : State) : (putResult q n b s).sync = s.sync := rfl
@[simp] theorem putResult_defects (q : Nat) (n : BitVec 16) (b : List Byte) (s : State) : (putResult q n b s).defects = s.defects := rfl
@[simp] theorem putResult_quarry (q : Nat) (n : BitVec 16) (b : List Byte) (s : State) : (putResult q n b s).quarry = s.quarry := rfl
@[simp] theorem putResult_test (q : Nat) (n : BitVec 16) (b : List Byte) (s : State) : (putResult q n b s).test = s.test := rfl
@[simp] theorem putResult_gov (q : Nat) (n : BitVec 16) (b : List Byte) (s : State) : (putResult q n b s).gov = s.gov := rfl
@[simp] theorem putResult_tst (q : Nat) (n : BitVec 16) (b : List Byte) (s : State) : (putResult q n b s).tst = s.tst := rfl
@[simp] theorem putResult_strata (q : Nat) (n : BitVec 16) (b : List Byte) (s : State) : (putResult q n b s).strata = s.strata := rfl
@[simp] theorem putResult_keys (q : Nat) (n : BitVec 16) (b : List Byte) (s : State) : (putResult q n b s).keys = s.keys := rfl
@[simp] theorem putResult_boot (q : Nat) (n : BitVec 16) (b : List Byte) (s : State) : (putResult q n b s).boot = s.boot := rfl
@[simp] theorem putResult_links (q : Nat) (n : BitVec 16) (b : List Byte) (s : State) : (putResult q n b s).links = s.links := rfl
@[simp] theorem putResult_cairn (q : Nat) (n : BitVec 16) (b : List Byte) (s : State) : (putResult q n b s).cairn = s.cairn := rfl
@[simp] theorem putResult_vein (q : Nat) (n : BitVec 16) (b : List Byte) (s : State) : (putResult q n b s).vein = s.vein := rfl
@[simp] theorem putResult_mir (q : Nat) (n : BitVec 16) (b : List Byte) (s : State) : (putResult q n b s).mir = s.mir := rfl
@[simp] theorem putResult_net (q : Nat) (n : BitVec 16) (b : List Byte) (s : State) : (putResult q n b s).net = s.net := rfl
@[simp] theorem putResult_outs (q : Nat) (n : BitVec 16) (b : List Byte) (s : State) : (putResult q n b s).outs = s.outs := rfl

/-! ### modLink -/

@[simp] theorem modLink_pending (j : Nat) (f : Link → Link) (s : State) : (modLink j f s).pending = s.pending := rfl
@[simp] theorem modLink_free (j : Nat) (f : Link → Link) (s : State) : (modLink j f s).free = s.free := rfl
@[simp] theorem modLink_hubA (j : Nat) (f : Link → Link) (s : State) : (modLink j f s).hubA = s.hubA := rfl
@[simp] theorem modLink_hubB (j : Nat) (f : Link → Link) (s : State) : (modLink j f s).hubB = s.hubB := rfl
@[simp] theorem modLink_wardens (j : Nat) (f : Link → Link) (s : State) : (modLink j f s).wardens = s.wardens := rfl
@[simp] theorem modLink_cmd (j : Nat) (f : Link → Link) (s : State) : (modLink j f s).cmd = s.cmd := rfl
@[simp] theorem modLink_sync (j : Nat) (f : Link → Link) (s : State) : (modLink j f s).sync = s.sync := rfl
@[simp] theorem modLink_defects (j : Nat) (f : Link → Link) (s : State) : (modLink j f s).defects = s.defects := rfl
@[simp] theorem modLink_quarry (j : Nat) (f : Link → Link) (s : State) : (modLink j f s).quarry = s.quarry := rfl
@[simp] theorem modLink_test (j : Nat) (f : Link → Link) (s : State) : (modLink j f s).test = s.test := rfl
@[simp] theorem modLink_gov (j : Nat) (f : Link → Link) (s : State) : (modLink j f s).gov = s.gov := rfl
@[simp] theorem modLink_tst (j : Nat) (f : Link → Link) (s : State) : (modLink j f s).tst = s.tst := rfl
@[simp] theorem modLink_strata (j : Nat) (f : Link → Link) (s : State) : (modLink j f s).strata = s.strata := rfl
@[simp] theorem modLink_keys (j : Nat) (f : Link → Link) (s : State) : (modLink j f s).keys = s.keys := rfl
@[simp] theorem modLink_boot (j : Nat) (f : Link → Link) (s : State) : (modLink j f s).boot = s.boot := rfl
@[simp] theorem modLink_cairn (j : Nat) (f : Link → Link) (s : State) : (modLink j f s).cairn = s.cairn := rfl
@[simp] theorem modLink_vein (j : Nat) (f : Link → Link) (s : State) : (modLink j f s).vein = s.vein := rfl
@[simp] theorem modLink_mir (j : Nat) (f : Link → Link) (s : State) : (modLink j f s).mir = s.mir := rfl
@[simp] theorem modLink_net (j : Nat) (f : Link → Link) (s : State) : (modLink j f s).net = s.net := rfl
@[simp] theorem modLink_outs (j : Nat) (f : Link → Link) (s : State) : (modLink j f s).outs = s.outs := rfl

/-! ### modDefects -/

@[simp] theorem modDefects_pending (f : Defects → Defects) (s : State) : (modDefects f s).pending = s.pending := rfl
@[simp] theorem modDefects_free (f : Defects → Defects) (s : State) : (modDefects f s).free = s.free := rfl
@[simp] theorem modDefects_hubA (f : Defects → Defects) (s : State) : (modDefects f s).hubA = s.hubA := rfl
@[simp] theorem modDefects_hubB (f : Defects → Defects) (s : State) : (modDefects f s).hubB = s.hubB := rfl
@[simp] theorem modDefects_wardens (f : Defects → Defects) (s : State) : (modDefects f s).wardens = s.wardens := rfl
@[simp] theorem modDefects_cmd (f : Defects → Defects) (s : State) : (modDefects f s).cmd = s.cmd := rfl
@[simp] theorem modDefects_sync (f : Defects → Defects) (s : State) : (modDefects f s).sync = s.sync := rfl
@[simp] theorem modDefects_quarry (f : Defects → Defects) (s : State) : (modDefects f s).quarry = s.quarry := rfl
@[simp] theorem modDefects_test (f : Defects → Defects) (s : State) : (modDefects f s).test = s.test := rfl
@[simp] theorem modDefects_gov (f : Defects → Defects) (s : State) : (modDefects f s).gov = s.gov := rfl
@[simp] theorem modDefects_tst (f : Defects → Defects) (s : State) : (modDefects f s).tst = s.tst := rfl
@[simp] theorem modDefects_strata (f : Defects → Defects) (s : State) : (modDefects f s).strata = s.strata := rfl
@[simp] theorem modDefects_keys (f : Defects → Defects) (s : State) : (modDefects f s).keys = s.keys := rfl
@[simp] theorem modDefects_boot (f : Defects → Defects) (s : State) : (modDefects f s).boot = s.boot := rfl
@[simp] theorem modDefects_links (f : Defects → Defects) (s : State) : (modDefects f s).links = s.links := rfl
@[simp] theorem modDefects_cairn (f : Defects → Defects) (s : State) : (modDefects f s).cairn = s.cairn := rfl
@[simp] theorem modDefects_vein (f : Defects → Defects) (s : State) : (modDefects f s).vein = s.vein := rfl
@[simp] theorem modDefects_mir (f : Defects → Defects) (s : State) : (modDefects f s).mir = s.mir := rfl
@[simp] theorem modDefects_net (f : Defects → Defects) (s : State) : (modDefects f s).net = s.net := rfl
@[simp] theorem modDefects_outs (f : Defects → Defects) (s : State) : (modDefects f s).outs = s.outs := rfl

/-! ### modUnit -/

@[simp] theorem modUnit_pending (u : Nat) (f : GUnit → GUnit) (s : State) : (modUnit u f s).pending = s.pending := rfl
@[simp] theorem modUnit_free (u : Nat) (f : GUnit → GUnit) (s : State) : (modUnit u f s).free = s.free := rfl
@[simp] theorem modUnit_hubA (u : Nat) (f : GUnit → GUnit) (s : State) : (modUnit u f s).hubA = s.hubA := rfl
@[simp] theorem modUnit_hubB (u : Nat) (f : GUnit → GUnit) (s : State) : (modUnit u f s).hubB = s.hubB := rfl
@[simp] theorem modUnit_wardens (u : Nat) (f : GUnit → GUnit) (s : State) : (modUnit u f s).wardens = s.wardens := rfl
@[simp] theorem modUnit_cmd (u : Nat) (f : GUnit → GUnit) (s : State) : (modUnit u f s).cmd = s.cmd := rfl
@[simp] theorem modUnit_sync (u : Nat) (f : GUnit → GUnit) (s : State) : (modUnit u f s).sync = s.sync := rfl
@[simp] theorem modUnit_defects (u : Nat) (f : GUnit → GUnit) (s : State) : (modUnit u f s).defects = s.defects := rfl
@[simp] theorem modUnit_quarry (u : Nat) (f : GUnit → GUnit) (s : State) : (modUnit u f s).quarry = s.quarry := rfl
@[simp] theorem modUnit_test (u : Nat) (f : GUnit → GUnit) (s : State) : (modUnit u f s).test = s.test := rfl
@[simp] theorem modUnit_tst (u : Nat) (f : GUnit → GUnit) (s : State) : (modUnit u f s).tst = s.tst := rfl
@[simp] theorem modUnit_strata (u : Nat) (f : GUnit → GUnit) (s : State) : (modUnit u f s).strata = s.strata := rfl
@[simp] theorem modUnit_keys (u : Nat) (f : GUnit → GUnit) (s : State) : (modUnit u f s).keys = s.keys := rfl
@[simp] theorem modUnit_boot (u : Nat) (f : GUnit → GUnit) (s : State) : (modUnit u f s).boot = s.boot := rfl
@[simp] theorem modUnit_links (u : Nat) (f : GUnit → GUnit) (s : State) : (modUnit u f s).links = s.links := rfl
@[simp] theorem modUnit_cairn (u : Nat) (f : GUnit → GUnit) (s : State) : (modUnit u f s).cairn = s.cairn := rfl
@[simp] theorem modUnit_vein (u : Nat) (f : GUnit → GUnit) (s : State) : (modUnit u f s).vein = s.vein := rfl
@[simp] theorem modUnit_mir (u : Nat) (f : GUnit → GUnit) (s : State) : (modUnit u f s).mir = s.mir := rfl
@[simp] theorem modUnit_net (u : Nat) (f : GUnit → GUnit) (s : State) : (modUnit u f s).net = s.net := rfl
@[simp] theorem modUnit_outs (u : Nat) (f : GUnit → GUnit) (s : State) : (modUnit u f s).outs = s.outs := rfl

/-! ### modMir -/

@[simp] theorem modMir_pending (f : Mirror → Mirror) (s : State) : (modMir f s).pending = s.pending := rfl
@[simp] theorem modMir_free (f : Mirror → Mirror) (s : State) : (modMir f s).free = s.free := rfl
@[simp] theorem modMir_hubA (f : Mirror → Mirror) (s : State) : (modMir f s).hubA = s.hubA := rfl
@[simp] theorem modMir_hubB (f : Mirror → Mirror) (s : State) : (modMir f s).hubB = s.hubB := rfl
@[simp] theorem modMir_wardens (f : Mirror → Mirror) (s : State) : (modMir f s).wardens = s.wardens := rfl
@[simp] theorem modMir_cmd (f : Mirror → Mirror) (s : State) : (modMir f s).cmd = s.cmd := rfl
@[simp] theorem modMir_sync (f : Mirror → Mirror) (s : State) : (modMir f s).sync = s.sync := rfl
@[simp] theorem modMir_defects (f : Mirror → Mirror) (s : State) : (modMir f s).defects = s.defects := rfl
@[simp] theorem modMir_quarry (f : Mirror → Mirror) (s : State) : (modMir f s).quarry = s.quarry := rfl
@[simp] theorem modMir_test (f : Mirror → Mirror) (s : State) : (modMir f s).test = s.test := rfl
@[simp] theorem modMir_gov (f : Mirror → Mirror) (s : State) : (modMir f s).gov = s.gov := rfl
@[simp] theorem modMir_tst (f : Mirror → Mirror) (s : State) : (modMir f s).tst = s.tst := rfl
@[simp] theorem modMir_strata (f : Mirror → Mirror) (s : State) : (modMir f s).strata = s.strata := rfl
@[simp] theorem modMir_keys (f : Mirror → Mirror) (s : State) : (modMir f s).keys = s.keys := rfl
@[simp] theorem modMir_boot (f : Mirror → Mirror) (s : State) : (modMir f s).boot = s.boot := rfl
@[simp] theorem modMir_links (f : Mirror → Mirror) (s : State) : (modMir f s).links = s.links := rfl
@[simp] theorem modMir_cairn (f : Mirror → Mirror) (s : State) : (modMir f s).cairn = s.cairn := rfl
@[simp] theorem modMir_vein (f : Mirror → Mirror) (s : State) : (modMir f s).vein = s.vein := rfl
@[simp] theorem modMir_net (f : Mirror → Mirror) (s : State) : (modMir f s).net = s.net := rfl
@[simp] theorem modMir_outs (f : Mirror → Mirror) (s : State) : (modMir f s).outs = s.outs := rfl

/-! ### modCairn -/

@[simp] theorem modCairn_pending (f : Cairn → Cairn) (s : State) : (modCairn f s).pending = s.pending := rfl
@[simp] theorem modCairn_free (f : Cairn → Cairn) (s : State) : (modCairn f s).free = s.free := rfl
@[simp] theorem modCairn_hubA (f : Cairn → Cairn) (s : State) : (modCairn f s).hubA = s.hubA := rfl
@[simp] theorem modCairn_hubB (f : Cairn → Cairn) (s : State) : (modCairn f s).hubB = s.hubB := rfl
@[simp] theorem modCairn_wardens (f : Cairn → Cairn) (s : State) : (modCairn f s).wardens = s.wardens := rfl
@[simp] theorem modCairn_cmd (f : Cairn → Cairn) (s : State) : (modCairn f s).cmd = s.cmd := rfl
@[simp] theorem modCairn_sync (f : Cairn → Cairn) (s : State) : (modCairn f s).sync = s.sync := rfl
@[simp] theorem modCairn_defects (f : Cairn → Cairn) (s : State) : (modCairn f s).defects = s.defects := rfl
@[simp] theorem modCairn_quarry (f : Cairn → Cairn) (s : State) : (modCairn f s).quarry = s.quarry := rfl
@[simp] theorem modCairn_test (f : Cairn → Cairn) (s : State) : (modCairn f s).test = s.test := rfl
@[simp] theorem modCairn_gov (f : Cairn → Cairn) (s : State) : (modCairn f s).gov = s.gov := rfl
@[simp] theorem modCairn_tst (f : Cairn → Cairn) (s : State) : (modCairn f s).tst = s.tst := rfl
@[simp] theorem modCairn_strata (f : Cairn → Cairn) (s : State) : (modCairn f s).strata = s.strata := rfl
@[simp] theorem modCairn_keys (f : Cairn → Cairn) (s : State) : (modCairn f s).keys = s.keys := rfl
@[simp] theorem modCairn_boot (f : Cairn → Cairn) (s : State) : (modCairn f s).boot = s.boot := rfl
@[simp] theorem modCairn_links (f : Cairn → Cairn) (s : State) : (modCairn f s).links = s.links := rfl
@[simp] theorem modCairn_vein (f : Cairn → Cairn) (s : State) : (modCairn f s).vein = s.vein := rfl
@[simp] theorem modCairn_mir (f : Cairn → Cairn) (s : State) : (modCairn f s).mir = s.mir := rfl
@[simp] theorem modCairn_net (f : Cairn → Cairn) (s : State) : (modCairn f s).net = s.net := rfl
@[simp] theorem modCairn_outs (f : Cairn → Cairn) (s : State) : (modCairn f s).outs = s.outs := rfl

/-! ### modStrata -/

@[simp] theorem modStrata_pending (f : StrataB → StrataB) (s : State) : (modStrata f s).pending = s.pending := rfl
@[simp] theorem modStrata_free (f : StrataB → StrataB) (s : State) : (modStrata f s).free = s.free := rfl
@[simp] theorem modStrata_hubA (f : StrataB → StrataB) (s : State) : (modStrata f s).hubA = s.hubA := rfl
@[simp] theorem modStrata_hubB (f : StrataB → StrataB) (s : State) : (modStrata f s).hubB = s.hubB := rfl
@[simp] theorem modStrata_wardens (f : StrataB → StrataB) (s : State) : (modStrata f s).wardens = s.wardens := rfl
@[simp] theorem modStrata_cmd (f : StrataB → StrataB) (s : State) : (modStrata f s).cmd = s.cmd := rfl
@[simp] theorem modStrata_sync (f : StrataB → StrataB) (s : State) : (modStrata f s).sync = s.sync := rfl
@[simp] theorem modStrata_defects (f : StrataB → StrataB) (s : State) : (modStrata f s).defects = s.defects := rfl
@[simp] theorem modStrata_quarry (f : StrataB → StrataB) (s : State) : (modStrata f s).quarry = s.quarry := rfl
@[simp] theorem modStrata_test (f : StrataB → StrataB) (s : State) : (modStrata f s).test = s.test := rfl
@[simp] theorem modStrata_gov (f : StrataB → StrataB) (s : State) : (modStrata f s).gov = s.gov := rfl
@[simp] theorem modStrata_tst (f : StrataB → StrataB) (s : State) : (modStrata f s).tst = s.tst := rfl
@[simp] theorem modStrata_keys (f : StrataB → StrataB) (s : State) : (modStrata f s).keys = s.keys := rfl
@[simp] theorem modStrata_boot (f : StrataB → StrataB) (s : State) : (modStrata f s).boot = s.boot := rfl
@[simp] theorem modStrata_links (f : StrataB → StrataB) (s : State) : (modStrata f s).links = s.links := rfl
@[simp] theorem modStrata_cairn (f : StrataB → StrataB) (s : State) : (modStrata f s).cairn = s.cairn := rfl
@[simp] theorem modStrata_vein (f : StrataB → StrataB) (s : State) : (modStrata f s).vein = s.vein := rfl
@[simp] theorem modStrata_mir (f : StrataB → StrataB) (s : State) : (modStrata f s).mir = s.mir := rfl
@[simp] theorem modStrata_net (f : StrataB → StrataB) (s : State) : (modStrata f s).net = s.net := rfl
@[simp] theorem modStrata_outs (f : StrataB → StrataB) (s : State) : (modStrata f s).outs = s.outs := rfl

/-! ### modObj -/

@[simp] theorem modObj_pending (o : Nat) (f : SyncObj → SyncObj) (s : State) : (modObj o f s).pending = s.pending := rfl
@[simp] theorem modObj_free (o : Nat) (f : SyncObj → SyncObj) (s : State) : (modObj o f s).free = s.free := rfl
@[simp] theorem modObj_hubA (o : Nat) (f : SyncObj → SyncObj) (s : State) : (modObj o f s).hubA = s.hubA := rfl
@[simp] theorem modObj_hubB (o : Nat) (f : SyncObj → SyncObj) (s : State) : (modObj o f s).hubB = s.hubB := rfl
@[simp] theorem modObj_wardens (o : Nat) (f : SyncObj → SyncObj) (s : State) : (modObj o f s).wardens = s.wardens := rfl
@[simp] theorem modObj_cmd (o : Nat) (f : SyncObj → SyncObj) (s : State) : (modObj o f s).cmd = s.cmd := rfl
@[simp] theorem modObj_defects (o : Nat) (f : SyncObj → SyncObj) (s : State) : (modObj o f s).defects = s.defects := rfl
@[simp] theorem modObj_quarry (o : Nat) (f : SyncObj → SyncObj) (s : State) : (modObj o f s).quarry = s.quarry := rfl
@[simp] theorem modObj_test (o : Nat) (f : SyncObj → SyncObj) (s : State) : (modObj o f s).test = s.test := rfl
@[simp] theorem modObj_gov (o : Nat) (f : SyncObj → SyncObj) (s : State) : (modObj o f s).gov = s.gov := rfl
@[simp] theorem modObj_tst (o : Nat) (f : SyncObj → SyncObj) (s : State) : (modObj o f s).tst = s.tst := rfl
@[simp] theorem modObj_strata (o : Nat) (f : SyncObj → SyncObj) (s : State) : (modObj o f s).strata = s.strata := rfl
@[simp] theorem modObj_keys (o : Nat) (f : SyncObj → SyncObj) (s : State) : (modObj o f s).keys = s.keys := rfl
@[simp] theorem modObj_boot (o : Nat) (f : SyncObj → SyncObj) (s : State) : (modObj o f s).boot = s.boot := rfl
@[simp] theorem modObj_links (o : Nat) (f : SyncObj → SyncObj) (s : State) : (modObj o f s).links = s.links := rfl
@[simp] theorem modObj_cairn (o : Nat) (f : SyncObj → SyncObj) (s : State) : (modObj o f s).cairn = s.cairn := rfl
@[simp] theorem modObj_vein (o : Nat) (f : SyncObj → SyncObj) (s : State) : (modObj o f s).vein = s.vein := rfl
@[simp] theorem modObj_mir (o : Nat) (f : SyncObj → SyncObj) (s : State) : (modObj o f s).mir = s.mir := rfl
@[simp] theorem modObj_net (o : Nat) (f : SyncObj → SyncObj) (s : State) : (modObj o f s).net = s.net := rfl
@[simp] theorem modObj_outs (o : Nat) (f : SyncObj → SyncObj) (s : State) : (modObj o f s).outs = s.outs := rfl

/-! ### modGather -/

@[simp] theorem modGather_pending (o : Nat) (f : Gather → Gather) (s : State) : (modGather o f s).pending = s.pending := rfl
@[simp] theorem modGather_free (o : Nat) (f : Gather → Gather) (s : State) : (modGather o f s).free = s.free := rfl
@[simp] theorem modGather_hubA (o : Nat) (f : Gather → Gather) (s : State) : (modGather o f s).hubA = s.hubA := rfl
@[simp] theorem modGather_hubB (o : Nat) (f : Gather → Gather) (s : State) : (modGather o f s).hubB = s.hubB := rfl
@[simp] theorem modGather_wardens (o : Nat) (f : Gather → Gather) (s : State) : (modGather o f s).wardens = s.wardens := rfl
@[simp] theorem modGather_cmd (o : Nat) (f : Gather → Gather) (s : State) : (modGather o f s).cmd = s.cmd := rfl
@[simp] theorem modGather_defects (o : Nat) (f : Gather → Gather) (s : State) : (modGather o f s).defects = s.defects := rfl
@[simp] theorem modGather_quarry (o : Nat) (f : Gather → Gather) (s : State) : (modGather o f s).quarry = s.quarry := rfl
@[simp] theorem modGather_test (o : Nat) (f : Gather → Gather) (s : State) : (modGather o f s).test = s.test := rfl
@[simp] theorem modGather_gov (o : Nat) (f : Gather → Gather) (s : State) : (modGather o f s).gov = s.gov := rfl
@[simp] theorem modGather_tst (o : Nat) (f : Gather → Gather) (s : State) : (modGather o f s).tst = s.tst := rfl
@[simp] theorem modGather_strata (o : Nat) (f : Gather → Gather) (s : State) : (modGather o f s).strata = s.strata := rfl
@[simp] theorem modGather_keys (o : Nat) (f : Gather → Gather) (s : State) : (modGather o f s).keys = s.keys := rfl
@[simp] theorem modGather_boot (o : Nat) (f : Gather → Gather) (s : State) : (modGather o f s).boot = s.boot := rfl
@[simp] theorem modGather_links (o : Nat) (f : Gather → Gather) (s : State) : (modGather o f s).links = s.links := rfl
@[simp] theorem modGather_cairn (o : Nat) (f : Gather → Gather) (s : State) : (modGather o f s).cairn = s.cairn := rfl
@[simp] theorem modGather_vein (o : Nat) (f : Gather → Gather) (s : State) : (modGather o f s).vein = s.vein := rfl
@[simp] theorem modGather_mir (o : Nat) (f : Gather → Gather) (s : State) : (modGather o f s).mir = s.mir := rfl
@[simp] theorem modGather_net (o : Nat) (f : Gather → Gather) (s : State) : (modGather o f s).net = s.net := rfl
@[simp] theorem modGather_outs (o : Nat) (f : Gather → Gather) (s : State) : (modGather o f s).outs = s.outs := rfl

/-! ### modTst -/

@[simp] theorem modTst_pending (f : Tstone → Tstone) (s : State) : (modTst f s).pending = s.pending := rfl
@[simp] theorem modTst_free (f : Tstone → Tstone) (s : State) : (modTst f s).free = s.free := rfl
@[simp] theorem modTst_hubA (f : Tstone → Tstone) (s : State) : (modTst f s).hubA = s.hubA := rfl
@[simp] theorem modTst_hubB (f : Tstone → Tstone) (s : State) : (modTst f s).hubB = s.hubB := rfl
@[simp] theorem modTst_wardens (f : Tstone → Tstone) (s : State) : (modTst f s).wardens = s.wardens := rfl
@[simp] theorem modTst_cmd (f : Tstone → Tstone) (s : State) : (modTst f s).cmd = s.cmd := rfl
@[simp] theorem modTst_sync (f : Tstone → Tstone) (s : State) : (modTst f s).sync = s.sync := rfl
@[simp] theorem modTst_defects (f : Tstone → Tstone) (s : State) : (modTst f s).defects = s.defects := rfl
@[simp] theorem modTst_quarry (f : Tstone → Tstone) (s : State) : (modTst f s).quarry = s.quarry := rfl
@[simp] theorem modTst_test (f : Tstone → Tstone) (s : State) : (modTst f s).test = s.test := rfl
@[simp] theorem modTst_gov (f : Tstone → Tstone) (s : State) : (modTst f s).gov = s.gov := rfl
@[simp] theorem modTst_strata (f : Tstone → Tstone) (s : State) : (modTst f s).strata = s.strata := rfl
@[simp] theorem modTst_keys (f : Tstone → Tstone) (s : State) : (modTst f s).keys = s.keys := rfl
@[simp] theorem modTst_boot (f : Tstone → Tstone) (s : State) : (modTst f s).boot = s.boot := rfl
@[simp] theorem modTst_links (f : Tstone → Tstone) (s : State) : (modTst f s).links = s.links := rfl
@[simp] theorem modTst_cairn (f : Tstone → Tstone) (s : State) : (modTst f s).cairn = s.cairn := rfl
@[simp] theorem modTst_vein (f : Tstone → Tstone) (s : State) : (modTst f s).vein = s.vein := rfl
@[simp] theorem modTst_mir (f : Tstone → Tstone) (s : State) : (modTst f s).mir = s.mir := rfl
@[simp] theorem modTst_net (f : Tstone → Tstone) (s : State) : (modTst f s).net = s.net := rfl
@[simp] theorem modTst_outs (f : Tstone → Tstone) (s : State) : (modTst f s).outs = s.outs := rfl

/-! ### modCell -/

@[simp] theorem modCell_pending (k : Nat) (f : Cell → Cell) (s : State) : (modCell k f s).pending = s.pending := rfl
@[simp] theorem modCell_free (k : Nat) (f : Cell → Cell) (s : State) : (modCell k f s).free = s.free := rfl
@[simp] theorem modCell_hubA (k : Nat) (f : Cell → Cell) (s : State) : (modCell k f s).hubA = s.hubA := rfl
@[simp] theorem modCell_hubB (k : Nat) (f : Cell → Cell) (s : State) : (modCell k f s).hubB = s.hubB := rfl
@[simp] theorem modCell_wardens (k : Nat) (f : Cell → Cell) (s : State) : (modCell k f s).wardens = s.wardens := rfl
@[simp] theorem modCell_cmd (k : Nat) (f : Cell → Cell) (s : State) : (modCell k f s).cmd = s.cmd := rfl
@[simp] theorem modCell_sync (k : Nat) (f : Cell → Cell) (s : State) : (modCell k f s).sync = s.sync := rfl
@[simp] theorem modCell_defects (k : Nat) (f : Cell → Cell) (s : State) : (modCell k f s).defects = s.defects := rfl
@[simp] theorem modCell_quarry (k : Nat) (f : Cell → Cell) (s : State) : (modCell k f s).quarry = s.quarry := rfl
@[simp] theorem modCell_test (k : Nat) (f : Cell → Cell) (s : State) : (modCell k f s).test = s.test := rfl
@[simp] theorem modCell_gov (k : Nat) (f : Cell → Cell) (s : State) : (modCell k f s).gov = s.gov := rfl
@[simp] theorem modCell_strata (k : Nat) (f : Cell → Cell) (s : State) : (modCell k f s).strata = s.strata := rfl
@[simp] theorem modCell_keys (k : Nat) (f : Cell → Cell) (s : State) : (modCell k f s).keys = s.keys := rfl
@[simp] theorem modCell_boot (k : Nat) (f : Cell → Cell) (s : State) : (modCell k f s).boot = s.boot := rfl
@[simp] theorem modCell_links (k : Nat) (f : Cell → Cell) (s : State) : (modCell k f s).links = s.links := rfl
@[simp] theorem modCell_cairn (k : Nat) (f : Cell → Cell) (s : State) : (modCell k f s).cairn = s.cairn := rfl
@[simp] theorem modCell_vein (k : Nat) (f : Cell → Cell) (s : State) : (modCell k f s).vein = s.vein := rfl
@[simp] theorem modCell_mir (k : Nat) (f : Cell → Cell) (s : State) : (modCell k f s).mir = s.mir := rfl
@[simp] theorem modCell_net (k : Nat) (f : Cell → Cell) (s : State) : (modCell k f s).net = s.net := rfl
@[simp] theorem modCell_outs (k : Nat) (f : Cell → Cell) (s : State) : (modCell k f s).outs = s.outs := rfl

/-! ### modCap -/

@[simp] theorem modCap_pending (k : Nat) (f : Capture → Capture) (s : State) : (modCap k f s).pending = s.pending := rfl
@[simp] theorem modCap_free (k : Nat) (f : Capture → Capture) (s : State) : (modCap k f s).free = s.free := rfl
@[simp] theorem modCap_hubA (k : Nat) (f : Capture → Capture) (s : State) : (modCap k f s).hubA = s.hubA := rfl
@[simp] theorem modCap_hubB (k : Nat) (f : Capture → Capture) (s : State) : (modCap k f s).hubB = s.hubB := rfl
@[simp] theorem modCap_wardens (k : Nat) (f : Capture → Capture) (s : State) : (modCap k f s).wardens = s.wardens := rfl
@[simp] theorem modCap_cmd (k : Nat) (f : Capture → Capture) (s : State) : (modCap k f s).cmd = s.cmd := rfl
@[simp] theorem modCap_sync (k : Nat) (f : Capture → Capture) (s : State) : (modCap k f s).sync = s.sync := rfl
@[simp] theorem modCap_defects (k : Nat) (f : Capture → Capture) (s : State) : (modCap k f s).defects = s.defects := rfl
@[simp] theorem modCap_quarry (k : Nat) (f : Capture → Capture) (s : State) : (modCap k f s).quarry = s.quarry := rfl
@[simp] theorem modCap_test (k : Nat) (f : Capture → Capture) (s : State) : (modCap k f s).test = s.test := rfl
@[simp] theorem modCap_gov (k : Nat) (f : Capture → Capture) (s : State) : (modCap k f s).gov = s.gov := rfl
@[simp] theorem modCap_strata (k : Nat) (f : Capture → Capture) (s : State) : (modCap k f s).strata = s.strata := rfl
@[simp] theorem modCap_keys (k : Nat) (f : Capture → Capture) (s : State) : (modCap k f s).keys = s.keys := rfl
@[simp] theorem modCap_boot (k : Nat) (f : Capture → Capture) (s : State) : (modCap k f s).boot = s.boot := rfl
@[simp] theorem modCap_links (k : Nat) (f : Capture → Capture) (s : State) : (modCap k f s).links = s.links := rfl
@[simp] theorem modCap_cairn (k : Nat) (f : Capture → Capture) (s : State) : (modCap k f s).cairn = s.cairn := rfl
@[simp] theorem modCap_vein (k : Nat) (f : Capture → Capture) (s : State) : (modCap k f s).vein = s.vein := rfl
@[simp] theorem modCap_mir (k : Nat) (f : Capture → Capture) (s : State) : (modCap k f s).mir = s.mir := rfl
@[simp] theorem modCap_net (k : Nat) (f : Capture → Capture) (s : State) : (modCap k f s).net = s.net := rfl
@[simp] theorem modCap_outs (k : Nat) (f : Capture → Capture) (s : State) : (modCap k f s).outs = s.outs := rfl

/-! ### modNode -/

@[simp] theorem modNode_pending (n : Nat) (f : VNode → VNode) (s : State) : (modNode n f s).pending = s.pending := rfl
@[simp] theorem modNode_free (n : Nat) (f : VNode → VNode) (s : State) : (modNode n f s).free = s.free := rfl
@[simp] theorem modNode_hubA (n : Nat) (f : VNode → VNode) (s : State) : (modNode n f s).hubA = s.hubA := rfl
@[simp] theorem modNode_hubB (n : Nat) (f : VNode → VNode) (s : State) : (modNode n f s).hubB = s.hubB := rfl
@[simp] theorem modNode_wardens (n : Nat) (f : VNode → VNode) (s : State) : (modNode n f s).wardens = s.wardens := rfl
@[simp] theorem modNode_cmd (n : Nat) (f : VNode → VNode) (s : State) : (modNode n f s).cmd = s.cmd := rfl
@[simp] theorem modNode_sync (n : Nat) (f : VNode → VNode) (s : State) : (modNode n f s).sync = s.sync := rfl
@[simp] theorem modNode_defects (n : Nat) (f : VNode → VNode) (s : State) : (modNode n f s).defects = s.defects := rfl
@[simp] theorem modNode_quarry (n : Nat) (f : VNode → VNode) (s : State) : (modNode n f s).quarry = s.quarry := rfl
@[simp] theorem modNode_test (n : Nat) (f : VNode → VNode) (s : State) : (modNode n f s).test = s.test := rfl
@[simp] theorem modNode_gov (n : Nat) (f : VNode → VNode) (s : State) : (modNode n f s).gov = s.gov := rfl
@[simp] theorem modNode_tst (n : Nat) (f : VNode → VNode) (s : State) : (modNode n f s).tst = s.tst := rfl
@[simp] theorem modNode_strata (n : Nat) (f : VNode → VNode) (s : State) : (modNode n f s).strata = s.strata := rfl
@[simp] theorem modNode_keys (n : Nat) (f : VNode → VNode) (s : State) : (modNode n f s).keys = s.keys := rfl
@[simp] theorem modNode_boot (n : Nat) (f : VNode → VNode) (s : State) : (modNode n f s).boot = s.boot := rfl
@[simp] theorem modNode_links (n : Nat) (f : VNode → VNode) (s : State) : (modNode n f s).links = s.links := rfl
@[simp] theorem modNode_cairn (n : Nat) (f : VNode → VNode) (s : State) : (modNode n f s).cairn = s.cairn := rfl
@[simp] theorem modNode_mir (n : Nat) (f : VNode → VNode) (s : State) : (modNode n f s).mir = s.mir := rfl
@[simp] theorem modNode_net (n : Nat) (f : VNode → VNode) (s : State) : (modNode n f s).net = s.net := rfl
@[simp] theorem modNode_outs (n : Nat) (f : VNode → VNode) (s : State) : (modNode n f s).outs = s.outs := rfl

/-! ### modChan -/

@[simp] theorem modChan_pending (ch : Nat) (f : Chan → Chan) (s : State) : (modChan ch f s).pending = s.pending := rfl
@[simp] theorem modChan_free (ch : Nat) (f : Chan → Chan) (s : State) : (modChan ch f s).free = s.free := rfl
@[simp] theorem modChan_hubA (ch : Nat) (f : Chan → Chan) (s : State) : (modChan ch f s).hubA = s.hubA := rfl
@[simp] theorem modChan_hubB (ch : Nat) (f : Chan → Chan) (s : State) : (modChan ch f s).hubB = s.hubB := rfl
@[simp] theorem modChan_cmd (ch : Nat) (f : Chan → Chan) (s : State) : (modChan ch f s).cmd = s.cmd := rfl
@[simp] theorem modChan_sync (ch : Nat) (f : Chan → Chan) (s : State) : (modChan ch f s).sync = s.sync := rfl
@[simp] theorem modChan_defects (ch : Nat) (f : Chan → Chan) (s : State) : (modChan ch f s).defects = s.defects := rfl
@[simp] theorem modChan_quarry (ch : Nat) (f : Chan → Chan) (s : State) : (modChan ch f s).quarry = s.quarry := rfl
@[simp] theorem modChan_test (ch : Nat) (f : Chan → Chan) (s : State) : (modChan ch f s).test = s.test := rfl
@[simp] theorem modChan_gov (ch : Nat) (f : Chan → Chan) (s : State) : (modChan ch f s).gov = s.gov := rfl
@[simp] theorem modChan_tst (ch : Nat) (f : Chan → Chan) (s : State) : (modChan ch f s).tst = s.tst := rfl
@[simp] theorem modChan_strata (ch : Nat) (f : Chan → Chan) (s : State) : (modChan ch f s).strata = s.strata := rfl
@[simp] theorem modChan_keys (ch : Nat) (f : Chan → Chan) (s : State) : (modChan ch f s).keys = s.keys := rfl
@[simp] theorem modChan_boot (ch : Nat) (f : Chan → Chan) (s : State) : (modChan ch f s).boot = s.boot := rfl
@[simp] theorem modChan_links (ch : Nat) (f : Chan → Chan) (s : State) : (modChan ch f s).links = s.links := rfl
@[simp] theorem modChan_cairn (ch : Nat) (f : Chan → Chan) (s : State) : (modChan ch f s).cairn = s.cairn := rfl
@[simp] theorem modChan_vein (ch : Nat) (f : Chan → Chan) (s : State) : (modChan ch f s).vein = s.vein := rfl
@[simp] theorem modChan_mir (ch : Nat) (f : Chan → Chan) (s : State) : (modChan ch f s).mir = s.mir := rfl
@[simp] theorem modChan_net (ch : Nat) (f : Chan → Chan) (s : State) : (modChan ch f s).net = s.net := rfl
@[simp] theorem modChan_outs (ch : Nat) (f : Chan → Chan) (s : State) : (modChan ch f s).outs = s.outs := rfl

/-! ### modTest -/

@[simp] theorem modTest_pending (p src : Nat) (f : TestRun → TestRun) (s : State) : (modTest p src f s).pending = s.pending := rfl
@[simp] theorem modTest_free (p src : Nat) (f : TestRun → TestRun) (s : State) : (modTest p src f s).free = s.free := rfl
@[simp] theorem modTest_hubA (p src : Nat) (f : TestRun → TestRun) (s : State) : (modTest p src f s).hubA = s.hubA := rfl
@[simp] theorem modTest_hubB (p src : Nat) (f : TestRun → TestRun) (s : State) : (modTest p src f s).hubB = s.hubB := rfl
@[simp] theorem modTest_cmd (p src : Nat) (f : TestRun → TestRun) (s : State) : (modTest p src f s).cmd = s.cmd := rfl
@[simp] theorem modTest_sync (p src : Nat) (f : TestRun → TestRun) (s : State) : (modTest p src f s).sync = s.sync := rfl
@[simp] theorem modTest_defects (p src : Nat) (f : TestRun → TestRun) (s : State) : (modTest p src f s).defects = s.defects := rfl
@[simp] theorem modTest_quarry (p src : Nat) (f : TestRun → TestRun) (s : State) : (modTest p src f s).quarry = s.quarry := rfl
@[simp] theorem modTest_test (p src : Nat) (f : TestRun → TestRun) (s : State) : (modTest p src f s).test = s.test := rfl
@[simp] theorem modTest_gov (p src : Nat) (f : TestRun → TestRun) (s : State) : (modTest p src f s).gov = s.gov := rfl
@[simp] theorem modTest_tst (p src : Nat) (f : TestRun → TestRun) (s : State) : (modTest p src f s).tst = s.tst := rfl
@[simp] theorem modTest_strata (p src : Nat) (f : TestRun → TestRun) (s : State) : (modTest p src f s).strata = s.strata := rfl
@[simp] theorem modTest_keys (p src : Nat) (f : TestRun → TestRun) (s : State) : (modTest p src f s).keys = s.keys := rfl
@[simp] theorem modTest_boot (p src : Nat) (f : TestRun → TestRun) (s : State) : (modTest p src f s).boot = s.boot := rfl
@[simp] theorem modTest_links (p src : Nat) (f : TestRun → TestRun) (s : State) : (modTest p src f s).links = s.links := rfl
@[simp] theorem modTest_cairn (p src : Nat) (f : TestRun → TestRun) (s : State) : (modTest p src f s).cairn = s.cairn := rfl
@[simp] theorem modTest_vein (p src : Nat) (f : TestRun → TestRun) (s : State) : (modTest p src f s).vein = s.vein := rfl
@[simp] theorem modTest_mir (p src : Nat) (f : TestRun → TestRun) (s : State) : (modTest p src f s).mir = s.mir := rfl
@[simp] theorem modTest_net (p src : Nat) (f : TestRun → TestRun) (s : State) : (modTest p src f s).net = s.net := rfl
@[simp] theorem modTest_outs (p src : Nat) (f : TestRun → TestRun) (s : State) : (modTest p src f s).outs = s.outs := rfl

/-! ### modBankOff -/

@[simp] theorem modBankOff_pending (p bank : Nat) (f : BankOff → BankOff) (s : State) : (modBankOff p bank f s).pending = s.pending := rfl
@[simp] theorem modBankOff_free (p bank : Nat) (f : BankOff → BankOff) (s : State) : (modBankOff p bank f s).free = s.free := rfl
@[simp] theorem modBankOff_hubA (p bank : Nat) (f : BankOff → BankOff) (s : State) : (modBankOff p bank f s).hubA = s.hubA := rfl
@[simp] theorem modBankOff_hubB (p bank : Nat) (f : BankOff → BankOff) (s : State) : (modBankOff p bank f s).hubB = s.hubB := rfl
@[simp] theorem modBankOff_cmd (p bank : Nat) (f : BankOff → BankOff) (s : State) : (modBankOff p bank f s).cmd = s.cmd := rfl
@[simp] theorem modBankOff_sync (p bank : Nat) (f : BankOff → BankOff) (s : State) : (modBankOff p bank f s).sync = s.sync := rfl
@[simp] theorem modBankOff_defects (p bank : Nat) (f : BankOff → BankOff) (s : State) : (modBankOff p bank f s).defects = s.defects := rfl
@[simp] theorem modBankOff_quarry (p bank : Nat) (f : BankOff → BankOff) (s : State) : (modBankOff p bank f s).quarry = s.quarry := rfl
@[simp] theorem modBankOff_test (p bank : Nat) (f : BankOff → BankOff) (s : State) : (modBankOff p bank f s).test = s.test := rfl
@[simp] theorem modBankOff_gov (p bank : Nat) (f : BankOff → BankOff) (s : State) : (modBankOff p bank f s).gov = s.gov := rfl
@[simp] theorem modBankOff_tst (p bank : Nat) (f : BankOff → BankOff) (s : State) : (modBankOff p bank f s).tst = s.tst := rfl
@[simp] theorem modBankOff_strata (p bank : Nat) (f : BankOff → BankOff) (s : State) : (modBankOff p bank f s).strata = s.strata := rfl
@[simp] theorem modBankOff_keys (p bank : Nat) (f : BankOff → BankOff) (s : State) : (modBankOff p bank f s).keys = s.keys := rfl
@[simp] theorem modBankOff_boot (p bank : Nat) (f : BankOff → BankOff) (s : State) : (modBankOff p bank f s).boot = s.boot := rfl
@[simp] theorem modBankOff_links (p bank : Nat) (f : BankOff → BankOff) (s : State) : (modBankOff p bank f s).links = s.links := rfl
@[simp] theorem modBankOff_cairn (p bank : Nat) (f : BankOff → BankOff) (s : State) : (modBankOff p bank f s).cairn = s.cairn := rfl
@[simp] theorem modBankOff_vein (p bank : Nat) (f : BankOff → BankOff) (s : State) : (modBankOff p bank f s).vein = s.vein := rfl
@[simp] theorem modBankOff_mir (p bank : Nat) (f : BankOff → BankOff) (s : State) : (modBankOff p bank f s).mir = s.mir := rfl
@[simp] theorem modBankOff_net (p bank : Nat) (f : BankOff → BankOff) (s : State) : (modBankOff p bank f s).net = s.net := rfl
@[simp] theorem modBankOff_outs (p bank : Nat) (f : BankOff → BankOff) (s : State) : (modBankOff p bank f s).outs = s.outs := rfl

/-! ### modSCnt -/

@[simp] theorem modSCnt_pending (p c : Nat) (f : SCnt → SCnt) (s : State) : (modSCnt p c f s).pending = s.pending := rfl
@[simp] theorem modSCnt_free (p c : Nat) (f : SCnt → SCnt) (s : State) : (modSCnt p c f s).free = s.free := rfl
@[simp] theorem modSCnt_hubA (p c : Nat) (f : SCnt → SCnt) (s : State) : (modSCnt p c f s).hubA = s.hubA := rfl
@[simp] theorem modSCnt_hubB (p c : Nat) (f : SCnt → SCnt) (s : State) : (modSCnt p c f s).hubB = s.hubB := rfl
@[simp] theorem modSCnt_cmd (p c : Nat) (f : SCnt → SCnt) (s : State) : (modSCnt p c f s).cmd = s.cmd := rfl
@[simp] theorem modSCnt_sync (p c : Nat) (f : SCnt → SCnt) (s : State) : (modSCnt p c f s).sync = s.sync := rfl
@[simp] theorem modSCnt_defects (p c : Nat) (f : SCnt → SCnt) (s : State) : (modSCnt p c f s).defects = s.defects := rfl
@[simp] theorem modSCnt_quarry (p c : Nat) (f : SCnt → SCnt) (s : State) : (modSCnt p c f s).quarry = s.quarry := rfl
@[simp] theorem modSCnt_test (p c : Nat) (f : SCnt → SCnt) (s : State) : (modSCnt p c f s).test = s.test := rfl
@[simp] theorem modSCnt_gov (p c : Nat) (f : SCnt → SCnt) (s : State) : (modSCnt p c f s).gov = s.gov := rfl
@[simp] theorem modSCnt_tst (p c : Nat) (f : SCnt → SCnt) (s : State) : (modSCnt p c f s).tst = s.tst := rfl
@[simp] theorem modSCnt_strata (p c : Nat) (f : SCnt → SCnt) (s : State) : (modSCnt p c f s).strata = s.strata := rfl
@[simp] theorem modSCnt_keys (p c : Nat) (f : SCnt → SCnt) (s : State) : (modSCnt p c f s).keys = s.keys := rfl
@[simp] theorem modSCnt_boot (p c : Nat) (f : SCnt → SCnt) (s : State) : (modSCnt p c f s).boot = s.boot := rfl
@[simp] theorem modSCnt_links (p c : Nat) (f : SCnt → SCnt) (s : State) : (modSCnt p c f s).links = s.links := rfl
@[simp] theorem modSCnt_cairn (p c : Nat) (f : SCnt → SCnt) (s : State) : (modSCnt p c f s).cairn = s.cairn := rfl
@[simp] theorem modSCnt_vein (p c : Nat) (f : SCnt → SCnt) (s : State) : (modSCnt p c f s).vein = s.vein := rfl
@[simp] theorem modSCnt_mir (p c : Nat) (f : SCnt → SCnt) (s : State) : (modSCnt p c f s).mir = s.mir := rfl
@[simp] theorem modSCnt_net (p c : Nat) (f : SCnt → SCnt) (s : State) : (modSCnt p c f s).net = s.net := rfl
@[simp] theorem modSCnt_outs (p c : Nat) (f : SCnt → SCnt) (s : State) : (modSCnt p c f s).outs = s.outs := rfl

/-! ### modTally -/

@[simp] theorem modTally_pending (p e : Nat) (f : Tally → Tally) (s : State) : (modTally p e f s).pending = s.pending := rfl
@[simp] theorem modTally_free (p e : Nat) (f : Tally → Tally) (s : State) : (modTally p e f s).free = s.free := rfl
@[simp] theorem modTally_hubA (p e : Nat) (f : Tally → Tally) (s : State) : (modTally p e f s).hubA = s.hubA := rfl
@[simp] theorem modTally_hubB (p e : Nat) (f : Tally → Tally) (s : State) : (modTally p e f s).hubB = s.hubB := rfl
@[simp] theorem modTally_cmd (p e : Nat) (f : Tally → Tally) (s : State) : (modTally p e f s).cmd = s.cmd := rfl
@[simp] theorem modTally_sync (p e : Nat) (f : Tally → Tally) (s : State) : (modTally p e f s).sync = s.sync := rfl
@[simp] theorem modTally_defects (p e : Nat) (f : Tally → Tally) (s : State) : (modTally p e f s).defects = s.defects := rfl
@[simp] theorem modTally_quarry (p e : Nat) (f : Tally → Tally) (s : State) : (modTally p e f s).quarry = s.quarry := rfl
@[simp] theorem modTally_test (p e : Nat) (f : Tally → Tally) (s : State) : (modTally p e f s).test = s.test := rfl
@[simp] theorem modTally_gov (p e : Nat) (f : Tally → Tally) (s : State) : (modTally p e f s).gov = s.gov := rfl
@[simp] theorem modTally_tst (p e : Nat) (f : Tally → Tally) (s : State) : (modTally p e f s).tst = s.tst := rfl
@[simp] theorem modTally_strata (p e : Nat) (f : Tally → Tally) (s : State) : (modTally p e f s).strata = s.strata := rfl
@[simp] theorem modTally_keys (p e : Nat) (f : Tally → Tally) (s : State) : (modTally p e f s).keys = s.keys := rfl
@[simp] theorem modTally_boot (p e : Nat) (f : Tally → Tally) (s : State) : (modTally p e f s).boot = s.boot := rfl
@[simp] theorem modTally_links (p e : Nat) (f : Tally → Tally) (s : State) : (modTally p e f s).links = s.links := rfl
@[simp] theorem modTally_cairn (p e : Nat) (f : Tally → Tally) (s : State) : (modTally p e f s).cairn = s.cairn := rfl
@[simp] theorem modTally_vein (p e : Nat) (f : Tally → Tally) (s : State) : (modTally p e f s).vein = s.vein := rfl
@[simp] theorem modTally_mir (p e : Nat) (f : Tally → Tally) (s : State) : (modTally p e f s).mir = s.mir := rfl
@[simp] theorem modTally_net (p e : Nat) (f : Tally → Tally) (s : State) : (modTally p e f s).net = s.net := rfl
@[simp] theorem modTally_outs (p e : Nat) (f : Tally → Tally) (s : State) : (modTally p e f s).outs = s.outs := rfl

/-! ### modLobj -/

@[simp] theorem modLobj_pending (p o : Nat) (f : LocalObj → LocalObj) (s : State) : (modLobj p o f s).pending = s.pending := rfl
@[simp] theorem modLobj_free (p o : Nat) (f : LocalObj → LocalObj) (s : State) : (modLobj p o f s).free = s.free := rfl
@[simp] theorem modLobj_hubA (p o : Nat) (f : LocalObj → LocalObj) (s : State) : (modLobj p o f s).hubA = s.hubA := rfl
@[simp] theorem modLobj_hubB (p o : Nat) (f : LocalObj → LocalObj) (s : State) : (modLobj p o f s).hubB = s.hubB := rfl
@[simp] theorem modLobj_cmd (p o : Nat) (f : LocalObj → LocalObj) (s : State) : (modLobj p o f s).cmd = s.cmd := rfl
@[simp] theorem modLobj_sync (p o : Nat) (f : LocalObj → LocalObj) (s : State) : (modLobj p o f s).sync = s.sync := rfl
@[simp] theorem modLobj_defects (p o : Nat) (f : LocalObj → LocalObj) (s : State) : (modLobj p o f s).defects = s.defects := rfl
@[simp] theorem modLobj_quarry (p o : Nat) (f : LocalObj → LocalObj) (s : State) : (modLobj p o f s).quarry = s.quarry := rfl
@[simp] theorem modLobj_test (p o : Nat) (f : LocalObj → LocalObj) (s : State) : (modLobj p o f s).test = s.test := rfl
@[simp] theorem modLobj_gov (p o : Nat) (f : LocalObj → LocalObj) (s : State) : (modLobj p o f s).gov = s.gov := rfl
@[simp] theorem modLobj_tst (p o : Nat) (f : LocalObj → LocalObj) (s : State) : (modLobj p o f s).tst = s.tst := rfl
@[simp] theorem modLobj_strata (p o : Nat) (f : LocalObj → LocalObj) (s : State) : (modLobj p o f s).strata = s.strata := rfl
@[simp] theorem modLobj_keys (p o : Nat) (f : LocalObj → LocalObj) (s : State) : (modLobj p o f s).keys = s.keys := rfl
@[simp] theorem modLobj_boot (p o : Nat) (f : LocalObj → LocalObj) (s : State) : (modLobj p o f s).boot = s.boot := rfl
@[simp] theorem modLobj_links (p o : Nat) (f : LocalObj → LocalObj) (s : State) : (modLobj p o f s).links = s.links := rfl
@[simp] theorem modLobj_cairn (p o : Nat) (f : LocalObj → LocalObj) (s : State) : (modLobj p o f s).cairn = s.cairn := rfl
@[simp] theorem modLobj_vein (p o : Nat) (f : LocalObj → LocalObj) (s : State) : (modLobj p o f s).vein = s.vein := rfl
@[simp] theorem modLobj_mir (p o : Nat) (f : LocalObj → LocalObj) (s : State) : (modLobj p o f s).mir = s.mir := rfl
@[simp] theorem modLobj_net (p o : Nat) (f : LocalObj → LocalObj) (s : State) : (modLobj p o f s).net = s.net := rfl
@[simp] theorem modLobj_outs (p o : Nat) (f : LocalObj → LocalObj) (s : State) : (modLobj p o f s).outs = s.outs := rfl

/-! ### modScrub -/

@[simp] theorem modScrub_pending (t : Nat) (f : Scrub → Scrub) (s : State) : (modScrub t f s).pending = s.pending := rfl
@[simp] theorem modScrub_free (t : Nat) (f : Scrub → Scrub) (s : State) : (modScrub t f s).free = s.free := rfl
@[simp] theorem modScrub_hubA (t : Nat) (f : Scrub → Scrub) (s : State) : (modScrub t f s).hubA = s.hubA := rfl
@[simp] theorem modScrub_hubB (t : Nat) (f : Scrub → Scrub) (s : State) : (modScrub t f s).hubB = s.hubB := rfl
@[simp] theorem modScrub_wardens (t : Nat) (f : Scrub → Scrub) (s : State) : (modScrub t f s).wardens = s.wardens := rfl
@[simp] theorem modScrub_cmd (t : Nat) (f : Scrub → Scrub) (s : State) : (modScrub t f s).cmd = s.cmd := rfl
@[simp] theorem modScrub_sync (t : Nat) (f : Scrub → Scrub) (s : State) : (modScrub t f s).sync = s.sync := rfl
@[simp] theorem modScrub_defects (t : Nat) (f : Scrub → Scrub) (s : State) : (modScrub t f s).defects = s.defects := rfl
@[simp] theorem modScrub_quarry (t : Nat) (f : Scrub → Scrub) (s : State) : (modScrub t f s).quarry = s.quarry := rfl
@[simp] theorem modScrub_test (t : Nat) (f : Scrub → Scrub) (s : State) : (modScrub t f s).test = s.test := rfl
@[simp] theorem modScrub_gov (t : Nat) (f : Scrub → Scrub) (s : State) : (modScrub t f s).gov = s.gov := rfl
@[simp] theorem modScrub_tst (t : Nat) (f : Scrub → Scrub) (s : State) : (modScrub t f s).tst = s.tst := rfl
@[simp] theorem modScrub_strata (t : Nat) (f : Scrub → Scrub) (s : State) : (modScrub t f s).strata = s.strata := rfl
@[simp] theorem modScrub_boot (t : Nat) (f : Scrub → Scrub) (s : State) : (modScrub t f s).boot = s.boot := rfl
@[simp] theorem modScrub_links (t : Nat) (f : Scrub → Scrub) (s : State) : (modScrub t f s).links = s.links := rfl
@[simp] theorem modScrub_cairn (t : Nat) (f : Scrub → Scrub) (s : State) : (modScrub t f s).cairn = s.cairn := rfl
@[simp] theorem modScrub_vein (t : Nat) (f : Scrub → Scrub) (s : State) : (modScrub t f s).vein = s.vein := rfl
@[simp] theorem modScrub_mir (t : Nat) (f : Scrub → Scrub) (s : State) : (modScrub t f s).mir = s.mir := rfl
@[simp] theorem modScrub_net (t : Nat) (f : Scrub → Scrub) (s : State) : (modScrub t f s).net = s.net := rfl
@[simp] theorem modScrub_outs (t : Nat) (f : Scrub → Scrub) (s : State) : (modScrub t f s).outs = s.outs := rfl

/-! ### modPat -/

@[simp] theorem modPat_pending (i : Nat) (f : Pattern → Pattern) (s : State) : (modPat i f s).pending = s.pending := rfl
@[simp] theorem modPat_free (i : Nat) (f : Pattern → Pattern) (s : State) : (modPat i f s).free = s.free := rfl
@[simp] theorem modPat_hubA (i : Nat) (f : Pattern → Pattern) (s : State) : (modPat i f s).hubA = s.hubA := rfl
@[simp] theorem modPat_hubB (i : Nat) (f : Pattern → Pattern) (s : State) : (modPat i f s).hubB = s.hubB := rfl
@[simp] theorem modPat_wardens (i : Nat) (f : Pattern → Pattern) (s : State) : (modPat i f s).wardens = s.wardens := rfl
@[simp] theorem modPat_cmd (i : Nat) (f : Pattern → Pattern) (s : State) : (modPat i f s).cmd = s.cmd := rfl
@[simp] theorem modPat_sync (i : Nat) (f : Pattern → Pattern) (s : State) : (modPat i f s).sync = s.sync := rfl
@[simp] theorem modPat_defects (i : Nat) (f : Pattern → Pattern) (s : State) : (modPat i f s).defects = s.defects := rfl
@[simp] theorem modPat_test (i : Nat) (f : Pattern → Pattern) (s : State) : (modPat i f s).test = s.test := rfl
@[simp] theorem modPat_gov (i : Nat) (f : Pattern → Pattern) (s : State) : (modPat i f s).gov = s.gov := rfl
@[simp] theorem modPat_tst (i : Nat) (f : Pattern → Pattern) (s : State) : (modPat i f s).tst = s.tst := rfl
@[simp] theorem modPat_strata (i : Nat) (f : Pattern → Pattern) (s : State) : (modPat i f s).strata = s.strata := rfl
@[simp] theorem modPat_keys (i : Nat) (f : Pattern → Pattern) (s : State) : (modPat i f s).keys = s.keys := rfl
@[simp] theorem modPat_boot (i : Nat) (f : Pattern → Pattern) (s : State) : (modPat i f s).boot = s.boot := rfl
@[simp] theorem modPat_links (i : Nat) (f : Pattern → Pattern) (s : State) : (modPat i f s).links = s.links := rfl
@[simp] theorem modPat_cairn (i : Nat) (f : Pattern → Pattern) (s : State) : (modPat i f s).cairn = s.cairn := rfl
@[simp] theorem modPat_vein (i : Nat) (f : Pattern → Pattern) (s : State) : (modPat i f s).vein = s.vein := rfl
@[simp] theorem modPat_mir (i : Nat) (f : Pattern → Pattern) (s : State) : (modPat i f s).mir = s.mir := rfl
@[simp] theorem modPat_net (i : Nat) (f : Pattern → Pattern) (s : State) : (modPat i f s).net = s.net := rfl
@[simp] theorem modPat_outs (i : Nat) (f : Pattern → Pattern) (s : State) : (modPat i f s).outs = s.outs := rfl

/-! ### modCnt -/

@[simp] theorem modCnt_pending (h : HubId) (f : TCounts → TCounts) (s : State) : (modCnt h f s).pending = s.pending := rfl
@[simp] theorem modCnt_free (h : HubId) (f : TCounts → TCounts) (s : State) : (modCnt h f s).free = s.free := rfl
@[simp] theorem modCnt_hubA (h : HubId) (f : TCounts → TCounts) (s : State) : (modCnt h f s).hubA = s.hubA := rfl
@[simp] theorem modCnt_hubB (h : HubId) (f : TCounts → TCounts) (s : State) : (modCnt h f s).hubB = s.hubB := rfl
@[simp] theorem modCnt_wardens (h : HubId) (f : TCounts → TCounts) (s : State) : (modCnt h f s).wardens = s.wardens := rfl
@[simp] theorem modCnt_cmd (h : HubId) (f : TCounts → TCounts) (s : State) : (modCnt h f s).cmd = s.cmd := rfl
@[simp] theorem modCnt_sync (h : HubId) (f : TCounts → TCounts) (s : State) : (modCnt h f s).sync = s.sync := rfl
@[simp] theorem modCnt_defects (h : HubId) (f : TCounts → TCounts) (s : State) : (modCnt h f s).defects = s.defects := rfl
@[simp] theorem modCnt_quarry (h : HubId) (f : TCounts → TCounts) (s : State) : (modCnt h f s).quarry = s.quarry := rfl
@[simp] theorem modCnt_test (h : HubId) (f : TCounts → TCounts) (s : State) : (modCnt h f s).test = s.test := rfl
@[simp] theorem modCnt_gov (h : HubId) (f : TCounts → TCounts) (s : State) : (modCnt h f s).gov = s.gov := rfl
@[simp] theorem modCnt_strata (h : HubId) (f : TCounts → TCounts) (s : State) : (modCnt h f s).strata = s.strata := rfl
@[simp] theorem modCnt_keys (h : HubId) (f : TCounts → TCounts) (s : State) : (modCnt h f s).keys = s.keys := rfl
@[simp] theorem modCnt_boot (h : HubId) (f : TCounts → TCounts) (s : State) : (modCnt h f s).boot = s.boot := rfl
@[simp] theorem modCnt_links (h : HubId) (f : TCounts → TCounts) (s : State) : (modCnt h f s).links = s.links := rfl
@[simp] theorem modCnt_cairn (h : HubId) (f : TCounts → TCounts) (s : State) : (modCnt h f s).cairn = s.cairn := rfl
@[simp] theorem modCnt_vein (h : HubId) (f : TCounts → TCounts) (s : State) : (modCnt h f s).vein = s.vein := rfl
@[simp] theorem modCnt_mir (h : HubId) (f : TCounts → TCounts) (s : State) : (modCnt h f s).mir = s.mir := rfl
@[simp] theorem modCnt_net (h : HubId) (f : TCounts → TCounts) (s : State) : (modCnt h f s).net = s.net := rfl
@[simp] theorem modCnt_outs (h : HubId) (f : TCounts → TCounts) (s : State) : (modCnt h f s).outs = s.outs := rfl

/-! ### modTrace -/

@[simp] theorem modTrace_pending (h : HubId) (f : TraceBuf → TraceBuf) (s : State) : (modTrace h f s).pending = s.pending := by cases h <;> rfl
@[simp] theorem modTrace_free (h : HubId) (f : TraceBuf → TraceBuf) (s : State) : (modTrace h f s).free = s.free := by cases h <;> rfl
@[simp] theorem modTrace_wardens (h : HubId) (f : TraceBuf → TraceBuf) (s : State) : (modTrace h f s).wardens = s.wardens := by cases h <;> rfl
@[simp] theorem modTrace_cmd (h : HubId) (f : TraceBuf → TraceBuf) (s : State) : (modTrace h f s).cmd = s.cmd := by cases h <;> rfl
@[simp] theorem modTrace_sync (h : HubId) (f : TraceBuf → TraceBuf) (s : State) : (modTrace h f s).sync = s.sync := by cases h <;> rfl
@[simp] theorem modTrace_defects (h : HubId) (f : TraceBuf → TraceBuf) (s : State) : (modTrace h f s).defects = s.defects := by cases h <;> rfl
@[simp] theorem modTrace_quarry (h : HubId) (f : TraceBuf → TraceBuf) (s : State) : (modTrace h f s).quarry = s.quarry := by cases h <;> rfl
@[simp] theorem modTrace_test (h : HubId) (f : TraceBuf → TraceBuf) (s : State) : (modTrace h f s).test = s.test := by cases h <;> rfl
@[simp] theorem modTrace_gov (h : HubId) (f : TraceBuf → TraceBuf) (s : State) : (modTrace h f s).gov = s.gov := by cases h <;> rfl
@[simp] theorem modTrace_tst (h : HubId) (f : TraceBuf → TraceBuf) (s : State) : (modTrace h f s).tst = s.tst := by cases h <;> rfl
@[simp] theorem modTrace_strata (h : HubId) (f : TraceBuf → TraceBuf) (s : State) : (modTrace h f s).strata = s.strata := by cases h <;> rfl
@[simp] theorem modTrace_keys (h : HubId) (f : TraceBuf → TraceBuf) (s : State) : (modTrace h f s).keys = s.keys := by cases h <;> rfl
@[simp] theorem modTrace_boot (h : HubId) (f : TraceBuf → TraceBuf) (s : State) : (modTrace h f s).boot = s.boot := by cases h <;> rfl
@[simp] theorem modTrace_links (h : HubId) (f : TraceBuf → TraceBuf) (s : State) : (modTrace h f s).links = s.links := by cases h <;> rfl
@[simp] theorem modTrace_cairn (h : HubId) (f : TraceBuf → TraceBuf) (s : State) : (modTrace h f s).cairn = s.cairn := by cases h <;> rfl
@[simp] theorem modTrace_vein (h : HubId) (f : TraceBuf → TraceBuf) (s : State) : (modTrace h f s).vein = s.vein := by cases h <;> rfl
@[simp] theorem modTrace_mir (h : HubId) (f : TraceBuf → TraceBuf) (s : State) : (modTrace h f s).mir = s.mir := by cases h <;> rfl
@[simp] theorem modTrace_net (h : HubId) (f : TraceBuf → TraceBuf) (s : State) : (modTrace h f s).net = s.net := by cases h <;> rfl
@[simp] theorem modTrace_outs (h : HubId) (f : TraceBuf → TraceBuf) (s : State) : (modTrace h f s).outs = s.outs := by cases h <;> rfl

/-! ### withHub -/

@[simp] theorem withHub_pending (h : HubId) (x : Hub) (s : State) : (withHub h x s).pending = s.pending := by cases h <;> rfl
@[simp] theorem withHub_free (h : HubId) (x : Hub) (s : State) : (withHub h x s).free = s.free := by cases h <;> rfl
@[simp] theorem withHub_wardens (h : HubId) (x : Hub) (s : State) : (withHub h x s).wardens = s.wardens := by cases h <;> rfl
@[simp] theorem withHub_cmd (h : HubId) (x : Hub) (s : State) : (withHub h x s).cmd = s.cmd := by cases h <;> rfl
@[simp] theorem withHub_sync (h : HubId) (x : Hub) (s : State) : (withHub h x s).sync = s.sync := by cases h <;> rfl
@[simp] theorem withHub_defects (h : HubId) (x : Hub) (s : State) : (withHub h x s).defects = s.defects := by cases h <;> rfl
@[simp] theorem withHub_quarry (h : HubId) (x : Hub) (s : State) : (withHub h x s).quarry = s.quarry := by cases h <;> rfl
@[simp] theorem withHub_test (h : HubId) (x : Hub) (s : State) : (withHub h x s).test = s.test := by cases h <;> rfl
@[simp] theorem withHub_gov (h : HubId) (x : Hub) (s : State) : (withHub h x s).gov = s.gov := by cases h <;> rfl
@[simp] theorem withHub_tst (h : HubId) (x : Hub) (s : State) : (withHub h x s).tst = s.tst := by cases h <;> rfl
@[simp] theorem withHub_strata (h : HubId) (x : Hub) (s : State) : (withHub h x s).strata = s.strata := by cases h <;> rfl
@[simp] theorem withHub_keys (h : HubId) (x : Hub) (s : State) : (withHub h x s).keys = s.keys := by cases h <;> rfl
@[simp] theorem withHub_boot (h : HubId) (x : Hub) (s : State) : (withHub h x s).boot = s.boot := by cases h <;> rfl
@[simp] theorem withHub_links (h : HubId) (x : Hub) (s : State) : (withHub h x s).links = s.links := by cases h <;> rfl
@[simp] theorem withHub_cairn (h : HubId) (x : Hub) (s : State) : (withHub h x s).cairn = s.cairn := by cases h <;> rfl
@[simp] theorem withHub_vein (h : HubId) (x : Hub) (s : State) : (withHub h x s).vein = s.vein := by cases h <;> rfl
@[simp] theorem withHub_mir (h : HubId) (x : Hub) (s : State) : (withHub h x s).mir = s.mir := by cases h <;> rfl
@[simp] theorem withHub_net (h : HubId) (x : Hub) (s : State) : (withHub h x s).net = s.net := by cases h <;> rfl
@[simp] theorem withHub_outs (h : HubId) (x : Hub) (s : State) : (withHub h x s).outs = s.outs := by cases h <;> rfl

/-! ### modHub -/

@[simp] theorem modHub_pending (h : HubId) (f : Hub → Hub) (s : State) : (modHub h f s).pending = s.pending := by cases h <;> rfl
@[simp] theorem modHub_free (h : HubId) (f : Hub → Hub) (s : State) : (modHub h f s).free = s.free := by cases h <;> rfl
@[simp] theorem modHub_wardens (h : HubId) (f : Hub → Hub) (s : State) : (modHub h f s).wardens = s.wardens := by cases h <;> rfl
@[simp] theorem modHub_cmd (h : HubId) (f : Hub → Hub) (s : State) : (modHub h f s).cmd = s.cmd := by cases h <;> rfl
@[simp] theorem modHub_sync (h : HubId) (f : Hub → Hub) (s : State) : (modHub h f s).sync = s.sync := by cases h <;> rfl
@[simp] theorem modHub_defects (h : HubId) (f : Hub → Hub) (s : State) : (modHub h f s).defects = s.defects := by cases h <;> rfl
@[simp] theorem modHub_quarry (h : HubId) (f : Hub → Hub) (s : State) : (modHub h f s).quarry = s.quarry := by cases h <;> rfl
@[simp] theorem modHub_test (h : HubId) (f : Hub → Hub) (s : State) : (modHub h f s).test = s.test := by cases h <;> rfl
@[simp] theorem modHub_gov (h : HubId) (f : Hub → Hub) (s : State) : (modHub h f s).gov = s.gov := by cases h <;> rfl
@[simp] theorem modHub_tst (h : HubId) (f : Hub → Hub) (s : State) : (modHub h f s).tst = s.tst := by cases h <;> rfl
@[simp] theorem modHub_strata (h : HubId) (f : Hub → Hub) (s : State) : (modHub h f s).strata = s.strata := by cases h <;> rfl
@[simp] theorem modHub_keys (h : HubId) (f : Hub → Hub) (s : State) : (modHub h f s).keys = s.keys := by cases h <;> rfl
@[simp] theorem modHub_boot (h : HubId) (f : Hub → Hub) (s : State) : (modHub h f s).boot = s.boot := by cases h <;> rfl
@[simp] theorem modHub_links (h : HubId) (f : Hub → Hub) (s : State) : (modHub h f s).links = s.links := by cases h <;> rfl
@[simp] theorem modHub_cairn (h : HubId) (f : Hub → Hub) (s : State) : (modHub h f s).cairn = s.cairn := by cases h <;> rfl
@[simp] theorem modHub_vein (h : HubId) (f : Hub → Hub) (s : State) : (modHub h f s).vein = s.vein := by cases h <;> rfl
@[simp] theorem modHub_mir (h : HubId) (f : Hub → Hub) (s : State) : (modHub h f s).mir = s.mir := by cases h <;> rfl
@[simp] theorem modHub_net (h : HubId) (f : Hub → Hub) (s : State) : (modHub h f s).net = s.net := by cases h <;> rfl
@[simp] theorem modHub_outs (h : HubId) (f : Hub → Hub) (s : State) : (modHub h f s).outs = s.outs := by cases h <;> rfl

/-! ### irqSet -/

@[simp] theorem irqSet_pending (h : HubId) (b : BitVec 19) (s : State) : (irqSet h b s).pending = s.pending := by cases h <;> rfl
@[simp] theorem irqSet_free (h : HubId) (b : BitVec 19) (s : State) : (irqSet h b s).free = s.free := by cases h <;> rfl
@[simp] theorem irqSet_wardens (h : HubId) (b : BitVec 19) (s : State) : (irqSet h b s).wardens = s.wardens := by cases h <;> rfl
@[simp] theorem irqSet_cmd (h : HubId) (b : BitVec 19) (s : State) : (irqSet h b s).cmd = s.cmd := by cases h <;> rfl
@[simp] theorem irqSet_sync (h : HubId) (b : BitVec 19) (s : State) : (irqSet h b s).sync = s.sync := by cases h <;> rfl
@[simp] theorem irqSet_defects (h : HubId) (b : BitVec 19) (s : State) : (irqSet h b s).defects = s.defects := by cases h <;> rfl
@[simp] theorem irqSet_quarry (h : HubId) (b : BitVec 19) (s : State) : (irqSet h b s).quarry = s.quarry := by cases h <;> rfl
@[simp] theorem irqSet_test (h : HubId) (b : BitVec 19) (s : State) : (irqSet h b s).test = s.test := by cases h <;> rfl
@[simp] theorem irqSet_gov (h : HubId) (b : BitVec 19) (s : State) : (irqSet h b s).gov = s.gov := by cases h <;> rfl
@[simp] theorem irqSet_tst (h : HubId) (b : BitVec 19) (s : State) : (irqSet h b s).tst = s.tst := by cases h <;> rfl
@[simp] theorem irqSet_strata (h : HubId) (b : BitVec 19) (s : State) : (irqSet h b s).strata = s.strata := by cases h <;> rfl
@[simp] theorem irqSet_keys (h : HubId) (b : BitVec 19) (s : State) : (irqSet h b s).keys = s.keys := by cases h <;> rfl
@[simp] theorem irqSet_boot (h : HubId) (b : BitVec 19) (s : State) : (irqSet h b s).boot = s.boot := by cases h <;> rfl
@[simp] theorem irqSet_links (h : HubId) (b : BitVec 19) (s : State) : (irqSet h b s).links = s.links := by cases h <;> rfl
@[simp] theorem irqSet_cairn (h : HubId) (b : BitVec 19) (s : State) : (irqSet h b s).cairn = s.cairn := by cases h <;> rfl
@[simp] theorem irqSet_vein (h : HubId) (b : BitVec 19) (s : State) : (irqSet h b s).vein = s.vein := by cases h <;> rfl
@[simp] theorem irqSet_mir (h : HubId) (b : BitVec 19) (s : State) : (irqSet h b s).mir = s.mir := by cases h <;> rfl
@[simp] theorem irqSet_net (h : HubId) (b : BitVec 19) (s : State) : (irqSet h b s).net = s.net := by cases h <;> rfl
@[simp] theorem irqSet_outs (h : HubId) (b : BitVec 19) (s : State) : (irqSet h b s).outs = s.outs := by cases h <;> rfl

/-! ### irqBit -/

@[simp] theorem irqBit_pending (h : HubId) (i : Nat) (s : State) : (irqBit h i s).pending = s.pending := by cases h <;> rfl
@[simp] theorem irqBit_free (h : HubId) (i : Nat) (s : State) : (irqBit h i s).free = s.free := by cases h <;> rfl
@[simp] theorem irqBit_wardens (h : HubId) (i : Nat) (s : State) : (irqBit h i s).wardens = s.wardens := by cases h <;> rfl
@[simp] theorem irqBit_cmd (h : HubId) (i : Nat) (s : State) : (irqBit h i s).cmd = s.cmd := by cases h <;> rfl
@[simp] theorem irqBit_sync (h : HubId) (i : Nat) (s : State) : (irqBit h i s).sync = s.sync := by cases h <;> rfl
@[simp] theorem irqBit_defects (h : HubId) (i : Nat) (s : State) : (irqBit h i s).defects = s.defects := by cases h <;> rfl
@[simp] theorem irqBit_quarry (h : HubId) (i : Nat) (s : State) : (irqBit h i s).quarry = s.quarry := by cases h <;> rfl
@[simp] theorem irqBit_test (h : HubId) (i : Nat) (s : State) : (irqBit h i s).test = s.test := by cases h <;> rfl
@[simp] theorem irqBit_gov (h : HubId) (i : Nat) (s : State) : (irqBit h i s).gov = s.gov := by cases h <;> rfl
@[simp] theorem irqBit_tst (h : HubId) (i : Nat) (s : State) : (irqBit h i s).tst = s.tst := by cases h <;> rfl
@[simp] theorem irqBit_strata (h : HubId) (i : Nat) (s : State) : (irqBit h i s).strata = s.strata := by cases h <;> rfl
@[simp] theorem irqBit_keys (h : HubId) (i : Nat) (s : State) : (irqBit h i s).keys = s.keys := by cases h <;> rfl
@[simp] theorem irqBit_boot (h : HubId) (i : Nat) (s : State) : (irqBit h i s).boot = s.boot := by cases h <;> rfl
@[simp] theorem irqBit_links (h : HubId) (i : Nat) (s : State) : (irqBit h i s).links = s.links := by cases h <;> rfl
@[simp] theorem irqBit_cairn (h : HubId) (i : Nat) (s : State) : (irqBit h i s).cairn = s.cairn := by cases h <;> rfl
@[simp] theorem irqBit_vein (h : HubId) (i : Nat) (s : State) : (irqBit h i s).vein = s.vein := by cases h <;> rfl
@[simp] theorem irqBit_mir (h : HubId) (i : Nat) (s : State) : (irqBit h i s).mir = s.mir := by cases h <;> rfl
@[simp] theorem irqBit_net (h : HubId) (i : Nat) (s : State) : (irqBit h i s).net = s.net := by cases h <;> rfl
@[simp] theorem irqBit_outs (h : HubId) (i : Nat) (s : State) : (irqBit h i s).outs = s.outs := by cases h <;> rfl

/-! ### ended -/

@[simp] theorem ended_free (s t : State) : (ended s t).free = t.free := rfl
@[simp] theorem ended_wardens (s t : State) : (ended s t).wardens = t.wardens := rfl
@[simp] theorem ended_cmd (s t : State) : (ended s t).cmd = t.cmd := rfl
@[simp] theorem ended_sync (s t : State) : (ended s t).sync = t.sync := rfl
@[simp] theorem ended_defects (s t : State) : (ended s t).defects = t.defects := rfl
@[simp] theorem ended_quarry (s t : State) : (ended s t).quarry = t.quarry := rfl
@[simp] theorem ended_test (s t : State) : (ended s t).test = t.test := rfl
@[simp] theorem ended_gov (s t : State) : (ended s t).gov = t.gov := rfl
@[simp] theorem ended_tst (s t : State) : (ended s t).tst = t.tst := rfl
@[simp] theorem ended_strata (s t : State) : (ended s t).strata = t.strata := rfl
@[simp] theorem ended_keys (s t : State) : (ended s t).keys = t.keys := rfl
@[simp] theorem ended_boot (s t : State) : (ended s t).boot = t.boot := rfl
@[simp] theorem ended_links (s t : State) : (ended s t).links = t.links := rfl
@[simp] theorem ended_cairn (s t : State) : (ended s t).cairn = t.cairn := rfl
@[simp] theorem ended_vein (s t : State) : (ended s t).vein = t.vein := rfl
@[simp] theorem ended_mir (s t : State) : (ended s t).mir = t.mir := rfl
@[simp] theorem ended_net (s t : State) : (ended s t).net = t.net := rfl
@[simp] theorem ended_outs (s t : State) : (ended s t).outs = t.outs := rfl
@[simp] theorem ended_pending (s t : State) : (ended s t).pending = s.pending := rfl
@[simp] theorem ended_hubA (s t : State) : (ended s t).hubA = pinsOf t.hubA := rfl
@[simp] theorem ended_hubB (s t : State) : (ended s t).hubB = pinsOf t.hubB := rfl
@[simp] theorem hubOf_ended (h : HubId) (s t : State) : hubOf (ended s t) h = pinsOf (hubOf t h) := by cases h <;> rfl
@[simp] theorem war_ended (s t : State) (p : Nat) : war (ended s t) p = war t p := rfl
@[simp] theorem queueOf_ended (s t : State) (q : Nat) : queueOf (ended s t) q = queueOf t q := rfl

/-! ### Hubs -/

@[simp] theorem other_other (h : HubId) : other (other h) = h := by cases h <;> rfl
@[simp] theorem other_ne (h : HubId) : other h ≠ h := by cases h <;> decide
@[simp] theorem hubOf_withHub (h : HubId) (x : Hub) (s : State) : hubOf (withHub h x s) h = x := by cases h <;> rfl
@[simp] theorem hubOf_withHub_other (h : HubId) (x : Hub) (s : State) : hubOf (withHub h x s) (other h) = hubOf s (other h) := by
  cases h <;> rfl
@[simp] theorem hubOf_modHub (h : HubId) (f : Hub → Hub) (s : State) : hubOf (modHub h f s) h = f (hubOf s h) := by cases h <;> rfl
@[simp] theorem hubOf_modHub_other (h : HubId) (f : Hub → Hub) (s : State) : hubOf (modHub h f s) (other h) = hubOf s (other h) := by
  cases h <;> rfl
@[simp] theorem hubOf_other_modHub (h : HubId) (f : Hub → Hub) (s : State) : hubOf (modHub (other h) f s) h = hubOf s h := by
  cases h <;> rfl
theorem hubOf_modHub_ne {h k : HubId} (e : k ≠ h) (f : Hub → Hub) (s : State) : hubOf (modHub h f s) k = hubOf s k := by
  cases h <;> cases k <;> first | rfl | exact absurd rfl e

/-- What one hub holds after a change of a hub. -/
theorem hubOf_modHub_if (h k : HubId) (f : Hub → Hub) (s : State) : hubOf (modHub h f s) k = if k = h then f (hubOf s k) else hubOf s k := by
  cases h <;> cases k <;> rfl

/-! ### Reading what was written -/

@[simp] theorem war_modW (p : Nat) (f : Warden → Warden) (s : State) : war (modW p f s) p = f (war s p) := by simp [war, modW]
theorem war_modW_ne {p p' : Nat} (h : p' ≠ p) (f : Warden → Warden) (s : State) : war (modW p f s) p' = war s p' :=
  tget_tmod_ne _ _ f h
@[simp] theorem queueOf_modQueue (q : Nat) (f : Queue → Queue) (s : State) : queueOf (modQueue q f s) q = f (queueOf s q) := by
  simp [queueOf, modQueue]
theorem queueOf_modQueue_ne {q q' : Nat} (h : q' ≠ q) (f : Queue → Queue) (s : State) :
    queueOf (modQueue q f s) q' = queueOf s q' := tget_tmod_ne _ _ f h
@[simp] theorem lnk_modLink (j : Nat) (f : Link → Link) (s : State) : lnk (modLink j f s) j = f (lnk s j) := by simp [lnk, modLink]
theorem lnk_modLink_ne {j j' : Nat} (h : j' ≠ j) (f : Link → Link) (s : State) : lnk (modLink j f s) j' = lnk s j' :=
  tget_tmod_ne _ _ f h
@[simp] theorem coreOf_modCore (p src : Nat) (f : Core → Core) (s : State) : coreOf (modCore p src f s) p src = f (coreOf s p src) := by
  simp [coreOf, modCore]
@[simp] theorem cluOf_modClu (p c : Nat) (f : Clu → Clu) (s : State) : cluOf (modClu p c f s) p c = f (cluOf s p c) := by simp [cluOf, modClu]
@[simp] theorem cellOf_modCell (k : Nat) (f : Cell → Cell) (s : State) : cellOf (modCell k f s) k = f (cellOf s k) := by
  simp [cellOf, modCell, modTst]
@[simp] theorem traceOf_modTrace (h : HubId) (f : TraceBuf → TraceBuf) (s : State) : traceOf (modTrace h f s) h = f (traceOf s h) := by
  cases h <;> rfl
@[simp] theorem modQueue_opens (q : Nat) (f : Queue → Queue) (s : State) : (modQueue q f s).cmd.opens = s.cmd.opens := rfl
@[simp] theorem modQueue_loads (q : Nat) (f : Queue → Queue) (s : State) : (modQueue q f s).cmd.loads = s.cmd.loads := rfl
@[simp] theorem modQueue_held (q : Nat) (f : Queue → Queue) (s : State) : (modQueue q f s).cmd.held = s.cmd.held := rfl
@[simp] theorem modQueue_rr (q : Nat) (f : Queue → Queue) (s : State) : (modQueue q f s).cmd.rr = s.cmd.rr := rfl

end Sys2Proof.Machine
end

