-- ==== Sys2Proof/Laws/Cmd.lean ====
section
/-! SUPPORT. Byte strings and queue memory: what is read back; and how a packet that is ready comes to its row. -/

namespace Sys2Proof.Machine
open Sys2Proof

/-! ### Byte strings -/

@[simp] theorem length_leBytes (n v : Nat) : (leBytes n v).length = n := by
  induction n generalizing v with
  | zero => rfl
  | succ n ih => simp [leBytes, ih]

theorem leNat_leBytes (n v : Nat) : leNat (leBytes n v) = v % 256 ^ n := by
  induction n generalizing v with
  | zero => simp [leBytes, leNat, Nat.mod_one]
  | succ n ih =>
    simp only [leBytes, leNat, ih, BitVec.toNat_ofNat]
    rw [show 256 ^ (n + 1) = 256 * 256 ^ n from by rw [Nat.pow_succ, Nat.mul_comm], Nat.mod_mul]

@[simp] theorem length_slice (l : List Byte) (off n : Nat) : (slice l off n).length = n := by
  simp only [slice, List.length_append, List.length_replicate, List.length_take, List.length_drop]; omega

/-- A field that lies at the front of a byte string. -/
theorem slice_append (a b r : List Byte) : slice (a ++ b ++ r) a.length b.length = b := by
  simp [slice]

theorem fieldAt_append (a r : List Byte) (n v : Nat) : fieldAt (a ++ leBytes n v ++ r) a.length n = v % 256 ^ n := by
  have h := slice_append a (leBytes n v) r
  rw [length_leBytes] at h
  rw [fieldAt, h, leNat_leBytes]

/-! ### Queue memory -/

/-- A byte after a write: the written one inside the range, else what stood there. -/
theorem tget_memWrite (t : Tab Byte) (a : Nat) (b : List Byte) (k : Nat) :
    tget 0 (memWrite t a b) k = if a ≤ k ∧ k < a + b.length then b[k - a]?.getD 0 else tget 0 t k := by
  induction b generalizing t a with
  | nil =>
    have : ¬ (a ≤ k ∧ k < a + 0) := by omega
    simp only [memWrite, List.length_nil, this, if_false]
  | cons x r ih =>
    simp only [memWrite, ih, tget_tput, List.length_cons]
    by_cases h1 : k = a
    · subst h1
      have : ¬ (k + 1 ≤ k ∧ k < k + 1 + r.length) := by omega
      have h2 : k ≤ k ∧ k < k + (r.length + 1) := by omega
      rw [if_neg this, if_pos rfl, if_pos h2]; simp
    · rw [if_neg h1]
      by_cases h2 : a + 1 ≤ k ∧ k < a + 1 + r.length
      · have h3 : a ≤ k ∧ k < a + (r.length + 1) := by omega
        rw [if_pos h2, if_pos h3]
        have : k - a = (k - (a + 1)) + 1 := by omega
        rw [this]; simp
      · have h3 : ¬ (a ≤ k ∧ k < a + (r.length + 1)) := by omega
        rw [if_neg h2, if_neg h3]

/-- A write reads back. -/
theorem memRead_memWrite (t : Tab Byte) (a : Nat) (b : List Byte) : memRead (memWrite t a b) a b.length = b := by
  apply List.ext_getElem
  · simp [memRead]
  · intro i h1 h2
    simp only [memRead, List.getElem_map, List.getElem_range, tget_memWrite]
    rw [if_pos (by omega)]
    have : a + i - a = i := by omega
    rw [this, List.getElem?_eq_getElem h2]; rfl

/-- The front of what was written. -/
theorem memRead_memWrite_prefix (t : Tab Byte) (a : Nat) (b r : List Byte) : memRead (memWrite t a (b ++ r)) a b.length = b := by
  have h := memRead_memWrite t a (b ++ r)
  have : memRead (memWrite t a (b ++ r)) a b.length = (memRead (memWrite t a (b ++ r)) a (b ++ r).length).take b.length := by
    simp only [memRead, ← List.map_take, List.take_range, List.length_append]
    rw [Nat.min_eq_left (by omega)]
  rw [this, h]; simp

/-- A read elsewhere is as before. -/
theorem memRead_memWrite_ne (t : Tab Byte) (a a' n : Nat) (b : List Byte) (h : a' + n ≤ a ∨ a + b.length ≤ a') :
    memRead (memWrite t a b) a' n = memRead t a' n := by
  simp only [memRead]
  apply List.map_congr_left
  intro i hi
  have hi := List.mem_range.mp hi
  rw [tget_memWrite, if_neg (by omega)]

/-- Every write keeps the canonical form of queue memory. -/
theorem tabWf_memWrite (t : Tab Byte) (a : Nat) (b : List Byte) (h : tabWf 0 t = true) : tabWf 0 (memWrite t a b) = true := by
  induction b generalizing t a with
  | nil => exact h
  | cons x r ih => exact ih _ _ (tabWf_tput 0 t a x h)

/-! ### A packet that is ready -/

theorem length_headBytes (op : Nat) (pk : Packet) : (headBytes op pk).length = 60 := by simp [headBytes]

theorem length_packetBytes (op : Nat) (pk : Packet) : (packetBytes op pk).length = 64 + min pk.plen.toNat 4096 := by
  simp [packetBytes, length_headBytes]; omega

theorem submit_eq {q op : Nat} {pk : Packet} {s : State} (h1 : (queueOf s q).taken = (queueOf s q).tail)
    (h2 : ((queueOf s q).tail - (queueOf s q).head).toNat < 16) :
    submit q op pk s =
      modQueue q (fun x => { x with mem := memWrite x.mem (slotAddr x.tail) (packetBytes op pk), tail := x.tail + 1 }) s :=
  if_pos ⟨h1, h2⟩

@[simp] theorem queueOf_with_rr (s : State) (n r : Nat) : queueOf { s with cmd := { s.cmd with rr := n } } r = queueOf s r := rfl

theorem take_fields (q : Nat) (s : State) : ∃ n, take q s =
    { modQueue q (fun x => { mirSlot x.taken x with taken := x.taken + 1 }) s with
      cmd := { (modQueue q (fun x => { mirSlot x.taken x with taken := x.taken + 1 }) s).cmd with rr := n } } := by
  unfold take
  by_cases h : q = 0
  · exact ⟨s.cmd.rr, by rw [if_pos h]; rfl⟩
  · exact ⟨q % 7 + 1, by rw [if_neg h]⟩

/-- The opcode of the packet just put in a slot. -/
theorem packetAt_submitted (q : BitVec 3) (x : Queue) (op : Nat) (pk : Packet) (h : op < 65536) (c : BitVec 16) :
    (packetAt q { x with mem := memWrite x.mem (slotAddr c) (packetBytes op pk) } c).1 = op := by
  have h64 : memRead (memWrite x.mem (slotAddr c) (packetBytes op pk)) (slotAddr c) 64 = headBytes op pk ++ leBytes 4 pk.crc.toNat := by
    have := memRead_memWrite_prefix x.mem (slotAddr c) (headBytes op pk ++ leBytes 4 pk.crc.toNat) (slice pk.payload 0 (min pk.plen.toNat 4096))
    simpa [length_headBytes, packetBytes] using this
  simp only [packetAt, h64]
  have := fieldAt_append [] (leBytes 2 pk.tag.toNat ++ leBytes 2 pk.plen.toNat ++ leBytes 1 pk.flags.toNat ++
    leBytes 9 pk.rsv1.toNat ++ leBytes 32 pk.param.toNat ++ leBytes 12 pk.rsv2.toNat ++ leBytes 4 pk.crc.toNat) 2 op
  simp only [List.nil_append, List.length_nil] at this
  rw [Nat.mod_eq_of_lt (by omega)] at this
  simpa [headBytes, List.append_assoc] using this

theorem slotHolds_submitted (x : Queue) (op : Nat) (pk : Packet) (c : BitVec 16) :
    slotHolds { x with mem := memWrite x.mem (slotAddr c) (packetBytes op pk) } c op pk = true := by
  simp [slotHolds, memRead_memWrite]

theorem took_fields {row : CmdRow} {pk : Packet} {s : State} (h1 : (queueOf s pk.queue.toNat).taken = (queueOf s pk.queue.toNat).tail)
    (h2 : ((queueOf s pk.queue.toNat).tail - (queueOf s pk.queue.toNat).head).toNat < 16) :
    ∃ n qs, took row pk s = { s with cmd := { s.cmd with rr := n, queues := qs } } := by
  unfold took
  rw [submit_eq h1 h2]
  obtain ⟨n, hn⟩ := take_fields pk.queue.toNat (modQueue pk.queue.toNat (fun x => { x with mem := memWrite x.mem (slotAddr x.tail) (packetBytes row.op pk), tail := x.tail + 1 }) s)
  exact ⟨n, _, hn⟩

/-- The queue from which the packet was taken. -/
theorem queueOf_took {row : CmdRow} {pk : Packet} {s : State} (h1 : (queueOf s pk.queue.toNat).taken = (queueOf s pk.queue.toNat).tail)
    (h2 : ((queueOf s pk.queue.toNat).tail - (queueOf s pk.queue.toNat).head).toNat < 16) :
    queueOf (took row pk s) pk.queue.toNat =
      { mirSlot (queueOf s pk.queue.toNat).tail { queueOf s pk.queue.toNat with
          mem := memWrite (queueOf s pk.queue.toNat).mem (slotAddr (queueOf s pk.queue.toNat).tail) (packetBytes row.op pk)
          tail := (queueOf s pk.queue.toNat).tail + 1 } with
        taken := (queueOf s pk.queue.toNat).tail + 1 } := by
  unfold took
  rw [submit_eq h1 h2]
  obtain ⟨n, hn⟩ := take_fields pk.queue.toNat (modQueue pk.queue.toNat (fun x => { x with mem := memWrite x.mem (slotAddr x.tail) (packetBytes row.op pk), tail := x.tail + 1 }) s)
  rw [hn, queueOf_with_rr, queueOf_modQueue, queueOf_modQueue]
  simp only [mirSlot, h1]

theorem not_takeable {s : State} {r : Nat} (h : (queueOf s r).taken = (queueOf s r).tail) : takeable s r = false := by
  simp [takeable, h]

theorem bv16_succ_ne (x : BitVec 16) : ¬ x = x + 1 := by
  intro h
  have := congrArg BitVec.toNat h
  rw [BitVec.toNat_add] at this
  simp at this
  omega

/-- A packet whose turn it is is taken at once, and held where PowerWarn holds it. -/
theorem Turn.run {row : CmdRow} {pk : Packet} {h : HubId} {s : State} (r : Turn pk h s) (hk : row.op ∈ knownOps) (i : Instr) :
    runCmd row i pk s =
      if powerWarn s && !quiet row pk then
        holdCmd pk.queue.toNat (queueOf s pk.queue.toNat).tail i (took row pk s)
      else interpret row (callerFor row pk h s) (took row pk s) := by
  have hq : pk.queue.toNat < 8 := pk.queue.isLt
  have hop : row.op < 65536 := by
    have : ∀ n ∈ knownOps, n < 65536 := by decide
    exact this _ hk
  have hidle := r.idle _ hq
  have hsub := submit_eq (op := row.op) (pk := pk) hidle r.slot
  obtain ⟨s1, hs1⟩ : ∃ s1, submit pk.queue.toNat row.op pk s = s1 := ⟨_, rfl⟩
  have hq1 : queueOf s1 pk.queue.toNat = { queueOf s pk.queue.toNat with
      mem := memWrite (queueOf s pk.queue.toNat).mem (slotAddr (queueOf s pk.queue.toNat).tail) (packetBytes row.op pk)
      tail := (queueOf s pk.queue.toNat).tail + 1 } := by rw [← hs1, hsub, queueOf_modQueue]
  have hserv : serving s1 = some h := by rw [← hs1, hsub]; exact r.serves
  have hother : ∀ k, k ≠ pk.queue.toNat → queueOf s1 k = queueOf s k := by
    intro k hk'; rw [← hs1, hsub]; exact queueOf_modQueue_ne hk' _ _
  have hnot : ∀ k, k < 8 → k ≠ pk.queue.toNat → takeable s1 k = false := by
    intro k h8 hne
    exact not_takeable (by rw [hother k hne]; exact r.idle k h8)
  have htak : takeable s1 pk.queue.toNat = true := by
    have a1 : sqRoom s1 pk.queue.toNat = true := by
      have := r.room
      simp only [sqRoom, openOf, hq1, sqFree] at this ⊢
      rw [← hs1, hsub]; exact this
    have a2 : heldIn s1 pk.queue.toNat = false := by rw [← hs1, hsub]; exact r.unheld
    have a3 : slowIn s1 pk.queue.toNat = false := by rw [← hs1, hsub]; exact r.unslow
    simp [takeable, a1, a2, a3, hq1, hidle]
  have hbefore : (rrBefore s1.cmd.rr pk.queue.toNat).any (fun k => takeable s1 k) = false := by
    rw [List.any_eq_false]
    intro k hk'
    have hm : k ∈ (List.range 7).map (fun i => (s1.cmd.rr - 1 + i) % 7 + 1) := List.takeWhile_subset _ hk'
    obtain ⟨i, _, hi⟩ := List.mem_map.mp hm
    have hne : k ≠ pk.queue.toNat := by
      have : ∀ (l : List Nat), k ∈ l.takeWhile (· ≠ pk.queue.toNat) → k ≠ pk.queue.toNat := by
        intro l
        induction l with
        | nil => simp
        | cons a l ih =>
          intro hl
          rw [List.takeWhile_cons] at hl
          split at hl
          · next ha =>
            rcases List.mem_cons.mp hl with rfl | hl
            · simpa using ha
            · exact ih hl
          · simp at hl
      exact this _ hk'
    rw [hnot k (by omega) hne]; simp
  have hturn : turnOf s1 pk.queue.toNat = true := by
    simp only [turnOf, htak, hbefore, Bool.not_false, Bool.and_true, Bool.true_and, Bool.or_eq_true, decide_eq_true_eq]
    by_cases h0 : pk.queue.toNat = 0
    · exact .inl h0
    · right; rw [hnot 0 (by omega) (Ne.symm h0)]; rfl
  have hcount : (queueOf s1 pk.queue.toNat).taken = (queueOf s pk.queue.toNat).tail := by rw [hq1]; exact hidle
  have hunk : unknownTurn s1 = none := by
    unfold unknownTurn
    rw [List.find?_eq_none]
    intro k _
    simp only [Bool.and_eq_true, decide_eq_true_eq, not_and, Decidable.not_not]
    intro ht
    by_cases hkq : k = pk.queue
    · subst hkq
      rw [hcount, hq1]
      have e := packetAt_submitted pk.queue { queueOf s pk.queue.toNat with tail := (queueOf s pk.queue.toNat).tail + 1 } row.op pk
        hop (queueOf s pk.queue.toNat).tail
      exact Eq.mpr (congrArg (fun n => n ∈ knownOps) e) hk
    · have : takeable s1 k.toNat = false := hnot _ k.isLt (fun e => hkq (BitVec.eq_of_toNat_eq e))
      simp [turnOf, this] at ht
  have hrej : rejectUnknown maxWaiting s1 = s1 := by
    show rejectUnknown (127 + 1) s1 = s1
    simp only [rejectUnknown, hserv, hunk]
  have hhold : slotHolds (queueOf s1 pk.queue.toNat) (queueOf s pk.queue.toNat).tail row.op pk = true := by
    rw [hq1]
    exact slotHolds_submitted _ _ _ _
  have hpw : powerWarn (take pk.queue.toNat s1) = powerWarn s := by
    obtain ⟨n, hn⟩ := take_fields pk.queue.toNat s1
    rw [hn, ← hs1, hsub]; rfl
  unfold runCmd
  simp only [r.serves, hs1, hrej, hturn, hhold, Bool.and_self, if_true, hpw, hcount]
  unfold callerFor took
  rw [hs1]

/-- A packet that is ready is interpreted at once. -/
theorem Ready.run {row : CmdRow} {pk : Packet} {h : HubId} {s : State} (r : Ready row pk h s) (hk : row.op ∈ knownOps) (i : Instr) :
    runCmd row i pk s = interpret row (callerFor row pk h s) (took row pk s) := by
  have hpw : (powerWarn s && !quiet row pk) = false := by rcases r.power with h1 | h1 <;> simp [h1]
  rw [r.toTurn.run hk i, hpw]; rfl

/-- A packet that is ready is answered by its row, where the row does not refuse ownership. -/
theorem Ready.answers {row : CmdRow} {pk : Packet} {h : HubId} {s : State} (r : Ready row pk h s) (hk : row.op ∈ knownOps) (i : Instr)
    {a : Ans} (hb : row.body (callerFor row pk h s) (took row pk s) = a)
    (ha : ansGood a) :
    runCmd row i pk s = commit row (callerFor row pk h s) a (took row pk s) := by
  have hq : pk.queue.toNat < 8 := pk.queue.isLt
  obtain ⟨n, qs, ht⟩ := took_fields (row := row) (r.idle _ hq) r.slot
  have hopens : (took row pk s).cmd.opens = s.cmd.opens := by rw [ht]
  have hany : ((took row pk s).cmd.opens.any (fun o => decide (o.queue = (callerFor row pk h s).queue ∧ o.tag = (callerFor row pk h s).pk.tag))) = false := by
    rw [hopens]
    have := r.fresh
    rw [List.all_eq_true] at this
    rw [List.any_eq_false]
    intro o ho
    have h2 := this o ho
    show ¬ decide (o.queue = pk.queue.toNat ∧ o.tag = pk.tag) = true
    simp only [Bool.not_eq_true', decide_eq_false_iff_not] at h2
    simpa using h2
  have hfull : decide (8 ≤ openOf (took row pk s) (callerFor row pk h s).queue) = false := by
    have : openOf (took row pk s) (callerFor row pk h s).queue = openOf s pk.queue.toNat := by
      simp only [openOf, hopens]; rfl
    rw [this]; have := r.opens; simp; omega
  have hi : (callerFor row pk h s).pk.internal = false := r.sound
  have hst : strayParam (callerFor row pk h s).pk row.named = none := r.params
  have hpk : (callerFor row pk h s).pk = pk := rfl
  have hans : answer row (callerFor row pk h s) (took row pk s) = a := by
    unfold answer
    rw [r.perm]
    simp only [Bool.not_true, Bool.false_eq_true, if_false, hb, hany, hst, hi, hfull]
    cases a with
    | err => exact False.elim ha
    | errWith => exact False.elim ha
    | _ => simp
  rw [r.run hk i]
  unfold interpret
  rw [hpk, r.head, hans]

theorem performs_of {row : CmdRow} {c : Packet → Instr} {cond : Caller → State → Prop} {ans : Caller → State → Ans}
    (he : ∀ pk s, exec (c pk) s = nextOf s (runCmd row (c pk) pk s)) (hk : row.op ∈ knownOps)
    (hb : ∀ c s, cond c s → row.body c s = ans c s)
    (ha : ∀ c s, ansGood (ans c s)) : Performs row c cond ans := by
  intro pk h s r hc
  unfold Answers
  rw [he, r.answers hk (c pk) (hb _ _ hc) (ha _ _)]
  rfl

theorem performsThen_of {f : State → State} {row : CmdRow} {c : Packet → Instr} {cond : Caller → State → Prop} {ans : Caller → State → Ans}
    (he : ∀ pk s, exec (c pk) s = nextOf s (f (runCmd row (c pk) pk s))) (hk : row.op ∈ knownOps)
    (hb : ∀ c s, cond c s → row.body c s = ans c s) (ha : ∀ c s, ansGood (ans c s)) : PerformsThen f row c cond ans := by
  intro pk h s r hc
  rw [he, r.answers hk (c pk) (hb _ _ hc) (ha _ _)]
  rfl

end Sys2Proof.Machine
end

