-- ==== Sys2Proof/Laws/Kernel.lean ====
section
/-! SUPPORT. What the kernel registers read after a write, and what running one kernel instruction does to the state. -/

namespace Sys2Proof.Machine
open Sys2Proof

theorem toNat_eq_iff {w : Nat} (a b : BitVec w) : a.toNat = b.toNat ↔ a = b := BitVec.toNat_inj

@[simp] theorem xRead_zero (k : KState) : xRead k 0 = 0 := by simp [xRead]

theorem xRead_xWrite (d r : BitVec 4) (v : BitVec 64) (k : KState) :
    xRead (xWrite d v k) r = if r = 0 then 0 else if r = d then v else xRead k r := by
  unfold xRead xWrite
  by_cases hr : r = 0
  · rw [if_pos hr, if_pos hr]
  · rw [if_neg hr, if_neg hr]
    by_cases hd : d = 0
    · have hrd : r ≠ d := fun e => hr (e.trans hd)
      rw [if_pos hd, if_neg hrd, if_neg hr]
    · rw [if_neg hd, if_neg hr]
      simp only [tget_tput, toNat_eq_iff]

theorem mRead_mWrite (d r : BitVec 4) (v : MReg) (k : KState) : mRead (mWrite d v k) r = if r = d then v else mRead k r := by
  simp [mRead, mWrite, tget_tput, toNat_eq_iff]

theorem vRead_vWrite (d r : BitVec 4) (v : BitVec 80) (k : KState) : vRead (vWrite d v k) r = if r = d then v else vRead k r := by
  simp [vRead, vWrite, tget_tput, toNat_eq_iff]

@[simp] theorem xRead_kAdv (k : KState) (r : BitVec 4) : xRead (kAdv k) r = xRead k r := rfl
@[simp] theorem mRead_kAdv (k : KState) (r : BitVec 4) : mRead (kAdv k) r = mRead k r := rfl
@[simp] theorem vRead_kAdv (k : KState) (r : BitVec 4) : vRead (kAdv k) r = vRead k r := rfl
@[simp] theorem xRead_kGo (i : BitVec 32) (k : KState) (r : BitVec 4) : xRead (kGo i k) r = xRead k r := rfl
@[simp] theorem mRead_kGo (i : BitVec 32) (k : KState) (r : BitVec 4) : mRead (kGo i k) r = mRead k r := rfl
@[simp] theorem vRead_kGo (i : BitVec 32) (k : KState) (r : BitVec 4) : vRead (kGo i k) r = vRead k r := rfl
@[simp] theorem mRead_xWrite (d r : BitVec 4) (v : BitVec 64) (k : KState) : mRead (xWrite d v k) r = mRead k r := by
  unfold xWrite; split <;> rfl
@[simp] theorem vRead_xWrite (d r : BitVec 4) (v : BitVec 64) (k : KState) : vRead (xWrite d v k) r = vRead k r := by
  unfold xWrite; split <;> rfl
@[simp] theorem lanes_xWrite (d : BitVec 4) (v : BitVec 64) (k : KState) : (xWrite d v k).lanes = k.lanes := by
  unfold xWrite; split <;> rfl
@[simp] theorem finds_xWrite (d : BitVec 4) (v : BitVec 64) (k : KState) : (xWrite d v k).finds = k.finds := by
  unfold xWrite; split <;> rfl
@[simp] theorem lost_xWrite (d : BitVec 4) (v : BitVec 64) (k : KState) : (xWrite d v k).lost = k.lost := by
  unfold xWrite; split <;> rfl
@[simp] theorem pc_xWrite (d : BitVec 4) (v : BitVec 64) (k : KState) : (xWrite d v k).pc = k.pc := by
  unfold xWrite; split <;> rfl
@[simp] theorem steps_xWrite (d : BitVec 4) (v : BitVec 64) (k : KState) : (xWrite d v k).steps = k.steps := by
  unfold xWrite; split <;> rfl
@[simp] theorem status_xWrite (d : BitVec 4) (v : BitVec 64) (k : KState) : (xWrite d v k).status = k.status := by
  unfold xWrite; split <;> rfl

/-- The state a sample is in after an instruction: its steps, and the trap of a spent budget (R171). -/
def kEnd (budget cost : Nat) (ks ks1 : KState) : KState :=
  let ks2 := { ks1 with steps := kSteps ks cost }
  if ks2.status = .running ∧ budget ≤ ks2.steps.toNat then { ks2 with status := .trapped 1 } else ks2

/-- The sample that runs, and that it runs. -/
theorem kSample_running {s : State} {k : CellId} {i : Instr} {c : KCtx} {ks : KState} {budget : Nat}
    (h : kSample s k i = some (c, ks, budget)) : ks.status = .running := by
  unfold kSample kRunning at h
  split at h
  · simp at h
  · split at h
    · next w _ hc =>
      split at h
      · split at h
        · simp only [Option.map_some, Option.some.injEq, Prod.mk.injEq] at h
          obtain ⟨_, rfl, _⟩ := h
          exact hc.2.2
        · simp at h
      · simp at h
    · simp at h

/-- One instruction that completes. -/
theorem kRun_ok {s : State} {k : CellId} {i : Instr} {c : KCtx} {ks ks1 : KState} {budget cost : Nat} {op : Bool} {f : KCtx → KState → KRes}
    (h : kSample s k i = some (c, ks, budget)) (hf : f c ks = .ok ks1 cost op) :
    kRun k i f s = kPut k (kEnd budget cost ks ks1) (if op then { s with free := s.free + 1 } else s) := by
  unfold kSample at h
  unfold kRun
  cases hr : kRunning s k i with
  | none => simp [hr] at h
  | some r =>
    obtain ⟨cid, cp, ks0, b⟩ := r
    simp only [hr, Option.map_some, Option.some.injEq, Prod.mk.injEq] at h
    obtain ⟨rfl, rfl, rfl⟩ := h
    simp only [hf]
    rfl

/-- One instruction that traps. -/
theorem kRun_trap {s : State} {k : CellId} {i : Instr} {c : KCtx} {ks : KState} {budget cause : Nat} {f : KCtx → KState → KRes}
    (h : kSample s k i = some (c, ks, budget)) (hf : f c ks = .trap cause) :
    kRun k i f s = kPut k { ks with status := .trapped cause } s := by
  unfold kSample at h
  unfold kRun
  cases hr : kRunning s k i with
  | none => simp [hr] at h
  | some r =>
    obtain ⟨cid, cp, ks0, b⟩ := r
    simp only [hr, Option.map_some, Option.some.injEq, Prod.mk.injEq] at h
    obtain ⟨rfl, rfl, rfl⟩ := h
    simp only [hf]

theorem kEnd_spent {budget cost : Nat} {ks ks1 : KState} (h : ks1.status = .running) : KSpent budget cost ks (kEnd budget cost ks ks1) := by
  unfold KSpent kEnd kSteps
  by_cases hb : budget ≤ (BitVec.ofNat 24 (min 16777215 (ks.steps.toNat + cost))).toNat
  · simp only [h, hb, and_self, if_true]
  · simp only [h, hb, and_false, if_false, and_self]

@[simp] theorem kEnd_x (b n : Nat) (k k1 : KState) (r : BitVec 4) : xRead (kEnd b n k k1) r = xRead k1 r := by
  unfold kEnd; dsimp only; split <;> rfl
@[simp] theorem kEnd_m (b n : Nat) (k k1 : KState) (r : BitVec 4) : mRead (kEnd b n k k1) r = mRead k1 r := by
  unfold kEnd; dsimp only; split <;> rfl
@[simp] theorem kEnd_v (b n : Nat) (k k1 : KState) (r : BitVec 4) : vRead (kEnd b n k k1) r = vRead k1 r := by
  unfold kEnd; dsimp only; split <;> rfl
@[simp] theorem kEnd_lanes (b n : Nat) (k k1 : KState) : (kEnd b n k k1).lanes = k1.lanes := by unfold kEnd; dsimp only; split <;> rfl
@[simp] theorem kEnd_finds (b n : Nat) (k k1 : KState) : (kEnd b n k k1).finds = k1.finds := by unfold kEnd; dsimp only; split <;> rfl
@[simp] theorem kEnd_lost (b n : Nat) (k k1 : KState) : (kEnd b n k k1).lost = k1.lost := by unfold kEnd; dsimp only; split <;> rfl
@[simp] theorem kEnd_pc (b n : Nat) (k k1 : KState) : (kEnd b n k k1).pc = k1.pc := by unfold kEnd; dsimp only; split <;> rfl

/-- How an instruction that completes is shown to: its effect is named, and what it leaves is read off it. -/
theorem kRan_of {i : Instr} {k : CellId} {f : KCtx → KState → KRes} {cost : KState → Nat} {op : Bool} {pre : KCtx → KState → Prop}
    {post : KCtx → KState → KState → Prop} (g : KCtx → KState → KState) (hi : ∀ s, exec i s = nextOf s (kRun k i f s))
    (hf : ∀ c ks, pre c ks → ks.status = .running → f c ks = .ok (g c ks) (cost ks) op)
    (hs : ∀ c ks, ks.status = .running → (g c ks).status = .running)
    (hp : ∀ c ks b, pre c ks → post c ks (kEnd b (cost ks) ks (g c ks))) : KRan i k cost op pre post := by
  intro s c ks budget h hpre
  have hr := kSample_running h
  refine ⟨kEnd budget (cost ks) ks (g c ks), ?_, kEnd_spent (hs c ks hr), hp c ks budget hpre⟩
  rw [hi, kRun_ok h (hf c ks hpre hr)]
  rfl

theorem kTraps_of {i : Instr} {k : CellId} {f : KCtx → KState → KRes} {cause : Nat} {pre : KCtx → KState → Prop}
    (hi : ∀ s, exec i s = nextOf s (kRun k i f s)) (hf : ∀ c ks, pre c ks → f c ks = .trap cause) : KTraps i k cause pre := by
  intro s c ks budget h hpre
  rw [hi, kRun_trap h (hf c ks hpre)]
  rfl

theorem cells_kPut_ne (k : CellId) (ks : KState) (s : State) {j : Nat} (h : j ≠ cellKey k.hub k.cell) :
    tget {} (kPut k ks s).tst.cells j = tget {} s.tst.cells j :=
  tget_tmod_ne (k' := j) ({} : Cell) s.tst.cells (fun x => { x with work := x.work.map (fun w => { w with k := ks }) }) h

theorem wideOf_fits (c : KCtx) {v : Int} (h : kFits v) : wideOf c v = (BitVec.ofInt 640 v, false) := if_pos h

theorem wideOf_open (c : KCtx) {v : Int} (h : ¬ kFits v) : wideOf c v = (Config.freeWide c.free, true) := if_neg h

theorem toNat_ne_zero {w : Nat} {x : BitVec w} (h : x ≠ 0) : x.toNat ≠ 0 := fun e => h (BitVec.eq_of_toNat_eq (by simpa using e))

end Sys2Proof.Machine
end

