-- ==== Sys2Proof/Laws/Ops.lean ====
section
/-! SUPPORT. What raising an event can change, said once: Strata, the trace buffers and interrupt bits of the hubs, a Cairn stop,
the stops counted in a debug session, messages and outputs. Everything else is as before. -/

namespace Sys2Proof.Machine
open Sys2Proof

/-- A hub without what an event can change in it. -/
def hubStill (x : Hub) : Hub := { x with trace := {}, irqStat := 0, stale := [] }

/-- The state without what an event can change. -/
def still (s : State) : State :=
  { s with
    hubA := hubStill s.hubA, hubB := hubStill s.hubB, strata := {}, cairn := {}, net := [], outs := []
    keys := { s.keys with dbg := s.keys.dbg.map (fun d => { d with stops := 0 }) } }

theorem still_modHub (h : HubId) {f : Hub → Hub} (hf : ∀ x, hubStill (f x) = hubStill x) (s : State) : still (modHub h f s) = still s := by
  cases h
  · show ({ still s with hubA := hubStill (f s.hubA) } : State) = still s
    rw [hf]; rfl
  · show ({ still s with hubB := hubStill (f s.hubB) } : State) = still s
    rw [hf]; rfl

theorem still_irqBit (h : HubId) (i : Nat) (s : State) : still (irqBit h i s) = still s := by
  refine still_modHub h ?_ s
  intro x; rfl

theorem still_markStale (h : HubId) (r : Nat) (s : State) : still (markStale h r s) = still s := by
  unfold markStale
  split
  · refine still_modHub _ ?_ s
    intro x; rfl
  · rfl

theorem still_send (m : Msg) (s : State) : still (send m s) = still s := rfl

theorem still_drive (o : Out) (s : State) : still (drive o s) = still s := rfl

theorem still_strata (b : StrataB) (s : State) : still { s with strata := b } = still s := rfl

theorem still_cairn (c : Cairn) (s : State) : still { s with cairn := c } = still s := rfl

theorem still_if {c : Prop} [Decidable c] {a b s : State} (ha : still a = still s) (hb : still b = still s) :
    still (if c then a else b) = still s := by split <;> assumption

theorem still_forEach {α : Type} (l : List α) (f : α → State → State) (hf : ∀ a s, still (f a s) = still s) (s : State) :
    still (forEach l f s) = still s := by
  unfold forEach
  induction l generalizing s with
  | nil => rfl
  | cons a l ih => exact (ih (f a s)).trans (hf a s)

theorem still_irqOfEvent (h : HubId) (e : Ev) (s : State) : still (irqOfEvent h e s) = still s := by
  unfold irqOfEvent
  dsimp only
  have hb : ∀ (c : Bool) (i : Nat) (u : State), still (if c = true then irqBit h i u else u) = still u := fun c i u =>
    still_if (still_irqBit h i u) rfl
  have hp : ∀ (c : Prop) [Decidable c] (i : Nat) (u : State), still (if c then irqBit h i u else u) = still u := fun c _ i u =>
    still_if (still_irqBit h i u) rfl
  simp only [hb, hp]

theorem still_ingestOne (h : HubId) (e : Ev) (s : State) : still (ingestOne h e s) = still s := by
  unfold ingestOne
  dsimp only
  have hm : ∀ (c : Prop) [Decidable c] (r : Nat) (u : State), still (if c then u else markStale h r u) = still u := fun c _ r u =>
    still_if rfl (still_markStale h r u)
  rw [still_irqOfEvent, hm, hm, still_strata]

theorem still_trigHub {ing : Ev → State → State} (hi : ∀ e s, still (ing e s) = still s) (c n : Nat) (h : HubId) (s : State) :
    still (trigHub ing c n h s) = still s := by
  unfold trigHub
  dsimp only
  split
  · rfl
  · split
    · unfold bufPut
      refine (hi _ _).trans ((still_modHub h ?_ _).trans (still_modHub h ?_ s)) <;> intro x <;> rfl
    · split
      · refine still_modHub h ?_ s
        intro x; rfl
      · rfl

theorem still_cairnForward (n : Nat) (s : State) : still (cairnForward n s) = still s := by
  unfold cairnForward
  rw [still_forEach _ _ (fun a s => still_send _ s), still_drive]

theorem still_cairnIssue {ing : Ev → State → State} (hi : ∀ e s, still (ing e s) = still s) (h : HubId) (l : Nat)
    (cs : List (BitVec 22)) (c n : Nat) (s : State) : still (cairnIssue ing h l cs c n s) = still s := by
  unfold cairnIssue
  split
  · rfl
  · dsimp only
    rw [still_cairnForward, still_trigHub hi, hi]
    unfold still
    cases s.keys.dbg <;> rfl

theorem still_ingestN (n : Nat) (e : Ev) (s : State) : still (ingestN n e s) = still s := by
  induction n generalizing e s with
  | zero =>
    unfold ingestN
    split
    · exact still_ingestOne _ _ _
    · rfl
  | succ n ih =>
    unfold ingestN
    split
    · rfl
    · next h _ =>
      dsimp only
      have h1 := still_ingestOne h e s
      have ht : ∀ (c : Bool) (g : HubId) (u : State), still (if c = true then trigHub (ingestN n) 2 e.code g u else u) = still u :=
        fun c g u => still_if (still_trigHub ih 2 e.code g u) rfl
      split
      · rw [still_cairnIssue ih, still_cairn, ht, ht, h1]
      · rw [ht, ht, h1]

/-- Raising an event changes nothing but what `still` sets aside. -/
theorem still_raise (e : Ev) (s : State) : still (raise e s) = still s := still_ingestN 3 e s

/-! ### What an event leaves alone, field by field -/

section
variable (e : Ev) (s : State)

@[simp] theorem raise_pending : (raise e s).pending = s.pending := by have h := congrArg State.pending (still_raise e s); exact h
@[simp] theorem raise_free : (raise e s).free = s.free := by have h := congrArg State.free (still_raise e s); exact h
@[simp] theorem raise_wardens : (raise e s).wardens = s.wardens := by have h := congrArg State.wardens (still_raise e s); exact h
@[simp] theorem raise_cmd : (raise e s).cmd = s.cmd := by have h := congrArg State.cmd (still_raise e s); exact h
@[simp] theorem raise_sync : (raise e s).sync = s.sync := by have h := congrArg State.sync (still_raise e s); exact h
@[simp] theorem raise_defects : (raise e s).defects = s.defects := by have h := congrArg State.defects (still_raise e s); exact h
@[simp] theorem raise_quarry : (raise e s).quarry = s.quarry := by have h := congrArg State.quarry (still_raise e s); exact h
@[simp] theorem raise_test : (raise e s).test = s.test := by have h := congrArg State.test (still_raise e s); exact h
@[simp] theorem raise_gov : (raise e s).gov = s.gov := by have h := congrArg State.gov (still_raise e s); exact h
@[simp] theorem raise_tst : (raise e s).tst = s.tst := by have h := congrArg State.tst (still_raise e s); exact h
@[simp] theorem raise_boot : (raise e s).boot = s.boot := by have h := congrArg State.boot (still_raise e s); exact h
@[simp] theorem raise_links : (raise e s).links = s.links := by have h := congrArg State.links (still_raise e s); exact h
@[simp] theorem raise_vein : (raise e s).vein = s.vein := by have h := congrArg State.vein (still_raise e s); exact h
@[simp] theorem raise_mir : (raise e s).mir = s.mir := by have h := congrArg State.mir (still_raise e s); exact h
theorem raise_hubA : hubStill (raise e s).hubA = hubStill s.hubA := by have h := congrArg State.hubA (still_raise e s); exact h
theorem raise_hubB : hubStill (raise e s).hubB = hubStill s.hubB := by have h := congrArg State.hubB (still_raise e s); exact h
theorem raise_keys : { (raise e s).keys with dbg := none } = { s.keys with dbg := none } :=
  by have h := congrArg (fun t : State => ({ t.keys with dbg := none } : Keys)) (still_raise e s); exact h
@[simp] theorem raise_debug : (raise e s).keys.dbg.isSome = s.keys.dbg.isSome := by
  have := congrArg (fun t : State => t.keys.dbg.isSome) (still_raise e s)
  simpa [still] using this
@[simp] theorem war_raise (p : Nat) : war (raise e s) p = war s p := by simp [war]
@[simp] theorem lnk_raise (j : Nat) : lnk (raise e s) j = lnk s j := by simp [lnk]
@[simp] theorem queueOf_raise (q : Nat) : queueOf (raise e s) q = queueOf s q := by simp [queueOf]
end

/-- What an event leaves alone in a hub. -/
theorem hubStill_raise (e : Ev) (s : State) (h : HubId) : hubStill (hubOf (raise e s) h) = hubStill (hubOf s h) := by
  cases h
  · exact raise_hubA e s
  · exact raise_hubB e s

@[simp] theorem hub_raise_role (e : Ev) (s : State) (h : HubId) : (hubOf (raise e s) h).role = (hubOf s h).role := by
  have k := congrArg Hub.role (hubStill_raise e s h); exact k
@[simp] theorem hub_raise_peerSeen (e : Ev) (s : State) (h : HubId) : (hubOf (raise e s) h).peerSeen = (hubOf s h).peerSeen := by
  have k := congrArg Hub.peerSeen (hubStill_raise e s h); exact k
@[simp] theorem hub_raise_started (e : Ev) (s : State) (h : HubId) : (hubOf (raise e s) h).started = (hubOf s h).started := by
  have k := congrArg Hub.started (hubStill_raise e s h); exact k
@[simp] theorem hub_raise_kind (e : Ev) (s : State) (h : HubId) : (hubOf (raise e s) h).kind = (hubOf s h).kind := by
  have k := congrArg Hub.kind (hubStill_raise e s h); exact k
@[simp] theorem hub_raise_fast (e : Ev) (s : State) (h : HubId) : (hubOf (raise e s) h).fast = (hubOf s h).fast := by
  have k := congrArg Hub.fast (hubStill_raise e s h); exact k
@[simp] theorem hub_raise_profileSampled (e : Ev) (s : State) (h : HubId) : (hubOf (raise e s) h).profileSampled = (hubOf s h).profileSampled := by
  have k := congrArg Hub.profileSampled (hubStill_raise e s h); exact k
@[simp] theorem hub_raise_keyId (e : Ev) (s : State) (h : HubId) : (hubOf (raise e s) h).keyId = (hubOf s h).keyId := by
  have k := congrArg Hub.keyId (hubStill_raise e s h); exact k
@[simp] theorem hub_raise_agKeyId (e : Ev) (s : State) (h : HubId) : (hubOf (raise e s) h).agKeyId = (hubOf s h).agKeyId := by
  have k := congrArg Hub.agKeyId (hubStill_raise e s h); exact k
@[simp] theorem hub_raise_imgver (e : Ev) (s : State) (h : HubId) : (hubOf (raise e s) h).imgver = (hubOf s h).imgver := by
  have k := congrArg Hub.imgver (hubStill_raise e s h); exact k
@[simp] theorem hub_raise_fwSlot (e : Ev) (s : State) (h : HubId) : (hubOf (raise e s) h).fwSlot = (hubOf s h).fwSlot := by
  have k := congrArg Hub.fwSlot (hubStill_raise e s h); exact k
@[simp] theorem hub_raise_fwDigest (e : Ev) (s : State) (h : HubId) : (hubOf (raise e s) h).fwDigest = (hubOf s h).fwDigest := by
  have k := congrArg Hub.fwDigest (hubStill_raise e s h); exact k
@[simp] theorem hub_raise_startCause (e : Ev) (s : State) (h : HubId) : (hubOf (raise e s) h).startCause = (hubOf s h).startCause := by
  have k := congrArg Hub.startCause (hubStill_raise e s h); exact k
@[simp] theorem hub_raise_releasedAt (e : Ev) (s : State) (h : HubId) : (hubOf (raise e s) h).releasedAt = (hubOf s h).releasedAt := by
  have k := congrArg Hub.releasedAt (hubStill_raise e s h); exact k
@[simp] theorem hub_raise_seed (e : Ev) (s : State) (h : HubId) : (hubOf (raise e s) h).seed = (hubOf s h).seed := by
  have k := congrArg Hub.seed (hubStill_raise e s h); exact k
@[simp] theorem hub_raise_rootKeys (e : Ev) (s : State) (h : HubId) : (hubOf (raise e s) h).rootKeys = (hubOf s h).rootKeys := by
  have k := congrArg Hub.rootKeys (hubStill_raise e s h); exact k
@[simp] theorem hub_raise_agCert (e : Ev) (s : State) (h : HubId) : (hubOf (raise e s) h).agCert = (hubOf s h).agCert := by
  have k := congrArg Hub.agCert (hubStill_raise e s h); exact k
@[simp] theorem hub_raise_fwImg (e : Ev) (s : State) (h : HubId) : (hubOf (raise e s) h).fwImg = (hubOf s h).fwImg := by
  have k := congrArg Hub.fwImg (hubStill_raise e s h); exact k
@[simp] theorem hub_raise_rready (e : Ev) (s : State) (h : HubId) : (hubOf (raise e s) h).rready = (hubOf s h).rready := by
  have k := congrArg Hub.rready (hubStill_raise e s h); exact k
@[simp] theorem hub_raise_hbeat (e : Ev) (s : State) (h : HubId) : (hubOf (raise e s) h).hbeat = (hubOf s h).hbeat := by
  have k := congrArg Hub.hbeat (hubStill_raise e s h); exact k
@[simp] theorem hub_raise_time (e : Ev) (s : State) (h : HubId) : (hubOf (raise e s) h).time = (hubOf s h).time := by
  have k := congrArg Hub.time (hubStill_raise e s h); exact k
@[simp] theorem hub_raise_refLost (e : Ev) (s : State) (h : HubId) : (hubOf (raise e s) h).refLost = (hubOf s h).refLost := by
  have k := congrArg Hub.refLost (hubStill_raise e s h); exact k
@[simp] theorem hub_raise_slowAdj (e : Ev) (s : State) (h : HubId) : (hubOf (raise e s) h).slowAdj = (hubOf s h).slowAdj := by
  have k := congrArg Hub.slowAdj (hubStill_raise e s h); exact k
@[simp] theorem hub_raise_portErr (e : Ev) (s : State) (h : HubId) : (hubOf (raise e s) h).portErr = (hubOf s h).portErr := by
  have k := congrArg Hub.portErr (hubStill_raise e s h); exact k
@[simp] theorem hub_raise_irqMask (e : Ev) (s : State) (h : HubId) : (hubOf (raise e s) h).irqMask = (hubOf s h).irqMask := by
  have k := congrArg Hub.irqMask (hubStill_raise e s h); exact k
@[simp] theorem hub_raise_irqCls (e : Ev) (s : State) (h : HubId) : (hubOf (raise e s) h).irqCls = (hubOf s h).irqCls := by
  have k := congrArg Hub.irqCls (hubStill_raise e s h); exact k
@[simp] theorem hub_raise_irqSev (e : Ev) (s : State) (h : HubId) : (hubOf (raise e s) h).irqSev = (hubOf s h).irqSev := by
  have k := congrArg Hub.irqSev (hubStill_raise e s h); exact k
@[simp] theorem hub_raise_sntSel (e : Ev) (s : State) (h : HubId) : (hubOf (raise e s) h).sntSel = (hubOf s h).sntSel := by
  have k := congrArg Hub.sntSel (hubStill_raise e s h); exact k
@[simp] theorem hub_raise_strArea (e : Ev) (s : State) (h : HubId) : (hubOf (raise e s) h).strArea = (hubOf s h).strArea := by
  have k := congrArg Hub.strArea (hubStill_raise e s h); exact k
@[simp] theorem hub_raise_strPos (e : Ev) (s : State) (h : HubId) : (hubOf (raise e s) h).strPos = (hubOf s h).strPos := by
  have k := congrArg Hub.strPos (hubStill_raise e s h); exact k
@[simp] theorem hub_raise_snaps (e : Ev) (s : State) (h : HubId) : (hubOf (raise e s) h).snaps = (hubOf s h).snaps := by
  have k := congrArg Hub.snaps (hubStill_raise e s h); exact k
@[simp] theorem hub_raise_expData (e : Ev) (s : State) (h : HubId) : (hubOf (raise e s) h).expData = (hubOf s h).expData := by
  have k := congrArg Hub.expData (hubStill_raise e s h); exact k
@[simp] theorem hub_raise_expOrigin (e : Ev) (s : State) (h : HubId) : (hubOf (raise e s) h).expOrigin = (hubOf s h).expOrigin := by
  have k := congrArg Hub.expOrigin (hubStill_raise e s h); exact k
@[simp] theorem hub_raise_expSeq (e : Ev) (s : State) (h : HubId) : (hubOf (raise e s) h).expSeq = (hubOf s h).expSeq := by
  have k := congrArg Hub.expSeq (hubStill_raise e s h); exact k
@[simp] theorem hub_raise_expGen (e : Ev) (s : State) (h : HubId) : (hubOf (raise e s) h).expGen = (hubOf s h).expGen := by
  have k := congrArg Hub.expGen (hubStill_raise e s h); exact k
@[simp] theorem hub_raise_trcLost (e : Ev) (s : State) (h : HubId) : (hubOf (raise e s) h).trcLost = (hubOf s h).trcLost := by
  have k := congrArg Hub.trcLost (hubStill_raise e s h); exact k
@[simp] theorem hub_raise_pwr (e : Ev) (s : State) (h : HubId) : (hubOf (raise e s) h).pwr = (hubOf s h).pwr := by
  have k := congrArg Hub.pwr (hubStill_raise e s h); exact k
@[simp] theorem hub_raise_railLow (e : Ev) (s : State) (h : HubId) : (hubOf (raise e s) h).railLow = (hubOf s h).railLow := by
  have k := congrArg Hub.railLow (hubStill_raise e s h); exact k
@[simp] theorem hub_raise_railFell (e : Ev) (s : State) (h : HubId) : (hubOf (raise e s) h).railFell = (hubOf s h).railFell := by
  have k := congrArg Hub.railFell (hubStill_raise e s h); exact k
@[simp] theorem hub_raise_coldNext (e : Ev) (s : State) (h : HubId) : (hubOf (raise e s) h).coldNext = (hubOf s h).coldNext := by
  have k := congrArg Hub.coldNext (hubStill_raise e s h); exact k
@[simp] theorem hub_raise_pfail (e : Ev) (s : State) (h : HubId) : (hubOf (raise e s) h).pfail = (hubOf s h).pfail := by
  have k := congrArg Hub.pfail (hubStill_raise e s h); exact k
@[simp] theorem hub_raise_pfailDone (e : Ev) (s : State) (h : HubId) : (hubOf (raise e s) h).pfailDone = (hubOf s h).pfailDone := by
  have k := congrArg Hub.pfailDone (hubStill_raise e s h); exact k
@[simp] theorem hub_raise_irqPin (e : Ev) (s : State) (h : HubId) : (hubOf (raise e s) h).irqPin = (hubOf s h).irqPin := by
  have k := congrArg Hub.irqPin (hubStill_raise e s h); exact k
@[simp] theorem hub_raise_primaryPin (e : Ev) (s : State) (h : HubId) : (hubOf (raise e s) h).primaryPin = (hubOf s h).primaryPin := by
  have k := congrArg Hub.primaryPin (hubStill_raise e s h); exact k
@[simp] theorem hub_raise_peerHb (e : Ev) (s : State) (h : HubId) : (hubOf (raise e s) h).peerHb = (hubOf s h).peerHb := by
  have k := congrArg Hub.peerHb (hubStill_raise e s h); exact k
@[simp] theorem hub_raise_peerFailed (e : Ev) (s : State) (h : HubId) : (hubOf (raise e s) h).peerFailed = (hubOf s h).peerFailed := by
  have k := congrArg Hub.peerFailed (hubStill_raise e s h); exact k
@[simp] theorem hub_raise_leases (e : Ev) (s : State) (h : HubId) : (hubOf (raise e s) h).leases = (hubOf s h).leases := by
  have k := congrArg Hub.leases (hubStill_raise e s h); exact k
@[simp] theorem hub_raise_withdrawals (e : Ev) (s : State) (h : HubId) : (hubOf (raise e s) h).withdrawals = (hubOf s h).withdrawals := by
  have k := congrArg Hub.withdrawals (hubStill_raise e s h); exact k
@[simp] theorem hub_raise_mayClaim (e : Ev) (s : State) (h : HubId) : (hubOf (raise e s) h).mayClaim = (hubOf s h).mayClaim := by
  have k := congrArg Hub.mayClaim (hubStill_raise e s h); exact k
@[simp] theorem hub_raise_mgmt (e : Ev) (s : State) (h : HubId) : (hubOf (raise e s) h).mgmt = (hubOf s h).mgmt := by
  have k := congrArg Hub.mgmt (hubStill_raise e s h); exact k
@[simp] theorem hub_raise_mgmtOut (e : Ev) (s : State) (h : HubId) : (hubOf (raise e s) h).mgmtOut = (hubOf s h).mgmtOut := by
  have k := congrArg Hub.mgmtOut (hubStill_raise e s h); exact k

@[simp] theorem isServing_raise (e : Ev) (s : State) (h : HubId) : isServing (hubOf (raise e s) h) = isServing (hubOf s h) := by
  simp [isServing]

@[simp] theorem serving_raise (e : Ev) (s : State) : serving (raise e s) = serving s := by
  have a := isServing_raise e s .a
  have b := isServing_raise e s .b
  simp only [hubOf] at a b
  simp only [serving, a, b]

@[simp] theorem hubOf_raise_a (e : Ev) (s : State) : (raise e s).hubA = hubOf (raise e s) .a := rfl
@[simp] theorem hubOf_raise_b (e : Ev) (s : State) : (raise e s).hubB = hubOf (raise e s) .b := rfl

/-! ### What an event records -/

/-- With no trace trigger or armed stop that it could match, an event is ingested once. -/
theorem raise_quiet {e : Ev} {s : State} {h : HubId} (hs : serving s = some h) (ha : s.hubA.trace.evMatch = false)
    (hb : s.hubB.trace.evMatch = false) (hc : s.cairn.armed = false) : raise e s = ingestOne h e s := by
  simp [raise, ingestN, hs, ha, hb, hc]

/-- While no hub serves, an event of the hubs' own parts is held (R401). -/
theorem raise_held {e : Ev} {s : State} (hs : serving s = none) :
    raise e s = { s with strata := { s.strata with hubHeld := s.strata.hubHeld ++ [(.a, e)] } } := by
  simp [raise, ingestN, hs]

/-- The certificate excludes partitions and links only, so no core's site (R234). -/
theorem unlicensed_core {s : State} {x : Nat} (h : isCoreSite x = true) : unlicensed s x = false := by
  simp only [isCoreSite, Bool.and_eq_true, decide_eq_true_eq] at h
  have h1 : isPartSite x = false := by simp [isPartSite]; omega
  have h2 : isLinkSite x = false := by simp [isLinkSite]; omega
  simp [unlicensed, h1, h2]

theorem strata_irqBit (h : HubId) (i : Nat) (s : State) : (irqBit h i s).strata = s.strata := by simp

/-- What ingestion does to Strata (R398, R404, R408). -/
theorem strata_ingestOne (h : HubId) (e : Ev) (s : State) :
    (ingestOne h e s).strata =
      strataPut (if e.site = 4294967296 then { e with site := hubSite h } else e) (max (hubOf s h).time (lastStamp s)) s.strata := by
  unfold ingestOne irqOfEvent
  dsimp only
  have hb : ∀ (c : Bool) (i : Nat) (u : State), (if c = true then irqBit h i u else u).strata = u.strata := fun c i u => by
    split <;> simp
  have hp : ∀ (c : Prop) [Decidable c] (i : Nat) (u : State), (if c then irqBit h i u else u).strata = u.strata := fun c _ i u => by
    split <;> simp
  have hm : ∀ (c : Prop) [Decidable c] (r : Nat) (u : State), (if c then u else markStale h r u).strata = u.strata := fun c _ r u => by
    split
    · rfl
    · unfold markStale addStale; split <;> simp
  simp only [hb, hp, hm]

end Sys2Proof.Machine
end

