-- ==== Sys2Proof/Laws/PerInstr.lean ====
section
/-! SUPPORT. Statements made of every command as syntax, one lemma per constructor. -/

namespace Sys2Proof.Laws.KernelCells
open Sys2Proof

/-- A kernel instruction is well formed exactly where its cell is one of a hub's 16 (R139). -/
def Statement (i : Instr) : Prop := ∀ k, Machine.kernelCell i = some k → i.wf = decide (k.cell < 16)

theorem hubNop (pk : Packet) : Statement (.hubNop pk) := fun _ h => nomatch h
theorem hubQbind (pk : Packet) : Statement (.hubQbind pk) := fun _ h => nomatch h
theorem hubStatus (pk : Packet) : Statement (.hubStatus pk) := fun _ h => nomatch h
theorem hubProfile (pk : Packet) : Statement (.hubProfile pk) := fun _ h => nomatch h
theorem hubDebug (pk : Packet) : Statement (.hubDebug pk) := fun _ h => nomatch h
theorem hubCounters (pk : Packet) : Statement (.hubCounters pk) := fun _ h => nomatch h
theorem screenReport (pk : Packet) : Statement (.screenReport pk) := fun _ h => nomatch h
theorem shadowSet (pk : Packet) : Statement (.shadowSet pk) := fun _ h => nomatch h
theorem shadowGet (pk : Packet) : Statement (.shadowGet pk) := fun _ h => nomatch h
theorem tstoneDesc (pk : Packet) : Statement (.tstoneDesc pk) := fun _ h => nomatch h
theorem tstoneShare (pk : Packet) : Statement (.tstoneShare pk) := fun _ h => nomatch h
theorem tstoneReport (pk : Packet) : Statement (.tstoneReport pk) := fun _ h => nomatch h
theorem tstoneKload (pk : Packet) : Statement (.tstoneKload pk) := fun _ h => nomatch h
theorem tstoneKunload (pk : Packet) : Statement (.tstoneKunload pk) := fun _ h => nomatch h
theorem tstoneKattach (pk : Packet) : Statement (.tstoneKattach pk) := fun _ h => nomatch h
theorem tstoneKdetach (pk : Packet) : Statement (.tstoneKdetach pk) := fun _ h => nomatch h
theorem tstoneKresult (pk : Packet) : Statement (.tstoneKresult pk) := fun _ h => nomatch h
theorem testSet (pk : Packet) : Statement (.testSet pk) := fun _ h => nomatch h
theorem testRun (pk : Packet) : Statement (.testRun pk) := fun _ h => nomatch h
theorem testStatus (pk : Packet) : Statement (.testStatus pk) := fun _ h => nomatch h
theorem testYield (pk : Packet) : Statement (.testYield pk) := fun _ h => nomatch h
theorem quarryImport (pk : Packet) : Statement (.quarryImport pk) := fun _ h => nomatch h
theorem quarryExport (pk : Packet) : Statement (.quarryExport pk) := fun _ h => nomatch h
theorem quarryList (pk : Packet) : Statement (.quarryList pk) := fun _ h => nomatch h
theorem quarryRetire (pk : Packet) : Statement (.quarryRetire pk) := fun _ h => nomatch h
theorem quarList (pk : Packet) : Statement (.quarList pk) := fun _ h => nomatch h
theorem quarState (pk : Packet) : Statement (.quarState pk) := fun _ h => nomatch h
theorem quarSet (pk : Packet) : Statement (.quarSet pk) := fun _ h => nomatch h
theorem quarRestore (pk : Packet) : Statement (.quarRestore pk) := fun _ h => nomatch h
theorem syncAlloc (pk : Packet) : Statement (.syncAlloc pk) := fun _ h => nomatch h
theorem syncArm (pk : Packet) : Statement (.syncArm pk) := fun _ h => nomatch h
theorem syncFree (pk : Packet) : Statement (.syncFree pk) := fun _ h => nomatch h
theorem syncSignal (pk : Packet) : Statement (.syncSignal pk) := fun _ h => nomatch h
theorem syncTake (pk : Packet) : Statement (.syncTake pk) := fun _ h => nomatch h
theorem syncQuery (pk : Packet) : Statement (.syncQuery pk) := fun _ h => nomatch h
theorem syncJobend (pk : Packet) : Statement (.syncJobend pk) := fun _ h => nomatch h
theorem fenceReset (pk : Packet) : Statement (.fenceReset pk) := fun _ h => nomatch h
theorem fenceDetour (pk : Packet) : Statement (.fenceDetour pk) := fun _ h => nomatch h
theorem fenceStatus (pk : Packet) : Statement (.fenceStatus pk) := fun _ h => nomatch h
theorem fenceRestore (pk : Packet) : Statement (.fenceRestore pk) := fun _ h => nomatch h
theorem bootCorefw (pk : Packet) : Statement (.bootCorefw pk) := fun _ h => nomatch h
theorem bootCheck (pk : Packet) : Statement (.bootCheck pk) := fun _ h => nomatch h
theorem bootStatus (pk : Packet) : Statement (.bootStatus pk) := fun _ h => nomatch h
theorem bootFwload (pk : Packet) : Statement (.bootFwload pk) := fun _ h => nomatch h
theorem keyId (pk : Packet) : Statement (.keyId pk) := fun _ h => nomatch h
theorem keyAttest (pk : Packet) : Statement (.keyAttest pk) := fun _ h => nomatch h
theorem keyAssign (pk : Packet) : Statement (.keyAssign pk) := fun _ h => nomatch h
theorem keyRotate (pk : Packet) : Statement (.keyRotate pk) := fun _ h => nomatch h
theorem keyUnwrap (pk : Packet) : Statement (.keyUnwrap pk) := fun _ h => nomatch h
theorem keyBind (pk : Packet) : Statement (.keyBind pk) := fun _ h => nomatch h
theorem keyUnbind (pk : Packet) : Statement (.keyUnbind pk) := fun _ h => nomatch h
theorem keySlotfree (pk : Packet) : Statement (.keySlotfree pk) := fun _ h => nomatch h
theorem keyTroot (pk : Packet) : Statement (.keyTroot pk) := fun _ h => nomatch h
theorem keyVariant (pk : Packet) : Statement (.keyVariant pk) := fun _ h => nomatch h
theorem keyStatus (pk : Packet) : Statement (.keyStatus pk) := fun _ h => nomatch h
theorem scrubTenant (pk : Packet) : Statement (.scrubTenant pk) := fun _ h => nomatch h
theorem scrubStatus (pk : Packet) : Statement (.scrubStatus pk) := fun _ h => nomatch h
theorem traceSet (pk : Packet) : Statement (.traceSet pk) := fun _ h => nomatch h
theorem traceArm (pk : Packet) : Statement (.traceArm pk) := fun _ h => nomatch h
theorem traceTrigger (pk : Packet) : Statement (.traceTrigger pk) := fun _ h => nomatch h
theorem traceStatus (pk : Packet) : Statement (.traceStatus pk) := fun _ h => nomatch h
theorem stopIssue (pk : Packet) : Statement (.stopIssue pk) := fun _ h => nomatch h
theorem stopArm (pk : Packet) : Statement (.stopArm pk) := fun _ h => nomatch h
theorem stopResume (pk : Packet) : Statement (.stopResume pk) := fun _ h => nomatch h
theorem stopStatus (pk : Packet) : Statement (.stopStatus pk) := fun _ h => nomatch h
theorem strataStatus (pk : Packet) : Statement (.strataStatus pk) := fun _ h => nomatch h
theorem strataRead (pk : Packet) : Statement (.strataRead pk) := fun _ h => nomatch h
theorem strataFreeze (pk : Packet) : Statement (.strataFreeze pk) := fun _ h => nomatch h
theorem strataUnfreeze (pk : Packet) : Statement (.strataUnfreeze pk) := fun _ h => nomatch h
theorem strataTimepair (pk : Packet) : Statement (.strataTimepair pk) := fun _ h => nomatch h
theorem strataCodes (pk : Packet) : Statement (.strataCodes pk) := fun _ h => nomatch h
theorem powerStatus (pk : Packet) : Statement (.powerStatus pk) := fun _ h => nomatch h
theorem powerMask (pk : Packet) : Statement (.powerMask pk) := fun _ h => nomatch h
theorem powerBank (pk : Packet) : Statement (.powerBank pk) := fun _ h => nomatch h
theorem linkTrain (pk : Packet) : Statement (.linkTrain pk) := fun _ h => nomatch h
theorem linkStatus (pk : Packet) : Statement (.linkStatus pk) := fun _ h => nomatch h
theorem doorbell (h : HubId) (q : BitVec 3) (v : BitVec 64) (strb : BitVec 8) : Statement (.doorbell h q v strb) := fun _ h => nomatch h
theorem sqHead (h : HubId) (q : BitVec 3) (v : BitVec 64) (strb : BitVec 8) : Statement (.sqHead h q v strb) := fun _ h => nomatch h
theorem queueMemoryWrite (h : HubId) (q : BitVec 3) (slot : BitVec 4) (word : Nat) (v : BitVec 64) (strb : BitVec 8) : Statement (.queueMemoryWrite h q slot word v strb) := fun _ h => nomatch h
theorem irqStat (h : HubId) (v : BitVec 64) (strb : BitVec 8) : Statement (.irqStat h v strb) := fun _ h => nomatch h
theorem irqTest (h : HubId) (v : BitVec 64) (strb : BitVec 8) : Statement (.irqTest h v strb) := fun _ h => nomatch h
theorem irqCfg (h : HubId) (v : BitVec 64) (strb : BitVec 8) : Statement (.irqCfg h v strb) := fun _ h => nomatch h
theorem sntSel (h : HubId) (v : BitVec 64) (strb : BitVec 8) : Statement (.sntSel h v strb) := fun _ h => nomatch h
theorem strArea (h : HubId) (v : BitVec 64) (strb : BitVec 8) : Statement (.strArea h v strb) := fun _ h => nomatch h
theorem strPos (h : HubId) (v : BitVec 64) (strb : BitVec 8) : Statement (.strPos h v strb) := fun _ h => nomatch h
theorem strataWindowSnapshot (h : HubId) (slot : BitVec 6) : Statement (.strataWindowSnapshot h slot) := fun _ h => nomatch h
theorem hubPorterr (h : HubId) : Statement (.hubPorterr h) := fun _ h => nomatch h
theorem trcLoss (h : HubId) : Statement (.trcLoss h) := fun _ h => nomatch h
theorem registerWrite (h : HubId) (addr : BitVec 20) (v : BitVec 64) (strb : BitVec 8) : Statement (.registerWrite h addr v strb) := fun _ h => nomatch h
theorem cmdPortReset (h : HubId) : Statement (.cmdPortReset h) := fun _ h => nomatch h
theorem statusQueueFull (q : BitVec 3) : Statement (.statusQueueFull q) := fun _ h => nomatch h
theorem waferReset : Statement (.waferReset) := fun _ h => nomatch h
theorem hubStart (h : HubId) (inp : StartIn) : Statement (.hubStart h inp) := fun _ h => nomatch h
theorem wardenStart (p : Nat) (inp : WardenIn) : Statement (.wardenStart p inp) := fun _ h => nomatch h
theorem refclkLost (h : HubId) : Statement (.refclkLost h) := fun _ h => nomatch h
theorem refclkBack (h : HubId) (outageNs : Nat) : Statement (.refclkBack h outageNs) := fun _ h => nomatch h
theorem powerFailWarn (h : HubId) : Statement (.powerFailWarn h) := fun _ h => nomatch h
theorem powerFlushDone (h : HubId) : Statement (.powerFlushDone h) := fun _ h => nomatch h
theorem powerRideThrough (h : HubId) : Statement (.powerRideThrough h) := fun _ h => nomatch h
theorem hubRailLow (h : HubId) (reading : BitVec 32) : Statement (.hubRailLow h reading) := fun _ h => nomatch h
theorem hubRailOk (h : HubId) (belowNs : Nat) : Statement (.hubRailOk h belowNs) := fun _ h => nomatch h
theorem hubRailCollapse (h : HubId) : Statement (.hubRailCollapse h) := fun _ h => nomatch h
theorem wardenSupplyLoss (p : Nat) : Statement (.wardenSupplyLoss p) := fun _ h => nomatch h
theorem droopWindowOpen (p : Nat) (droop : BitVec 8) (margin : BitVec 32) : Statement (.droopWindowOpen p droop margin) := fun _ h => nomatch h
theorem droopWindow (p : Nat) : Statement (.droopWindow p) := fun _ h => nomatch h
theorem markingEnd (p : Nat) : Statement (.markingEnd p) := fun _ h => nomatch h
theorem powerSensorStuck (p bit : Nat) : Statement (.powerSensorStuck p bit) := fun _ h => nomatch h
theorem stretchNoAck (p : Nat) : Statement (.stretchNoAck p) := fun _ h => nomatch h
theorem droopHoldExpiry (p : Nat) : Statement (.droopHoldExpiry p) := fun _ h => nomatch h
theorem leaseRenewal (h : HubId) (p : Nat) : Statement (.leaseRenewal h p) := fun _ h => nomatch h
theorem leaseLapse (p : Nat) : Statement (.leaseLapse p) := fun _ h => nomatch h
theorem primaryLeaseExpiry (h : HubId) (p : Nat) : Statement (.primaryLeaseExpiry h p) := fun _ h => nomatch h
theorem primacyClaim (h : HubId) (p : Nat) : Statement (.primacyClaim h p) := fun _ h => nomatch h
theorem claimTick (h : HubId) : Statement (.claimTick h) := fun _ h => nomatch h
theorem claimQuorum (h : HubId) : Statement (.claimQuorum h) := fun _ h => nomatch h
theorem claimWithdrawn (h : HubId) : Statement (.claimWithdrawn h) := fun _ h => nomatch h
theorem claimRetry (h : HubId) : Statement (.claimRetry h) := fun _ h => nomatch h
theorem peerProbe (h : HubId) : Statement (.peerProbe h) := fun _ h => nomatch h
theorem hubFailover (h : HubId) (cause : Nat) : Statement (.hubFailover h cause) := fun _ h => nomatch h
theorem peerSecondary (h : HubId) : Statement (.peerSecondary h) := fun _ h => nomatch h
theorem mirrorWrite (h : HubId) : Statement (.mirrorWrite h) := fun _ h => nomatch h
theorem lockstepMasked (h : HubId) (core : Nat) : Statement (.lockstepMasked h core) := fun _ h => nomatch h
theorem veinFlit (node port : Nat) (flit : Flit) : Statement (.veinFlit node port flit) := fun _ h => nomatch h
theorem veinFlitRefused (node port : Nat) (flit : Flit) : Statement (.veinFlitRefused node port flit) := fun _ h => nomatch h
theorem wardenHoldExpired (p : Nat) : Statement (.wardenHoldExpired p) := fun _ h => nomatch h
theorem wardenFailed (p cause : Nat) : Statement (.wardenFailed p cause) := fun _ h => nomatch h
theorem hbeatTick : Statement (.hbeatTick) := fun _ h => nomatch h
theorem sentryLookup (p ch : Nat) (site : BitVec 32) : Statement (.sentryLookup p ch site) := fun _ h => nomatch h
theorem sentryEntryUpdate (p : Nat) (site : BitVec 32) : Statement (.sentryEntryUpdate p site) := fun _ h => nomatch h
theorem sentryBatch (p : Nat) : Statement (.sentryBatch p) := fun _ h => nomatch h
theorem sentrySwitchAck (p : Nat) : Statement (.sentrySwitchAck p) := fun _ h => nomatch h
theorem certificate (p g : Nat) (src : BitVec 15) (epoch : BitVec 32) (cert : BitVec 128) : Statement (.certificate p g src epoch cert) := fun _ h => nomatch h
theorem shadowCertificate (p g : Nat) (src : BitVec 15) (epoch : BitVec 32) (cert : BitVec 128) : Statement (.shadowCertificate p g src epoch cert) := fun _ h => nomatch h
theorem shadowTimeout (p : Nat) (dst : BitVec 15) (tid epoch : BitVec 32) : Statement (.shadowTimeout p dst tid epoch) := fun _ h => nomatch h
theorem certificateLoss (p g : Nat) (epoch : BitVec 32) : Statement (.certificateLoss p g epoch) := fun _ h => nomatch h
theorem engineRecord (p : Nat) (idx : BitVec 7) (epoch : BitVec 32) (rec : BitVec 128) (rows : Nat) : Statement (.engineRecord p idx epoch rec rows) := fun _ h => nomatch h
theorem poisonNotice (p : Nat) (src : BitVec 15) (epoch : BitVec 32) : Statement (.poisonNotice p src epoch) := fun _ h => nomatch h
theorem yieldNotice (p : Nat) (src : BitVec 15) : Statement (.yieldNotice p src) := fun _ h => nomatch h
theorem swapAck (p : Nat) : Statement (.swapAck p) := fun _ h => nomatch h
theorem swapFail (p : Nat) : Statement (.swapFail p) := fun _ h => nomatch h
theorem rotationTimer (p cluster : Nat) : Statement (.rotationTimer p cluster) := fun _ h => nomatch h
theorem spareTestDue (p cluster : Nat) : Statement (.spareTestDue p cluster) := fun _ h => nomatch h
theorem offerPass (p cluster : Nat) : Statement (.offerPass p cluster) := fun _ h => nomatch h
theorem yieldLate (p cluster : Nat) : Statement (.yieldLate p cluster) := fun _ h => nomatch h
theorem testDebt (p : Nat) (src : BitVec 15) : Statement (.testDebt p src) := fun _ h => nomatch h
theorem directedPhaseStart (p : Nat) : Statement (.directedPhaseStart p) := fun _ h => nomatch h
theorem testSliceSignature (p : Nat) (src : BitVec 15) (sig : BitVec 64) : Statement (.testSliceSignature p src sig) := fun _ h => nomatch h
theorem testSliceTimeout (p : Nat) (src : BitVec 15) : Statement (.testSliceTimeout p src) := fun _ h => nomatch h
theorem patternRun (p cluster : Nat) (origin : BitVec 64) (seq : BitVec 32) : Statement (.patternRun p cluster origin seq) := fun _ h => nomatch h
theorem captureAlloc (p ticket : Nat) : Statement (.captureAlloc p ticket) := fun _ h => nomatch h
theorem captureStream (p : Nat) (cid : BitVec 32) (preamble : BitVec 256) (body : List Byte) : Statement (.captureStream p cid preamble body) := fun _ h => nomatch h
theorem quantumEnd (h : HubId) (cell : Nat) : Statement (.quantumEnd h cell) := fun _ h => nomatch h
theorem sampleDone (h : HubId) (cell : Nat) : Statement (.sampleDone h cell) := fun _ h => nomatch h
theorem tstoneCellCheck (h : HubId) (cell lane : Nat) : Statement (.tstoneCellCheck h cell lane) := fun _ h => nomatch h
theorem knownAnswerTestDone (h : HubId) (cell : Nat) (pass : Bool) : Statement (.knownAnswerTestDone h cell pass) := fun _ h => nomatch h
theorem arbitrationLimit (p : Nat) (tid epoch : BitVec 32) : Statement (.arbitrationLimit p tid epoch) := fun _ h => nomatch h
theorem touchstoneVerdict (p : Nat) (cid : BitVec 32) : Statement (.touchstoneVerdict p cid) := fun _ h => nomatch h
theorem kernelLate (cid : BitVec 32) : Statement (.kernelLate cid) := fun _ h => nomatch h
theorem nop (k : CellId) : Statement (.nop k) := fun _ h => by cases h; rfl
theorem halt (k : CellId) : Statement (.halt k) := fun _ h => by cases h; rfl
theorem jmp (k : CellId) (imm : BitVec 32) : Statement (.jmp k imm) := fun _ h => by cases h; rfl
theorem bnz (k : CellId) (a : BitVec 4) (imm : BitVec 32) : Statement (.bnz k a imm) := fun _ h => by cases h; rfl
theorem blt (k : CellId) (a b : BitVec 4) (imm : BitVec 32) : Statement (.blt k a b imm) := fun _ h => by cases h; rfl
theorem djnz (k : CellId) (d : BitVec 4) (imm : BitVec 32) : Statement (.djnz k d imm) := fun _ h => by cases h; rfl
theorem li (k : CellId) (d : BitVec 4) (imm : BitVec 32) : Statement (.li k d imm) := fun _ h => by cases h; rfl
theorem add (k : CellId) (d a b : BitVec 4) : Statement (.add k d a b) := fun _ h => by cases h; rfl
theorem addi (k : CellId) (d a : BitVec 4) (imm : BitVec 32) : Statement (.addi k d a imm) := fun _ h => by cases h; rfl
theorem mul (k : CellId) (d a b : BitVec 4) : Statement (.mul k d a b) := fun _ h => by cases h; rfl
theorem ldx (k : CellId) (d a ty : BitVec 4) (imm : BitVec 32) : Statement (.ldx k d a ty imm) := fun _ h => by cases h; rfl
theorem lclr (k : CellId) : Statement (.lclr k) := fun _ h => by cases h; rfl
theorem lsum (k : CellId) (a b ty : BitVec 4) : Statement (.lsum k a b ty) := fun _ h => by cases h; rfl
theorem lasum (k : CellId) (a b ty : BitVec 4) : Statement (.lasum k a b ty) := fun _ h => by cases h; rfl
theorem lsqsum (k : CellId) (a b ty : BitVec 4) : Statement (.lsqsum k a b ty) := fun _ h => by cases h; rfl
theorem ldot (k : CellId) (a b c ty : BitVec 4) : Statement (.ldot k a b c ty) := fun _ h => by cases h; rfl
theorem merge (k : CellId) (d : BitVec 4) : Statement (.merge k d) := fun _ h => by cases h; rfl
theorem lscan (k : CellId) (d a b c ty : BitVec 4) (imm : BitVec 32) : Statement (.lscan k d a b c ty imm) := fun _ h => by cases h; rfl
theorem mli (k : CellId) (d : BitVec 4) (imm : BitVec 32) : Statement (.mli k d imm) := fun _ h => by cases h; rfl
theorem madd (k : CellId) (d a b : BitVec 4) : Statement (.madd k d a b) := fun _ h => by cases h; rfl
theorem msub (k : CellId) (d a b : BitVec 4) : Statement (.msub k d a b) := fun _ h => by cases h; rfl
theorem mabs (k : CellId) (d a : BitVec 4) : Statement (.mabs k d a) := fun _ h => by cases h; rfl
theorem mtov (k : CellId) (d a : BitVec 4) (rnd : BitVec 2) : Statement (.mtov k d a rnd) := fun _ h => by cases h; rfl
theorem vli (k : CellId) (d : BitVec 4) (imm : BitVec 32) : Statement (.vli k d imm) := fun _ h => by cases h; rfl
theorem vld (k : CellId) (d a ty : BitVec 4) (imm : BitVec 32) : Statement (.vld k d a ty imm) := fun _ h => by cases h; rfl
theorem vadd (k : CellId) (d a b : BitVec 4) (rnd : BitVec 2) : Statement (.vadd k d a b rnd) := fun _ h => by cases h; rfl
theorem vsub (k : CellId) (d a b : BitVec 4) (rnd : BitVec 2) : Statement (.vsub k d a b rnd) := fun _ h => by cases h; rfl
theorem vmul (k : CellId) (d a b : BitVec 4) (rnd : BitVec 2) : Statement (.vmul k d a b rnd) := fun _ h => by cases h; rfl
theorem vfx (k : CellId) (d a : BitVec 4) : Statement (.vfx k d a) := fun _ h => by cases h; rfl
theorem vfn (k : CellId) (d a : BitVec 4) (imm : BitVec 32) : Statement (.vfn k d a imm) := fun _ h => by cases h; rfl
theorem vgam (k : CellId) (d a : BitVec 4) : Statement (.vgam k d a) := fun _ h => by cases h; rfl
theorem ckle (k : CellId) (a b c : BitVec 4) (imm : BitVec 32) : Statement (.ckle k a b c imm) := fun _ h => by cases h; rfl
theorem find (k : CellId) (c : BitVec 4) (imm : BitVec 32) : Statement (.find k c imm) := fun _ h => by cases h; rfl
theorem barrierArrival (p : Nat) (src : BitVec 15) (obj : BitVec 15) (epoch : BitVec 32) : Statement (.barrierArrival p src obj epoch) := fun _ h => nomatch h
theorem primaryArrival (p : Nat) (obj : BitVec 15) (epoch : BitVec 32) : Statement (.primaryArrival p obj epoch) := fun _ h => nomatch h
theorem closeQuery (p : Nat) (obj : BitVec 15) (epoch : BitVec 32) : Statement (.closeQuery p obj epoch) := fun _ h => nomatch h
theorem epochClean (p : Nat) (epoch : BitVec 32) : Statement (.epochClean p epoch) := fun _ h => nomatch h
theorem failureReport (p : Nat) (epoch : BitVec 32) : Statement (.failureReport p epoch) := fun _ h => nomatch h
theorem releaseAck (rsn : Nat) : Statement (.releaseAck rsn) := fun _ h => nomatch h
theorem release (p : Nat) (obj : BitVec 15) : Statement (.release p obj) := fun _ h => nomatch h
theorem tallyClose (p : Nat) (epoch : BitVec 32) : Statement (.tallyClose p epoch) := fun _ h => nomatch h
theorem postAck (p num : Nat) : Statement (.postAck p num) := fun _ h => nomatch h
theorem triageResult (p : Nat) (tid epoch : BitVec 32) : Statement (.triageResult p tid epoch) := fun _ h => nomatch h
theorem clearOrder (p : Nat) (epoch : BitVec 32) : Statement (.clearOrder p epoch) := fun _ h => nomatch h
theorem replayOrder (p : Nat) (obj : BitVec 15) : Statement (.replayOrder p obj) := fun _ h => nomatch h
theorem governorUpdate (deltaNs : Nat) : Statement (.governorUpdate deltaNs) := fun _ h => nomatch h
theorem fractionUpdate (p cluster : Nat) : Statement (.fractionUpdate p cluster) := fun _ h => nomatch h
theorem defectCommit : Statement (.defectCommit) := fun _ h => nomatch h
theorem resetAck (p : Nat) (site : BitVec 15) : Statement (.resetAck p site) := fun _ h => nomatch h
theorem fenceQuiesceEnd (p : Nat) : Statement (.fenceQuiesceEnd p) := fun _ h => nomatch h
theorem memoryFenceAck (p m : Nat) : Statement (.memoryFenceAck p m) := fun _ h => nomatch h
theorem fenceAckTimeout (p m : Nat) : Statement (.fenceAckTimeout p m) := fun _ h => nomatch h
theorem memoryDrained (p m : Nat) : Statement (.memoryDrained p m) := fun _ h => nomatch h
theorem drainTimeout (p m : Nat) : Statement (.drainTimeout p m) := fun _ h => nomatch h
theorem drainStuck (p m : Nat) : Statement (.drainStuck p m) := fun _ h => nomatch h
theorem detourTimeout (p : Nat) : Statement (.detourTimeout p) := fun _ h => nomatch h
theorem transitEmptyWait (p : Nat) : Statement (.transitEmptyWait p) := fun _ h => nomatch h
theorem recoveryFail (p : Nat) : Statement (.recoveryFail p) := fun _ h => nomatch h
theorem bankQuiesceEnd (p bank : Nat) : Statement (.bankQuiesceEnd p bank) := fun _ h => nomatch h
theorem bankIdle (p bank : Nat) : Statement (.bankIdle p bank) := fun _ h => nomatch h
theorem bankOffWait (p bank : Nat) : Statement (.bankOffWait p bank) := fun _ h => nomatch h
theorem memoryPoison (p m : Nat) (page : BitVec 28) (bank : Nat) : Statement (.memoryPoison p m page bank) := fun _ h => nomatch h
theorem keyLoadAck (p m : Nat) : Statement (.keyLoadAck p m) := fun _ h => nomatch h
theorem scrubOrderDone (p m : Nat) (errBank : Option Nat) : Statement (.scrubOrderDone p m errBank) := fun _ h => nomatch h
theorem linkTrainDone (j : Nat) (width : BitVec 2) (lanes : BitVec 8) : Statement (.linkTrainDone j width lanes) := fun _ h => nomatch h
theorem linkTrainTimeout (j : Nat) : Statement (.linkTrainTimeout j) := fun _ h => nomatch h
theorem linkDown (j : Nat) : Statement (.linkDown j) := fun _ h => nomatch h
theorem linkErrorRecord (j : Nat) (kind lane : BitVec 3) (cnt : BitVec 16) : Statement (.linkErrorRecord j kind lane cnt) := fun _ h => nomatch h
theorem selfTestDone (p : Nat) (failEngines failControl : List Nat) : Statement (.selfTestDone p failEngines failControl) := fun _ h => nomatch h
theorem corefwRequest : Statement (.corefwRequest) := fun _ h => nomatch h
theorem corefwDigest (p : Nat) (digest : BitVec 384) : Statement (.corefwDigest p digest) := fun _ h => nomatch h
theorem corefwFail (p : Nat) : Statement (.corefwFail p) := fun _ h => nomatch h
theorem partitionJoin (p : Nat) : Statement (.partitionJoin p) := fun _ h => nomatch h
theorem probationEnd (p : Nat) : Statement (.probationEnd p) := fun _ h => nomatch h
theorem cairnArrival (node : Nat) (stamp : Nat) : Statement (.cairnArrival node stamp) := fun _ h => nomatch h
theorem cairnHaltReport (p : Nat) : Statement (.cairnHaltReport p) := fun _ h => nomatch h
theorem cairnCutTimeout : Statement (.cairnCutTimeout) := fun _ h => nomatch h
theorem scanoutPull (h : HubId) (recs : List (List Byte)) : Statement (.scanoutPull h recs) := fun _ h => nomatch h
theorem cairnResumeOrder (p : Nat) : Statement (.cairnResumeOrder p) := fun _ h => nomatch h
theorem counterTap (p g : Nat) (rec : BitVec 64) : Statement (.counterTap p g rec) := fun _ h => nomatch h
theorem pcSamplePulse (p : Nat) : Statement (.pcSamplePulse p) := fun _ h => nomatch h
theorem pcSample (p g : Nat) (rec : BitVec 64) : Statement (.pcSample p g rec) := fun _ h => nomatch h
theorem pcSampleTimeout (p g : Nat) : Statement (.pcSampleTimeout p g) := fun _ h => nomatch h
theorem controlCoreTrace (p core : Nat) (rec : BitVec 64) : Statement (.controlCoreTrace p core rec) := fun _ h => nomatch h
theorem traceRecord (h : HubId) (p : Nat) : Statement (.traceRecord h p) := fun _ h => nomatch h
theorem traceDrained (h : HubId) : Statement (.traceDrained h) := fun _ h => nomatch h
theorem traceTimepair (h : HubId) : Statement (.traceTimepair h) := fun _ h => nomatch h
theorem veinDropReport (node : Nat) : Statement (.veinDropReport node) := fun _ h => nomatch h
theorem eventRecord (p num : Nat) : Statement (.eventRecord p num) := fun _ h => nomatch h
theorem strataWardenGap (p : Nat) : Statement (.strataWardenGap p) := fun _ h => nomatch h
theorem strataFreezeLimit : Statement (.strataFreezeLimit) := fun _ h => nomatch h
theorem strataTimeCompare : Statement (.strataTimeCompare) := fun _ h => nomatch h
theorem bankPowerOn (p bank : Nat) : Statement (.bankPowerOn p bank) := fun _ h => nomatch h
theorem stretchAckChange (p : Nat) (level : Bool) : Statement (.stretchAckChange p level) := fun _ h => nomatch h
theorem droopInputClear (p : Nat) : Statement (.droopInputClear p) := fun _ h => nomatch h
theorem powerFailWarnRelease (h : HubId) : Statement (.powerFailWarnRelease h) := fun _ h => nomatch h
theorem peerHbToggle (h : HubId) : Statement (.peerHbToggle h) := fun _ h => nomatch h
theorem sntClkRestart (p : Nat) : Statement (.sntClkRestart p) := fun _ h => nomatch h
theorem wardenInteriorStop (p : Nat) : Statement (.wardenInteriorStop p) := fun _ h => nomatch h
theorem captureComplete (cid : BitVec 32) : Statement (.captureComplete cid) := fun _ h => nomatch h
theorem captureGrant (p : Nat) (cid : BitVec 32) : Statement (.captureGrant p cid) := fun _ h => nomatch h
theorem traceFrameSent (h : HubId) (lane : Nat) : Statement (.traceFrameSent h lane) := fun _ h => nomatch h
theorem eventAck (p num : Nat) : Statement (.eventAck p num) := fun _ h => nomatch h
theorem mirrorAck (h : HubId) : Statement (.mirrorAck h) := fun _ h => nomatch h
theorem debugSessionIdle : Statement (.debugSessionIdle) := fun _ h => nomatch h
theorem failureReportAck (p : Nat) (epoch : BitVec 32) : Statement (.failureReportAck p epoch) := fun _ h => nomatch h
theorem traceLossRecordTick (point : Nat) : Statement (.traceLossRecordTick point) := fun _ h => nomatch h

end Sys2Proof.Laws.KernelCells
end

