-- ==== Sys2Proof/Tests/Slice0.lean ====
section
/-! SUPPORT. The author's tests: ill-formed commands are refused, the hypotheses of every statement are met by a concrete state, and one step of some commands. -/

namespace Sys2Proof.Tests
open Sys2Proof Sys2Proof.Machine

set_option Elab.async false

/-! ### Helpers -/

/-- A device that serves: hub A is Sole and holds the lease of every warden; every warden lives, its map in force. -/
def live : State := {
  hubA := { role := .sole, started := true, rstLow := false, leases := (List.range 98).map (fun p => (p, 0)) }
  wardens := (List.range 98).map (fun p => (p, { alive := true, valid := true, lease := some .a }))
  boot := { up := true } }

/-- Hub A of `live`, changed. -/
def withA (f : Hub → Hub) : State := { live with hubA := f live.hubA }
/-- Hub B of `live`, changed. -/
def withB (f : Hub → Hub) : State := { live with hubB := f live.hubB }
/-- `live`, with warden 97 changed. -/
def wd (f : Warden → Warden) : State := { live with wardens := tset live.wardens 97 (f (war live 97)) }

/-- A command packet with its CRC: PARAM as one little-endian number. -/
def cmdOf (q : BitVec 3) (op param : Nat) (pay : List Byte) (flags : BitVec 8) : Packet :=
  let pk : Packet := { queue := q, tag := 7, plen := BitVec.ofNat 16 pay.length, flags, rsv1 := 0, param := BitVec.ofNat 256 param,
                       rsv2 := 0, crc := 0, payload := pay, internal := false }
  { pk with crc := packetCrc op pk }

/-- PARAM byte `i` with a value. -/
def pb (i v : Nat) : Nat := v * 256 ^ i

/-- The checks of order 1 after the CRC. -/
def headRest (row : CmdRow) (pk : Packet) (s : State) : Bool :=
  decide (pk.plen.toNat ≤ 4096) && (match row.plen s pk with | some n => decide (pk.plen.toNat = n) | none => true) &&
  decide (pk.flags >>> 2 = 0) && decide (pk.rsv1 = 0) && decide (pk.rsv2 = 0) && (!isForce pk || row.force) && (!isLast pk || row.pieced)

theorem headFault_none {row : CmdRow} {pk : Packet} {s : State} (hc : pk.crc = packetCrc row.op pk) (h : headRest row pk s = true) :
    headFault row pk s = none := by
  simp only [headRest, Bool.and_eq_true, decide_eq_true_eq, Bool.or_eq_true, Bool.not_eq_true'] at h
  obtain ⟨⟨⟨⟨⟨⟨h1, h2⟩, h3⟩, h4⟩, h5⟩, h6⟩, h7⟩ := h
  have hb : headBad row.op (row.plen s pk) pk = none := by
    unfold headBad
    rw [if_neg (fun h => h hc), if_neg (by omega)]
    cases hh : row.plen s pk with
    | none => simp [h3, h4, h5]
    | some n => rw [hh] at h2; simp [h3, h4, h5]; simpa using h2
  unfold headFault
  rw [hb]
  rcases h6 with h6 | h6 <;> rcases h7 with h7 | h7 <;> simp [h6, h7]

/-- Every clause of `Ready` at hub A, in one value, the CRC apart. -/
def readyAt (row : CmdRow) (pk : Packet) (s : State) : Bool :=
  decide (serving s = some .a) && (List.range 8).all (fun r => decide ((queueOf s r).taken = (queueOf s r).tail)) &&
  decide (((queueOf s pk.queue.toNat).tail - (queueOf s pk.queue.toNat).head).toNat < 16) && sqRoom s pk.queue.toNat &&
  !heldIn s pk.queue.toNat && !slowIn s pk.queue.toNat && (!powerWarn s || quiet row pk) && headRest row pk (took row pk s) &&
  permitted row (callerFor row pk .a s) (took row pk s) && s.cmd.opens.all (fun o => !decide (o.queue = pk.queue.toNat ∧ o.tag = pk.tag)) &&
  (strayParam pk row.named).isNone && decide (openOf s pk.queue.toNat < 8) && !pk.internal

theorem ready_of_readyAt {row : CmdRow} {pk : Packet} {s : State} (hc : pk.crc = packetCrc row.op pk) (h : readyAt row pk s = true) : Ready row pk .a s := by
  simp only [readyAt, Bool.and_eq_true, decide_eq_true_eq, List.all_eq_true, List.mem_range, Bool.not_eq_true', Bool.or_eq_true,
    Option.isNone_iff_eq_none] at h
  obtain ⟨⟨⟨⟨⟨⟨⟨⟨⟨⟨⟨⟨h1, h2⟩, h3⟩, h4⟩, h5⟩, h6⟩, h7⟩, h8⟩, h9⟩, h10⟩, h11⟩, h12⟩, h13⟩ := h
  exact { serves := h1, idle := h2, slot := h3, room := h4, unheld := h5, unslow := h6, power := h7, head := headFault_none hc h8, perm := h9,
          fresh := by rw [List.all_eq_true]; intro o ho; rw [h10 o ho]; rfl, params := h11, opens := h12, sound := h13 }

/-- A packet, a state and a caller that meet every hypothesis of `Performs` for a row and its condition. -/
def Met (row : CmdRow) (pk : Packet) (s : State) (cond : Caller → State → Prop) : Prop :=
  Ready row pk .a s ∧ cond (callerFor row pk .a s) (took row pk s)

theorem met {row : CmdRow} {q : BitVec 3} {param : Nat} {pay : List Byte} {flags : BitVec 8} {s : State} {cond : Caller → State → Prop}
    (h : readyAt row (cmdOf q row.op param pay flags) s = true)
    (hc : cond (callerFor row (cmdOf q row.op param pay flags) .a s) (took row (cmdOf q row.op param pay flags) s)) :
    Met row (cmdOf q row.op param pay flags) s cond := ⟨ready_of_readyAt rfl h, hc⟩


/-! ### Hypotheses of the command statements are met -/

/-- A device with an open debug session. -/
def debugged : State := { live with keys := { dbg := some { num := 1, openAt := 0 } } }

/-- A 64-byte descriptor of zeros that passes R145: format code 2 in and code 0 out. -/
def descBytes : List Byte :=
  let b := leBytes 4 0x200 ++ List.replicate 56 0
  b ++ leBytes 4 (crc32c b).toNat

def kernel5 : Kernel := { tenant := 5, budget := 100, charge := false, inputs := false, code := [], root := [], chargeOk := false }
def attach5 : Attach := { slot := 63, tenant := 5, job := 3, source := 0, k := 0, filter := none }
def result5 : KResult := { cid := 77, verdict := 1, cause := 0, finds := [], isPartial := false, lost := 0, job := 3, tenant := 5, epoch := 0,
                           id := 0, row := 0, slot := 63, att := 127 }

/-- Queue 2 belongs to tenant 5, with job 3, a kernel, an attachment and a result; objects 1, 2 and 32767 are its; contexts 1 and 63 and slot 4 are its. -/
def rented : State := { live with
  cmd := { queues := [(2, { bind := 5 })] }
  sync := { jobs := [(3, 5)], objs := [(1, { type := 1, state := 1, tenant := 5, job := 3 }), (2, { type := 2, state := 1, tenant := 5, job := 3, count := 5 }),
                                       (32767, { type := 3, state := 1, tenant := 5, job := 3 })] }
  tst := { kernels := [(63, kernel5)], attaches := [(127, attach5)], results := [result5] }
  keys := { ctxs := [(1, { tenant := 5, wsrc := 1, wslot := 9 }), (63, { tenant := 5 })], slots := [(4, { filled := true, owner := 5 })] } }

/-- One participant in partition 97. -/
def armPay : List Byte := leBytes 16 (2 ^ 97) ++ leBytes 388 0 ++ leBytes 4 1

def pattern1 : Pattern := { origin := 0, seq := 1, first := 0, count := 1, state := 2, source := 1, image := [], chain := [], sig := [], activeAt := 0 }
def stocked : State := { live with quarry := { index := [(0, pattern1)] } }

def entry16 : BitVec 64 := defEntry (coreSite 0 16) 3 3 4 0 0
def entered : State := { live with defects := { tab := [(0, entry16)] } }

/-- Partition 0 is strapped to links 0 to 7. -/
def linked : State := { live with wardens := [(0, { alive := true, valid := true, linkBase := 0, linkCount := 8 })] }

def scrub5 : Scrub := { tenant := 5, mask := 0, step := 1 }

theorem witness_HubCommands :
    Met hubNopRow (cmdOf 0 0x0101 0 [] 0) live (fun _ _ => True) ∧
    Met hubQbindRow (cmdOf 1 0x0102 (pb 0 7 + pb 1 255) [] 0) live (fun c s => 1 ≤ parB c.pk 0 ∧ parB c.pk 0 ≤ 7 ∧ parB c.pk 0 ≠ c.queue ∧ (queueOf s (parB c.pk 0)).taken = (queueOf s (parB c.pk 0)).tail ∧ openOf s (parB c.pk 0) = 0 ∧ heldIn s (parB c.pk 0) = false) ∧
    Met hubStatusRow (cmdOf 0 0x0103 0 [] 0) live (fun _ _ => True) ∧
    Met hubProfileRow (cmdOf 0 0x0104 (pb 0 3) [] 0) live (fun c s => parB c.pk 0 ≤ 3 ∧ parB c.pk 0 ≠ s.boot.profile.id) ∧
    Met hubDebugRow (cmdOf 0 0x0105 0 [] 0) live (fun c s => parB c.pk 0 = 0 ∧ s.keys.dbg = none) ∧
    Met hubDebugRow (cmdOf 0 0x0105 (pb 0 1) [] 0) debugged (fun c s => parB c.pk 0 = 1 ∧ s.keys.dbg ≠ none) ∧
    Met hubDebugRow (cmdOf 0 0x0105 (pb 0 2) [] 0) live (fun c _ => parB c.pk 0 = 2) ∧
    Met hubCountersRow (cmdOf 0 0x0106 (pb 0 1 + pb 4 (clusterSite 97 512) + pb 8 128) [] 0) live (fun c s => parB c.pk 0 ≤ 4 ∧ okSite s (parN c.pk 4 4) = true ∧ (if parB c.pk 0 ≤ 1 then isClusterSite (parN c.pk 4 4) else isPartSite (parN c.pk 4 4)) = true ∧ (if parB c.pk 0 = 1 then 1 ≤ parN c.pk 8 2 ∧ parN c.pk 8 2 ≤ 128 ∧ siteCluster (parN c.pk 4 4) + parN c.pk 8 2 ≤ 640 else parN c.pk 8 2 = 0) ∧ (c.role = 2 → tenantReads s c.tenant (sitePart (parN c.pk 4 4)) = true)) :=
  ⟨met (by decide +kernel) trivial,
   met (by decide +kernel) (by decide +kernel),
   met (by decide +kernel) trivial,
   met (by decide +kernel) (by decide +kernel),
   met (by decide +kernel) (by decide +kernel),
   met (by decide +kernel) (by decide +kernel),
   met (by decide +kernel) (by decide +kernel),
   met (by decide +kernel) (by decide +kernel)⟩

theorem witness_ScreenCommands :
    Met screenReportRow (cmdOf 0 0x0201 (pb 0 97) [] 0) live (fun c _ => parB c.pk 0 ≤ 97) ∧
    Met screenReportRow (cmdOf 0 0x0201 (pb 0 255) [] 0) live (fun c _ => parB c.pk 0 = 0xFF) ∧
    Met shadowSetRow (cmdOf 1 0x0301 (pb 0 (clusterSite 3 639) + pb 4 32) [] 0) live (fun c s => okSite s (parN c.pk 0 4) = true ∧ isClusterSite (parN c.pk 0 4) = true ∧ isPartSite (parN c.pk 0 4) = false ∧ parB c.pk 4 ≤ 32) ∧
    Met shadowSetRow (cmdOf 1 0x0301 (pb 0 (partSite 97) + pb 4 32) [] 0) live (fun c s => okSite s (parN c.pk 0 4) = true ∧ isPartSite (parN c.pk 0 4) = true ∧ parB c.pk 4 ≤ 32) ∧
    Met shadowGetRow (cmdOf 0 0x0302 (pb 0 (clusterSite 0 0) + pb 4 640) [] 0) live (fun c s => okSite s (parN c.pk 0 4) = true ∧ isClusterSite (parN c.pk 0 4) = true ∧ 1 ≤ parN c.pk 4 2 ∧ parN c.pk 4 2 ≤ 640 ∧ siteCluster (parN c.pk 0 4) + parN c.pk 4 2 ≤ 640) :=
  ⟨met (by decide +kernel) (by decide +kernel),
   met (by decide +kernel) (by decide +kernel),
   met (by decide +kernel) (by decide +kernel),
   met (by decide +kernel) (by decide +kernel),
   met (by decide +kernel) (by decide +kernel)⟩

theorem witness_TouchstoneCommands :
    Met tstoneDescRow (cmdOf 2 0x0401 (pb 0 3 + pb 2 9 + pb 3 1) [] 0) rented (fun c s => parN c.pk 0 2 < 4096 ∧ (c.role = 2 → ownsJob c s (parN c.pk 0 2) = true) ∧ parB c.pk 3 = 1) ∧
    Met tstoneDescRow (cmdOf 2 0x0401 (pb 0 3 + pb 2 9) descBytes 0) rented (fun c s => parN c.pk 0 2 < 4096 ∧ (c.role = 2 → ownsJob c s (parN c.pk 0 2) = true) ∧ parB c.pk 3 = 0 ∧ (parseDesc (payOf c.pk)).isSome = true ∧ s.tst.descs.length < 8192) ∧
    Met tstoneShareRow (cmdOf 0 0x0402 (pb 0 8) [] 0) live (fun c _ => parB c.pk 0 ≤ 8) ∧
    Met tstoneShareRow (cmdOf 0 0x0402 (pb 0 255) [] 0) live (fun c _ => parB c.pk 0 = 0xFF) ∧
    Met tstoneReportRow (cmdOf 0 0x0403 0 [] 0) live (fun _ _ => True) ∧
    Met tstoneKloadRow (cmdOf 2 0x0410 (pb 0 62) [1, 2] 0) rented (fun c s => parB c.pk 0 < 64 ∧ tfind s.tst.kernels (parB c.pk 0) = none ∧ firstPiece 0x0410 (parB c.pk 0) 10464 c s) ∧
    Met tstoneKunloadRow (cmdOf 2 0x0411 (pb 0 63) [] 0) rented (fun c s => parB c.pk 0 < 64 ∧ tfind s.tst.kernels (parB c.pk 0) = some kernel5 ∧ (c.role = 2 → kernel5.tenant = c.tenant)) ∧
    Met tstoneKattachRow (cmdOf 2 0x0412 (pb 0 63 + pb 2 3 + pb 4 5 + pb 5 16 + pb 6 1 + pb 7 255) [] 0) rented (fun c s => parB c.pk 0 < 64 ∧ parN c.pk 2 2 < 4096 ∧ (tfind s.tst.kernels (parB c.pk 0) = some kernel5 ∧ kernel5.tenant = c.tenant) ∧ ownsJob c s (parN c.pk 2 2) = true ∧ parB c.pk 4 ∈ [0, 1, 2, 5] ∧ parB c.pk 5 ≤ 16 ∧ parB c.pk 6 = 1 ∧ (s.tst.attaches.filter (fun a => a.2.slot = parB c.pk 0)).length < 8 ∧ firstKey (fun i => (tfind s.tst.attaches i).isNone) 0 128 = some 0) ∧
    Met tstoneKdetachRow (cmdOf 2 0x0413 (pb 0 127) [] 0) rented (fun c s => parB c.pk 0 < 128 ∧ tfind s.tst.attaches (parB c.pk 0) = some attach5 ∧ (c.role = 2 → attach5.tenant = c.tenant)) ∧
    Met tstoneKresultRow (cmdOf 2 0x0414 (pb 0 77) [] 0) rented (fun c s => s.tst.results.find? (fun r => r.cid = parN c.pk 0 4) = some result5 ∧ (c.role = 2 → result5.tenant = c.tenant)) :=
  ⟨met (by decide +kernel) (by decide +kernel),
   met (by decide +kernel) (by decide +kernel),
   met (by decide +kernel) (by decide +kernel),
   met (by decide +kernel) (by decide +kernel),
   met (by decide +kernel) trivial,
   met (by decide +kernel) ⟨by decide +kernel, by decide +kernel, by decide +kernel, by decide +kernel, by decide +kernel, by decide +kernel⟩,
   met (by decide +kernel) (by decide +kernel),
   met (by decide +kernel) (by decide +kernel),
   met (by decide +kernel) (by decide +kernel),
   met (by decide +kernel) (by decide +kernel)⟩

theorem witness_TestCommands :
    Met testSetRow (cmdOf 0 0x0501 (pb 0 120) [] 0) live (fun c _ => 5 ≤ parB c.pk 0 ∧ parB c.pk 0 ≤ 120) ∧
    Met testRunRow (cmdOf 0 0x0502 (pb 0 (coreSite 0 16)) [] 0) live (fun c s => okSite s (parN c.pk 0 4) = true ∧ coreOrCluster (parN c.pk 0 4) = true ∧ isCoreSite (parN c.pk 0 4) = true) ∧
    Met testRunRow (cmdOf 0 0x0502 (pb 0 (clusterSite 97 639)) [] 0) live (fun c s => okSite s (parN c.pk 0 4) = true ∧ coreOrCluster (parN c.pk 0 4) = true ∧ isCoreSite (parN c.pk 0 4) = false) ∧
    Met testStatusRow (cmdOf 0 0x0503 (pb 0 (clusterSite 97 639)) [] 0) live (fun c s => okSite s (parN c.pk 0 4) = true ∧ isClusterSite (parN c.pk 0 4) = true) ∧
    Met testYieldRow (cmdOf 1 0x0504 (pb 0 4095 + pb 4 3600000) [] 0) live (fun c _ => parN c.pk 0 2 < 4096 ∧ (parN c.pk 4 4 ≤ 3600000 ∨ parN c.pk 4 4 = 0xFFFFFFFF)) ∧
    Met testYieldRow (cmdOf 1 0x0504 (pb 0 4095 + pb 4 0xFFFFFFFF) [] 0) live (fun c _ => parN c.pk 0 2 < 4096 ∧ (parN c.pk 4 4 ≤ 3600000 ∨ parN c.pk 4 4 = 0xFFFFFFFF)) ∧
    Met quarryImportRow (cmdOf 0 0x0601 0 [1, 2] 0) live (firstPiece 0x0601 0 20640) ∧
    Met quarryExportRow (cmdOf 0 0x0602 (pb 8 1) [] 0) stocked (fun c s => patFind s (BitVec.ofNat 64 (parN c.pk 0 8)) (BitVec.ofNat 32 (parN c.pk 8 4)) = some (0, pattern1) ∧ pattern1.state = 2 ∧ pattern1.source = 1 ∧ holdsChain s c.hub (BitVec.ofNat 64 (parN c.pk 0 8)) = true) ∧
    Met quarryListRow (cmdOf 0 0x0603 (pb 0 4095 + pb 2 200) [] 0) live (fun c _ => parN c.pk 0 2 < 4096 ∧ 1 ≤ parB c.pk 2 ∧ parB c.pk 2 ≤ 200) ∧
    Met quarryRetireRow (cmdOf 0 0x0604 (pb 8 1) [] 0) stocked (fun c s => patFind s (BitVec.ofNat 64 (parN c.pk 0 8)) (BitVec.ofNat 32 (parN c.pk 8 4)) = some (0, pattern1) ∧ pattern1.source ≠ 0) :=
  ⟨met (by decide +kernel) (by decide +kernel),
   met (by decide +kernel) (by decide +kernel),
   met (by decide +kernel) (by decide +kernel),
   met (by decide +kernel) (by decide +kernel),
   met (by decide +kernel) (by decide +kernel),
   met (by decide +kernel) (by decide +kernel),
   met (by decide +kernel) ⟨by decide +kernel, by decide +kernel, by decide +kernel, by decide +kernel⟩,
   met (by decide +kernel) (by decide +kernel),
   met (by decide +kernel) (by decide +kernel),
   met (by decide +kernel) (by decide +kernel)⟩

theorem witness_QuarantineCommands :
    Met quarListRow (cmdOf 0 0x0701 (pb 0 32767 + pb 2 400) [] 0) live (fun c _ => parN c.pk 0 2 < 32768 ∧ 1 ≤ parN c.pk 2 2 ∧ parN c.pk 2 2 ≤ 400) ∧
    Met quarStateRow (cmdOf 0 0x0702 (pb 0 1) (leBytes 4 (partSite 97)) 0) live (fun c s => 1 ≤ parN c.pk 0 2 ∧ parN c.pk 0 2 ≤ 256 ∧ (List.range (parN c.pk 0 2)).find? (fun i => !okSite s (fieldAt (payOf c.pk) (4 * i) 4)) = none) ∧
    Met quarSetRow (cmdOf 0 0x0703 (pb 0 (coreSite 0 16) + pb 4 4) [] 0) entered (fun c s => okSite s (parN c.pk 0 4) = true ∧ isHubSite (parN c.pk 0 4) = false ∧ (parB c.pk 4 = 4 ∨ parB c.pk 4 = 5) ∧ defState? s (siteKey (parN c.pk 0 4)) = some (parB c.pk 4)) ∧
    Met quarSetRow (cmdOf 0 0x0703 (pb 0 (coreSite 0 16) + pb 4 5) [] 0) live (fun c s => okSite s (parN c.pk 0 4) = true ∧ isHubSite (parN c.pk 0 4) = false ∧ (parB c.pk 4 = 4 ∨ parB c.pk 4 = 5) ∧ defState? s (siteKey (parN c.pk 0 4)) = none ∧ isCoreSite (siteKey (parN c.pk 0 4)) = true ∧ (coreOf s (sitePart (siteKey (parN c.pk 0 4))) (siteSrc (siteKey (parN c.pk 0 4)))).quarSet = none ∧ (slotOfPos s (sitePart (siteKey (parN c.pk 0 4))) (siteSrc (siteKey (parN c.pk 0 4)) / 32) (siteSrc (siteKey (parN c.pk 0 4)) % 32)) = none) ∧
    Met quarRestoreRow (cmdOf 0 0x0704 (pb 0 (coreSite 0 16)) [] 0) entered (fun c s => okSite s (parN c.pk 0 4) = true ∧ defFind s (siteKey (parN c.pk 0 4)) = some (0, entry16) ∧ noRestore (siteKey (parN c.pk 0 4)) (defKind entry16) (defSt entry16) = false ∧ isCoreSite (siteKey (parN c.pk 0 4)) = true ∧ (coreOf s (sitePart (siteKey (parN c.pk 0 4))) (siteSrc (siteKey (parN c.pk 0 4)))).test = none ∧ harvesting s (sitePart (siteKey (parN c.pk 0 4))) (siteSrc (siteKey (parN c.pk 0 4))) = false ∧ isOpen 0x0704 (siteKey (parN c.pk 0 4)) s = false ∧ partInService s (sitePart (siteKey (parN c.pk 0 4))) = true) :=
  ⟨met (by decide +kernel) (by decide +kernel),
   met (by decide +kernel) (by decide +kernel),
   met (by decide +kernel) (by decide +kernel),
   met (by decide +kernel) (by decide +kernel),
   met (by decide +kernel) (by decide +kernel)⟩

theorem witness_SyncCommands :
    Met syncAllocRow (cmdOf 1 0x0801 (pb 0 3 + pb 2 4095 + pb 4 5) [] 0) live (fun c s => c.role = 1 ∧ 1 ≤ parB c.pk 0 ∧ parB c.pk 0 ≤ 3 ∧ parN c.pk 2 2 < 4096 ∧ firstKey (fun i => decide ((objOf s i).state = 0)) 0 32768 = some 0 ∧ tfind s.sync.jobs (parN c.pk 2 2) = none) ∧
    Met syncArmRow (cmdOf 2 0x0802 (pb 0 1 + pb 4 10 + pb 8 20 + pb 12 1) armPay 0) rented (fun c s => parN c.pk 0 2 < 32768 ∧ (c.role = 2 → (objOf s (parN c.pk 0 2)).tenant = c.tenant) ∧ (objOf s (parN c.pk 0 2)).type = 1 ∧ (objOf s (parN c.pk 0 2)).state = 1 ∧ parN c.pk 4 4 ≤ parN c.pk 8 4 ∧ fieldAt (payOf c.pk) 0 16 < 2 ^ 98 ∧ 1 ≤ (parts.map (armCount (payOf c.pk))).sum ∧ (parts.map (armCount (payOf c.pk))).sum ≤ 1003912 ∧ rangeMeets s (parN c.pk 0 2) (parN c.pk 4 4) (parN c.pk 8 4) = false ∧ (∀ p ∈ parts, armCount (payOf c.pk) p = 0 ∨ partInService s p = true)) ∧
    Met syncFreeRow (cmdOf 2 0x0803 (pb 0 1) [] 0) rented (fun c s => parN c.pk 0 2 < 32768 ∧ (c.role = 2 → (objOf s (parN c.pk 0 2)).tenant = c.tenant) ∧ (objOf s (parN c.pk 0 2)).type ≠ 0 ∧ ((objOf s (parN c.pk 0 2)).type = 1 → (objOf s (parN c.pk 0 2)).state = 1 ∨ (objOf s (parN c.pk 0 2)).state = 4)) ∧
    Met syncSignalRow (cmdOf 2 0x0804 (pb 0 2 + pb 4 0xFFFFFFFA) [] 0) rented (fun c s => parN c.pk 0 2 < 32768 ∧ (c.role = 2 → (objOf s (parN c.pk 0 2)).tenant = c.tenant) ∧ (objOf s (parN c.pk 0 2)).type = 2 ∧ (objOf s (parN c.pk 0 2)).state ≠ 4 ∧ (objOf s (parN c.pk 0 2)).count + parN c.pk 4 4 ≤ 4294967295) ∧
    Met syncSignalRow (cmdOf 2 0x0804 (pb 0 2 + pb 4 0xFFFFFFFB) [] 0) rented (fun c s => parN c.pk 0 2 < 32768 ∧ (c.role = 2 → (objOf s (parN c.pk 0 2)).tenant = c.tenant) ∧ (objOf s (parN c.pk 0 2)).type = 2 ∧ (objOf s (parN c.pk 0 2)).state ≠ 4 ∧ 4294967295 < (objOf s (parN c.pk 0 2)).count + parN c.pk 4 4) ∧
    Met syncSignalRow (cmdOf 2 0x0804 (pb 0 32767 + pb 4 1) [] 0) rented (fun c s => parN c.pk 0 2 < 32768 ∧ (c.role = 2 → (objOf s (parN c.pk 0 2)).tenant = c.tenant) ∧ (objOf s (parN c.pk 0 2)).type = 3 ∧ (objOf s (parN c.pk 0 2)).state ≠ 4 ∧ parN c.pk 4 4 ≠ 0) ∧
    Met syncTakeRow (cmdOf 2 0x0805 (pb 0 2 + pb 4 5) [] 0) rented (fun c s => parN c.pk 0 2 < 32768 ∧ (c.role = 2 → (objOf s (parN c.pk 0 2)).tenant = c.tenant) ∧ (objOf s (parN c.pk 0 2)).type = 2 ∧ (objOf s (parN c.pk 0 2)).state ≠ 4 ∧ 1 ≤ parN c.pk 4 4 ∧ parN c.pk 4 4 ≤ (objOf s (parN c.pk 0 2)).count) ∧
    Met syncQueryRow (cmdOf 0 0x0806 (pb 0 32767 + pb 2 60) [] 0) live (fun c _ => c.role ≠ 2 ∧ parN c.pk 0 2 < 32768 ∧ 1 ≤ parB c.pk 2 ∧ parB c.pk 2 ≤ 60) ∧
    Met syncJobendRow (cmdOf 2 0x0807 (pb 0 3) [] 0) rented (fun c s => ownsJob c s (parN c.pk 0 2 % 4096) = true ∧ parN c.pk 0 2 < 4096) :=
  ⟨met (by decide +kernel) (by decide +kernel),
   met (by decide +kernel) (by decide +kernel),
   met (by decide +kernel) (by decide +kernel),
   met (by decide +kernel) (by decide +kernel),
   met (by decide +kernel) (by decide +kernel),
   met (by decide +kernel) (by decide +kernel),
   met (by decide +kernel) (by decide +kernel),
   met (by decide +kernel) (by decide +kernel),
   met (by decide +kernel) (by decide +kernel)⟩

theorem witness_FenceCommands :
    Met fenceResetRow (cmdOf 1 0x0901 (pb 0 (partSite 97) + pb 4 3) [] 0) live (fun c s => (parB c.pk 4 = 2 ∨ parB c.pk 4 = 3) ∧ okSite s (parN c.pk 0 4) = true ∧ levelSite (parB c.pk 4) (parN c.pk 0 4) = true ∧ partBarred s (sitePart (parN c.pk 0 4)) = false ∧ (isForce c.pk = true ∨ jobsOn s (sitePart (parN c.pk 0 4)) = []) ∧ inReset s (parB c.pk 4) (parN c.pk 0 4) = false ∧ (resetOf s (sitePart (parN c.pk 0 4))).barred = false) ∧
    Met fenceResetRow (cmdOf 1 0x0901 (pb 0 (clusterSite 97 639) + pb 4 1) [] 0) live (fun c s => parB c.pk 4 ≤ 1 ∧ okSite s (parN c.pk 0 4) = true ∧ levelSite (parB c.pk 4) (parN c.pk 0 4) = true ∧ (isForce c.pk = true ∨ domainEpochs s (parN c.pk 0 4) = []) ∧ partInService s (sitePart (parN c.pk 0 4)) = true ∧ inReset s (parB c.pk 4) (parN c.pk 0 4) = false) ∧
    Met fenceResetRow (cmdOf 1 0x0901 (pb 4 4) [] 0) live (fun c s => parB c.pk 4 = 4 ∧ parN c.pk 0 4 = 0 ∧ s.boot.wafReset = 0 ∧ parts.any (fun p => (war s p).alive) = true) ∧
    Met fenceDetourRow (cmdOf 1 0x0902 (pb 0 97) [] 0) ({ live with boot := { up := true, detour := [97] } } : State) (fun c s => parB c.pk 0 ∈ s.boot.detour) ∧
    Met fenceStatusRow (cmdOf 0 0x0903 0 [] 0) live (fun _ _ => True) ∧
    Met fenceRestoreRow (cmdOf 0 0x0904 0 [] 0) ({ live with boot := { up := true, device := 1 } } : State) (fun _ s => s.boot.device = 1) :=
  ⟨met (by decide +kernel) (by decide +kernel),
   met (by decide +kernel) (by decide +kernel),
   met (by decide +kernel) (by decide +kernel),
   met (by decide +kernel) (by decide +kernel),
   met (by decide +kernel) trivial,
   met (by decide +kernel) (by decide +kernel)⟩

theorem witness_BootCommands :
    Met bootCorefwRow (cmdOf 1 0x0A01 0 [1, 2] 0) live (firstPiece 0x0A01 0 4324) ∧
    Met bootFwloadRow (cmdOf 0 0x0A04 0 [1, 2] 0) live (firstPiece 0x0A04 0 1048576) ∧
    Met bootCheckRow (cmdOf 0 0x0A02 (pb 0 (2 ^ 98 - 1)) [] 0) live (fun c _ => maskStray c.pk 0 = none) ∧
    Met bootStatusRow (cmdOf 0 0x0A03 0 [] 0) live (fun _ _ => True) ∧
    Met linkTrainRow (cmdOf 0 0x1101 (pb 0 (linkSite 0 0) + pb 4 3) [] 0) linked (fun c s => okSite s (parN c.pk 0 4) = true ∧ isLinkSite (parN c.pk 0 4) = true ∧ strapsOk s (sitePart (parN c.pk 0 4)) = true ∧ s.keys.variant.links.getLsbD (globalLink s (sitePart (parN c.pk 0 4)) (siteIdx (parN c.pk 0 4) / 16)) = true ∧ 1 ≤ parB c.pk 4 ∧ parB c.pk 4 ≤ 3 ∧ (lnk s (globalLink s (sitePart (parN c.pk 0 4)) (siteIdx (parN c.pk 0 4) / 16))).trainReq = false ∧ partInService s (sitePart (parN c.pk 0 4)) = true) ∧
    Met linkStatusRow (cmdOf 0 0x1102 0 [] 0) live (fun _ _ => True) :=
  ⟨met (by decide +kernel) ⟨by decide +kernel, by decide +kernel, by decide +kernel, by decide +kernel⟩,
   met (by decide +kernel) ⟨by decide +kernel, by decide +kernel, by decide +kernel, by decide +kernel⟩,
   met (by decide +kernel) (by decide +kernel),
   met (by decide +kernel) trivial,
   met (by decide +kernel) (by decide +kernel),
   met (by decide +kernel) trivial⟩

theorem witness_KeyCommands :
    Met keyIdRow (cmdOf 0 0x0B01 0 [] 0) live (fun c s => parB c.pk 0 ≤ 1 ∧ parN c.pk 4 4 ≤ (keyIdObject s (if parB c.pk 0 = 1 then .b else .a)).length ∧ (hubOf s (if parB c.pk 0 = 1 then .b else .a)).role ≠ .down) ∧
    Met keyAttestRow (cmdOf 0 0x0B02 (2 ^ 256 - 1) [] 0) live (fun _ _ => True) ∧
    Met keyAssignRow (cmdOf 1 0x0B03 (pb 0 63 + pb 1 255) [] 0) live (fun c s => 1 ≤ parB c.pk 0 ∧ parB c.pk 0 < 64 ∧ 1 ≤ parB c.pk 1 ∧ (ctxOf s (parB c.pk 0)).state = 0 ∧ (ctxOf s (parB c.pk 0)).tenant = 0) ∧
    Met keyRotateRow (cmdOf 2 0x0B04 (pb 0 63) [] 0) rented (fun c s => parB c.pk 0 < 64 ∧ (c.role = 2 → (ctxOf s (parB c.pk 0)).tenant = c.tenant) ∧ (ctxOf s (parB c.pk 0)).state = 0 ∧ (ctxOf s (parB c.pk 0)).wsrc = 0 ∧ (isForce c.pk = true ∨ changeWaits s = false)) ∧
    Met keyUnbindRow (cmdOf 2 0x0B07 (pb 0 1) [] 0) rented (fun c s => parB c.pk 0 < 64 ∧ (c.role = 2 → (ctxOf s (parB c.pk 0)).tenant = c.tenant) ∧ (ctxOf s (parB c.pk 0)).state = 0 ∧ (ctxOf s (parB c.pk 0)).wsrc = 1 ∧ (isForce c.pk = true ∨ changeWaits s = false)) ∧
    Met keyUnwrapRow (cmdOf 2 0x0B05 (pb 0 255) [1, 2] 0) rented (fun c s => parN c.pk 0 2 < s.keys.keySlots ∧ (slotOf s (parN c.pk 0 2)).filled = false ∧ firstPiece 0x0B05 (parN c.pk 0 2) 12640 c s) ∧
    Met keyBindRow (cmdOf 2 0x0B06 (pb 0 4 + pb 2 63) [] 0) rented (fun c s => parN c.pk 0 2 < s.keys.keySlots ∧ parB c.pk 2 < 64 ∧ (c.role = 2 → (ctxOf s (parB c.pk 2)).tenant = c.tenant ∧ (slotOf s (parN c.pk 0 2)).owner = c.tenant) ∧ (c.role ≠ 2 → (slotOf s (parN c.pk 0 2)).owner = 0 ∧ (ctxOf s (parB c.pk 2)).tenant = 0) ∧ (slotOf s (parN c.pk 0 2)).filled = true ∧ (slotOf s (parN c.pk 0 2)).oneSided = false ∧ (ctxOf s (parB c.pk 2)).state = 0 ∧ (ctxOf s (parB c.pk 2)).wsrc = 0 ∧ (isForce c.pk = true ∨ changeWaits s = false)) ∧
    Met keySlotfreeRow (cmdOf 2 0x0B08 (pb 0 4) [] 0) rented (fun c s => parN c.pk 0 2 < s.keys.keySlots ∧ (c.role = 2 → (slotOf s (parN c.pk 0 2)).filled = true ∧ (slotOf s (parN c.pk 0 2)).owner = c.tenant) ∧ namesSlot s (parN c.pk 0 2) = []) ∧
    Met keyVariantRow (cmdOf 0 0x0B0A 0 [1, 2] 0) live (firstPiece 0x0B0A 0 4260) ∧
    Met keyTrootRow (cmdOf 0 0x0B09 (pb 1 5 + pb 2 3) (List.replicate 97 1) 0) live (fun c s => parB c.pk 0 = 0 ∧ 1 ≤ parB c.pk 1 ∧ parB c.pk 2 ≤ 3 ∧ s.keys.roots.length < 256 ∧ (s.keys.roots.filter (fun r => decide (r.tenant = parB c.pk 1))).length < 4) ∧
    Met keyStatusRow (cmdOf 0 0x0B0B 0 [] 0) live (fun c _ => parB c.pk 0 = 0) ∧
    Met keyStatusRow (cmdOf 0 0x0B0B (pb 0 1 + pb 1 97) [] 0) live (fun c _ => parB c.pk 0 = 1 ∧ parB c.pk 1 < 98) :=
  ⟨met (by decide +kernel) (by decide +kernel),
   met (by decide +kernel) trivial,
   met (by decide +kernel) (by decide +kernel),
   met (by decide +kernel) (by decide +kernel),
   met (by decide +kernel) (by decide +kernel),
   met (by decide +kernel) ⟨by decide +kernel, by decide +kernel, by decide +kernel, by decide +kernel, by decide +kernel, by decide +kernel⟩,
   met (by decide +kernel) (by decide +kernel),
   met (by decide +kernel) (by decide +kernel),
   met (by decide +kernel) ⟨by decide +kernel, by decide +kernel, by decide +kernel, by decide +kernel⟩,
   met (by decide +kernel) (by decide +kernel),
   met (by decide +kernel) (by decide +kernel),
   met (by decide +kernel) (by decide +kernel)⟩

theorem witness_ScrubTraceStopCommands :
    Met scrubTenantRow (cmdOf 1 0x0C01 (pb 0 5 + pb 16 (2 ^ 98 - 1)) [] 0) live (fun c s => 1 ≤ parB c.pk 0 ∧ maskStray c.pk 16 = none ∧ underScrub s (parB c.pk 0) = false ∧ (isForce c.pk = true ∨ (liveJobs s (fun x => decide (tfind s.sync.jobs x.job = some (parB c.pk 0))) = [] ∧ (ctxsOf s (parB c.pk 0) = [] ∨ changeWaits s = false)))) ∧
    Met scrubStatusRow (cmdOf 1 0x0C02 (pb 0 5) [] 0) live (fun c s => 1 ≤ parB c.pk 0 ∧ s.keys.scrubs.find? (fun x => x.tenant = parB c.pk 0) = none) ∧
    Met scrubStatusRow (cmdOf 1 0x0C02 (pb 0 5) [] 0) ({ live with keys := { scrubs := [scrub5] } } : State) (fun c s => 1 ≤ parB c.pk 0 ∧ s.keys.scrubs.find? (fun x => x.tenant = parB c.pk 0) = some scrub5) ∧
    Met traceSetRow (cmdOf 0 0x0D01 (pb 0 1 + pb 1 1 + pb 2 7 + pb 3 15 + pb 4 16777216 + pb 8 3 + pb 16 (2 ^ 98 - 1)) [] 0) debugged (fun c _ => parB c.pk 0 ≤ 1 ∧ parB c.pk 1 ≤ 1 ∧ parB c.pk 2 ≤ 7 ∧ parB c.pk 3 ≤ 15 ∧ 1024 ≤ parN c.pk 4 4 ∧ parN c.pk 4 4 ≤ 16777216 ∧ parB c.pk 8 ≤ 3 ∧ maskStray c.pk 16 = none) ∧
    Met traceArmRow (cmdOf 0 0x0D02 (pb 0 15 + pb 1 7 + pb 6 3) [] 0) debugged (fun c _ => parB c.pk 0 ≤ 15 ∧ parB c.pk 1 ≤ 7 ∧ parB c.pk 6 ≤ 3) ∧
    Met traceTriggerRow (cmdOf 0 0x0D03 0 [] 0) debugged (fun _ _ => True) ∧
    Met traceStatusRow (cmdOf 0 0x0D04 0 [] 0) debugged (fun _ _ => True) ∧
    Met stopIssueRow (cmdOf 0 0x0E01 0 [] 0) debugged (fun c s => parB c.pk 0 = 0 ∧ parN c.pk 2 2 = 0 ∧ s.cairn.state = 0) ∧
    Met stopArmRow (cmdOf 0 0x0E02 (pb 0 1 + pb 2 0xFFFF) [] 0) debugged (fun c _ => parB c.pk 0 ≤ 1 ∧ parB c.pk 1 = 0 ∧ parN c.pk 6 2 = 0) ∧
    Met stopResumeRow (cmdOf 0 0x0E03 0 [] 0) ({ debugged with cairn := { state := 2 } } : State) (fun c s => parB c.pk 0 ≤ 1 ∧ (s.cairn.state = 2 ∨ (s.cairn.state = 3 ∧ parB c.pk 0 = 1))) ∧
    Met stopResumeRow (cmdOf 0 0x0E03 (pb 0 1) [] 0) ({ debugged with cairn := { state := 3 } } : State) (fun c s => parB c.pk 0 ≤ 1 ∧ (s.cairn.state = 2 ∨ (s.cairn.state = 3 ∧ parB c.pk 0 = 1))) ∧
    Met stopStatusRow (cmdOf 0 0x0E04 0 [] 0) debugged (fun _ _ => True) :=
  ⟨met (by decide +kernel) (by decide +kernel),
   met (by decide +kernel) (by decide +kernel),
   met (by decide +kernel) (by decide +kernel),
   met (by decide +kernel) (by decide +kernel),
   met (by decide +kernel) (by decide +kernel),
   met (by decide +kernel) trivial,
   met (by decide +kernel) trivial,
   met (by decide +kernel) (by decide +kernel),
   met (by decide +kernel) (by decide +kernel),
   met (by decide +kernel) (by decide +kernel),
   met (by decide +kernel) (by decide +kernel),
   met (by decide +kernel) trivial⟩

theorem witness_StrataPowerCommands :
    Met strataStatusRow (cmdOf 0 0x0F01 0 [] 0) live (fun _ _ => True) ∧
    Met strataReadRow (cmdOf 0 0x0F02 (pb 0 1 + pb 1 60 + pb 2 4) [] 0) live (fun c _ => parB c.pk 0 ≤ 1 ∧ 1 ≤ parB c.pk 1 ∧ parB c.pk 1 ≤ 60 ∧ parB c.pk 2 ≤ 4) ∧
    Met strataFreezeRow (cmdOf 0 0x0F03 0 [] 0) live (fun _ s => s.strata.frozen = false) ∧
    Met strataUnfreezeRow (cmdOf 0 0x0F04 0 [] 0) live (fun _ _ => True) ∧
    Met strataTimepairRow (cmdOf 0 0x0F05 (pb 0 1) [] 0) live (fun c s => parN c.pk 8 8 ≤ now s) ∧
    Met strataCodesRow (cmdOf 0 0x0F06 (pb 2 200) [] 0) live (fun c _ => 1 ≤ parB c.pk 2 ∧ parB c.pk 2 ≤ 200) ∧
    Met powerStatusRow (cmdOf 0 0x1001 0 [] 0) live (fun _ _ => True) ∧
    Met powerMaskRow (cmdOf 0 0x1002 (pb 0 (inputSite 97 39) + pb 4 1) [] 0) live (fun c s => okSite s (parN c.pk 0 4) = true ∧ isInputSite (parN c.pk 0 4) = true ∧ parB c.pk 4 ≤ 1) ∧
    Met powerBankRow (cmdOf 0 0x1003 (pb 0 (bankSite 97 127) + pb 4 1) [] 0) live (fun c s => okSite s (parN c.pk 0 4) = true ∧ isBankSite (parN c.pk 0 4) = true ∧ defState? s (parN c.pk 0 4) ≠ some 5 ∧ (war s (sitePart (parN c.pk 0 4))).bankOff.any (fun b => b.bank = siteIdx (parN c.pk 0 4)) = false ∧ hearsPart s (sitePart (parN c.pk 0 4)) = true ∧ parB c.pk 4 = 1) ∧
    Met powerBankRow (cmdOf 0 0x1003 (pb 0 (bankSite 0 0)) [] 0) ({ live with wardens := [(0, { alive := true, valid := true, ch0 := { bankEn := 1 } })] } : State) (fun c s => okSite s (parN c.pk 0 4) = true ∧ isBankSite (parN c.pk 0 4) = true ∧ defState? s (parN c.pk 0 4) ≠ some 5 ∧ (war s (sitePart (parN c.pk 0 4))).bankOff.any (fun b => b.bank = siteIdx (parN c.pk 0 4)) = false ∧ hearsPart s (sitePart (parN c.pk 0 4)) = true ∧ parB c.pk 4 = 0 ∧ (chanOf s (2 * sitePart (parN c.pk 0 4) + siteIdx (parN c.pk 0 4) / 64)).bankEn.getLsbD (siteIdx (parN c.pk 0 4) % 64) = true) :=
  ⟨met (by decide +kernel) trivial,
   met (by decide +kernel) (by decide +kernel),
   met (by decide +kernel) (by decide +kernel),
   met (by decide +kernel) trivial,
   met (by decide +kernel) (by decide +kernel),
   met (by decide +kernel) (by decide +kernel),
   met (by decide +kernel) trivial,
   met (by decide +kernel) (by decide +kernel),
   met (by decide +kernel) (by decide +kernel),
   met (by decide +kernel) (by decide +kernel)⟩


/-! ### Hypotheses of the kernel statements are met -/

/-- The cell of the samples: cell 15 of hub B. -/
abbrev kc : CellId := ⟨.b, 15⟩

/-- An instruction word, field by field as Table 7.2 lays them out. -/
def kword (op d a b c ty rnd imm : Nat) : BitVec 64 :=
  BitVec.ofNat 64 (op * 2 ^ 56 + d * 2 ^ 52 + a * 2 ^ 48 + b * 2 ^ 44 + c * 2 ^ 40 + ty * 2 ^ 36 + rnd * 2 ^ 34 + imm)

/-- Cell 15 of hub B runs a kernel sample with this state, on a capture whose body has 64 bytes; 16 words of its kernel are `w`. -/
def sampled (w : BitVec 64) (ks : KState) (d : Option Desc) : State := { live with tst := {
  cells := [(31, { work := some { cid := 9, cls := 2, tenant := 5, k := ks, desc := d } })]
  caps := [(9, { stage := 5, kind := 5, hub := .b, slot := 63, body := leBytes 64 0 })]
  kernels := [(63, { kernel5 with code := List.replicate 16 w })] } }

/-- A descriptor for bounds: format code 2 in, code 0 out. -/
def boundDesc : Desc := { kind := 0, fmta := 2, fmtb := 2, out := 0, acc := 0, prd := false, ftzi := false, ftz := false, bias := false, sat := false, l := 0,
                          tree := 0, xr := 0, ef := 0, rqs := 0, rqr := 0, rqw := 0, eps := 0 }

/-- The cell runs a sample whose next instruction is `i`, at the word `w`, and it meets a condition on its capture bytes and its state. -/
def SMet (i : Instr) (w : BitVec 64) (ks : KState) (d : Option Desc) (pre : KCtx → KState → Prop) : Prop :=
  ∃ c k b, kSample (sampled w ks d) kc i = some (c, k, b) ∧ pre c k

def sampleCtx (_ks : KState) (d : Option Desc) : KCtx := { buf := capBytes 9 { stage := 5, kind := 5, hub := .b, slot := 63, body := leBytes 64 0 }, desc := d, free := 0 }

theorem smet {i : Instr} {w : BitVec 64} {ks : KState} {d : Option Desc} {pre : KCtx → KState → Prop} (hw : kDecode kc w = some i) (h : ks.status = .running)
    (hpc : ks.pc = 0) (hp : pre (sampleCtx ks d) ks) : SMet i w ks d pre := by
  refine ⟨sampleCtx ks d, ks, 100, ?_, hp⟩
  have hk : (kWord (sampled w ks d) 63 ks.pc).bind (kDecode kc) = some i := by rw [hpc]; exact hw
  have hr : kRunning (sampled w ks d) kc i = some (9, { stage := 5, kind := 5, hub := .b, slot := 63, body := leBytes 64 0 }, ks, 100) := by
    show (if 15 < 16 ∧ 2 = 2 ∧ ks.status = .running then
      (if (kWord (sampled w ks d) 63 ks.pc).bind (kDecode kc) = some i then some (9, _, ks, 100) else none) else none) = _
    rw [if_pos ⟨by decide, rfl, h⟩, if_pos hk]
  unfold kSample
  rw [hr]
  rfl

/-- X1 is 120 and X2 is 1; X3 is far outside the buffer. -/
def kregs : KState := { x := [(1, 120), (2, 1), (3, 0xFFFFFFFFFFFFFFF8)] }

theorem witness_KernelIntegers :
    SMet (.nop kc) (kword 0x00 0 0 0 0 0 0 0) {} none kAny ∧ SMet (.halt kc) (kword 0x01 0 0 0 0 0 0 0) {} none kAny ∧
    SMet (.jmp kc 1023) (kword 0x02 0 0 0 0 0 0 1023) {} none kAny ∧ SMet (.bnz kc 15 1023) (kword 0x03 0 15 0 0 0 0 1023) {} none kAny ∧
    SMet (.blt kc 15 14 1023) (kword 0x04 0 15 14 0 0 0 1023) {} none kAny ∧ SMet (.djnz kc 15 1023) (kword 0x05 15 0 0 0 0 0 1023) {} none kAny ∧
    SMet (.li kc 15 0x80000000) (kword 0x10 15 0 0 0 0 0 0x80000000) {} none kAny ∧ SMet (.add kc 15 14 13) (kword 0x11 15 14 13 0 0 0 0) {} none kAny ∧
    SMet (.addi kc 15 14 0x80000000) (kword 0x12 15 14 0 0 0 0 0x80000000) {} none kAny ∧ SMet (.mul kc 15 14 13) (kword 0x13 15 14 13 0 0 0 0) {} none kAny := by
  refine ⟨?_, ?_, ?_, ?_, ?_, ?_, ?_, ?_, ?_, ?_⟩ <;> exact smet (by decide +kernel) rfl rfl trivial

theorem witness_KernelLoads :
    SMet (.ldx kc 1 1 3 0) (kword 0x14 1 1 0 0 3 0 0) kregs none (fun c ks => kReadable c (kAddr ks 1 0) (2 ^ 3) 1 = true) ∧
    SMet (.vld kc 1 1 8 0) (kword 0x41 1 1 0 0 8 0 0) kregs none (fun c ks => kReadable c (kAddr ks 1 0) (tySize 8) 1 = true) :=
  ⟨smet (by decide +kernel) rfl rfl (by decide +kernel), smet (by decide +kernel) rfl rfl (by decide +kernel)⟩

theorem witness_KernelTraps :
    SMet (.ldx kc 1 1 3 8) (kword 0x14 1 1 0 0 3 0 8) kregs none (fun c ks => kReadable c (kAddr ks 1 8) (2 ^ 3) 1 = false) ∧
    SMet (.vld kc 1 1 8 1) (kword 0x41 1 1 0 0 8 0 1) kregs none (fun c ks => kReadable c (kAddr ks 1 1) (tySize 8) 1 = false) ∧
    SMet (.lsum kc 3 2 0) (kword 0x21 0 3 2 0 0 0 0) kregs none (fun c ks => xRead ks 2 ≠ 0 ∧ kReadable c (xRead ks 3).toNat (tySize 0) (xRead ks 2).toNat = false) ∧
    SMet (.lasum kc 3 2 0) (kword 0x22 0 3 2 0 0 0 0) kregs none (fun c ks => xRead ks 2 ≠ 0 ∧ kReadable c (xRead ks 3).toNat (tySize 0) (xRead ks 2).toNat = false) ∧
    SMet (.lsqsum kc 3 2 0) (kword 0x23 0 3 2 0 0 0 0) kregs none (fun c ks => xRead ks 2 ≠ 0 ∧ kReadable c (xRead ks 3).toNat (tySize 0) (xRead ks 2).toNat = false) ∧
    SMet (.ldot kc 1 2 3 0) (kword 0x24 0 1 2 3 0 0 0) kregs none (fun c ks => xRead ks 2 ≠ 0 ∧
      (kReadable c (xRead ks 1).toNat (tySize 0) (xRead ks 2).toNat = false ∨ kReadable c (xRead ks 3).toNat (tySize 0) (xRead ks 2).toNat = false)) ∧
    SMet (.lscan kc 1 3 2 1 0 7) (kword 0x26 1 3 2 1 0 0 7) kregs none (fun c ks => xRead ks 2 ≠ 0 ∧ kReadable c (xRead ks 3).toNat (tySize 0) (xRead ks 2).toNat = false) ∧
    SMet (.vgam kc 1 3) (kword 0x47 1 3 0 0 0 0 0) kregs none (fun c ks => c.desc = none ∨ (∃ ds, c.desc = some ds ∧ xRead ks 3 ≠ 0 ∧ boundG ds (xRead ks 3).toNat = none)) ∧
    SMet (.vgam kc 1 3) (kword 0x47 1 3 0 0 0 0 0) kregs (some boundDesc) (fun c ks => c.desc = none ∨ (∃ ds, c.desc = some ds ∧ xRead ks 3 ≠ 0 ∧ boundG ds (xRead ks 3).toNat = none)) :=
  ⟨smet (by decide +kernel) rfl rfl (by decide +kernel), smet (by decide +kernel) rfl rfl (by decide +kernel), smet (by decide +kernel) rfl rfl (by decide +kernel),
   smet (by decide +kernel) rfl rfl (by decide +kernel), smet (by decide +kernel) rfl rfl (by decide +kernel), smet (by decide +kernel) rfl rfl (by decide +kernel),
   smet (by decide +kernel) rfl rfl (by decide +kernel), smet (by decide +kernel) rfl rfl (.inl rfl),
   smet (by decide +kernel) rfl rfl (.inr ⟨boundDesc, rfl, by decide +kernel, by decide +kernel⟩)⟩

theorem witness_KernelLanes :
    SMet (.lclr kc) (kword 0x20 0 0 0 0 0 0 0) kregs none kAny ∧
    SMet (.lsum kc 3 4 8) (kword 0x21 0 3 4 0 8 0 0) kregs none (fun c ks => xRead ks 4 = 0 ∨ kReadable c (xRead ks 3).toNat (tySize 8) (xRead ks 4).toNat = true) ∧
    SMet (.lasum kc 1 2 8) (kword 0x22 0 1 2 0 8 0 0) kregs none (fun c ks => xRead ks 2 = 0 ∨ kReadable c (xRead ks 1).toNat (tySize 8) (xRead ks 2).toNat = true) ∧
    SMet (.lsqsum kc 1 2 8) (kword 0x23 0 1 2 0 8 0 0) kregs none (fun c ks => xRead ks 2 = 0 ∨ kReadable c (xRead ks 1).toNat (tySize 8) (xRead ks 2).toNat = true) ∧
    SMet (.ldot kc 1 2 0 0) (kword 0x24 0 1 2 0 0 0 0) kregs none (fun c ks => xRead ks 2 = 0 ∨ (kReadable c (xRead ks 1).toNat (tySize 0) (xRead ks 2).toNat = true ∧
      kReadable c (xRead ks 0).toNat (tySize 0) (xRead ks 2).toNat = true)) ∧
    SMet (.merge kc 3) (kword 0x25 3 0 0 0 0 0 0) kregs none (fun _ ks => kFits (laneTotal ks)) :=
  ⟨smet (by decide +kernel) rfl rfl trivial, smet (by decide +kernel) rfl rfl (.inl (by decide +kernel)), smet (by decide +kernel) rfl rfl (.inr (by decide +kernel)),
   smet (by decide +kernel) rfl rfl (.inr (by decide +kernel)), smet (by decide +kernel) rfl rfl (.inr (by decide +kernel)),
   smet (by decide +kernel) rfl rfl (by unfold kFits; decide +kernel)⟩

theorem witness_LanesAddExactly : keysRise ({} : KState).lanes := List.Pairwise.nil

/-- M0 is 2^638 and M1 the least value; one lane holds 2^638 and another as much. -/
def kwide : KState := {
  m := [(0, { val := BitVec.ofInt 640 (2 ^ 638) }), (1, { val := BitVec.ofInt 640 (-(2 ^ 639)) }), (2, { val := 1 })]
  lanes := [(0, { val := BitVec.ofInt 640 (2 ^ 638) }), (1, { val := BitVec.ofInt 640 (2 ^ 638) })] }

theorem witness_KernelExact :
    SMet (.mli kc 3 0x7F7FFFFF) (kword 0x30 3 0 0 0 0 0 0x7F7FFFFF) kwide none (fun _ _ => kFits (((0x7F7FFFFF#32).setWidth 24).toInt * 2 ^ (((0x7F7FFFFF#32).extractLsb' 24 8).toInt + 300).toNat)) ∧
    SMet (.madd kc 3 0 1) (kword 0x31 3 0 1 0 0 0 0) kwide none (fun _ ks => kFits ((mRead ks 0).val.toInt + (mRead ks 1).val.toInt)) ∧
    SMet (.msub kc 3 0 2) (kword 0x32 3 0 2 0 0 0 0) kwide none (fun _ ks => kFits ((mRead ks 0).val.toInt - (mRead ks 2).val.toInt)) ∧
    SMet (.mabs kc 3 0) (kword 0x33 3 0 0 0 0 0 0) kwide none (fun _ ks => kFits ((mRead ks 0).val.toInt.natAbs : Int)) ∧
    SMet (.mtov kc 15 3 2) (kword 0x34 15 3 0 0 0 2 0) kwide none kAny :=
  ⟨smet (by decide +kernel) rfl rfl (by unfold kFits; decide +kernel), smet (by decide +kernel) rfl rfl (by unfold kFits; decide +kernel),
   smet (by decide +kernel) rfl rfl (by unfold kFits; decide +kernel), smet (by decide +kernel) rfl rfl (by unfold kFits; decide +kernel),
   smet (by decide +kernel) rfl rfl trivial⟩

theorem witness_KernelExactOpen :
    SMet (.madd kc 3 0 0) (kword 0x31 3 0 0 0 0 0 0) kwide none (fun _ ks => ¬ kFits ((mRead ks 0).val.toInt + (mRead ks 0).val.toInt)) ∧
    SMet (.msub kc 3 1 2) (kword 0x32 3 1 2 0 0 0 0) kwide none (fun _ ks => ¬ kFits ((mRead ks 1).val.toInt - (mRead ks 2).val.toInt)) ∧
    SMet (.mabs kc 3 1) (kword 0x33 3 1 0 0 0 0 0) kwide none (fun _ ks => ¬ kFits ((mRead ks 1).val.toInt.natAbs : Int)) ∧
    SMet (.merge kc 3) (kword 0x25 3 0 0 0 0 0 0) kwide none (fun _ ks => ¬ kFits (laneTotal ks)) ∧
    SMet (.vgam kc 3 1) (kword 0x47 3 1 0 0 0 0 0) kwide (some boundDesc) (fun c ks => xRead ks 1 = 0 ∧ c.desc ≠ none) :=
  ⟨smet (by decide +kernel) rfl rfl (by unfold kFits; decide +kernel), smet (by decide +kernel) rfl rfl (by unfold kFits; decide +kernel),
   smet (by decide +kernel) rfl rfl (by unfold kFits; decide +kernel), smet (by decide +kernel) rfl rfl (by unfold kFits; decide +kernel),
   smet (by decide +kernel) rfl rfl ⟨by decide +kernel, nofun⟩⟩

theorem witness_KernelExtended :
    SMet (.vli kc 15 0x7F800000) (kword 0x40 15 0 0 0 0 0 0x7F800000) {} none kAny ∧ SMet (.vadd kc 15 14 13 2) (kword 0x42 15 14 13 0 0 2 0) {} none kAny ∧
    SMet (.vsub kc 15 14 13 1) (kword 0x43 15 14 13 0 0 1 0) {} none kAny ∧ SMet (.vmul kc 15 14 13 0) (kword 0x44 15 14 13 0 0 0 0) {} none kAny ∧
    SMet (.vfx kc 15 14) (kword 0x45 15 14 0 0 0 0 0) {} none kAny ∧ SMet (.vfn kc 15 14 2) (kword 0x46 15 14 0 0 0 0 2) {} none kAny ∧
    SMet (.vgam kc 15 2) (kword 0x47 15 2 0 0 0 0 0) kregs (some boundDesc)
      (fun c ks => xRead ks 2 ≠ 0 ∧ ∃ ds, c.desc = some ds ∧ (boundG ds (xRead ks 2).toNat).isSome = true) := by
  refine ⟨?_, ?_, ?_, ?_, ?_, ?_, smet (by decide +kernel) rfl rfl ⟨by decide +kernel, boundDesc, rfl, by decide +kernel⟩⟩ <;>
    exact smet (by decide +kernel) rfl rfl trivial

/-- V1 is 1. -/
def kone : KState := { v := [(1, extOf .nearest (.fin false 1))], x := [(1, 120), (2, 1)] }

theorem witness_KernelFindings :
    SMet (.ckle kc 1 1 15 7) (kword 0x50 0 1 1 15 0 0 7) kone none (fun _ ks => extLe (extVal (vRead ks 1)) (extVal (vRead ks 1)) = true) ∧
    SMet (.ckle kc 1 0 15 7) (kword 0x50 0 1 0 15 0 0 7) kone none (fun _ ks => extLe (extVal (vRead ks 1)) (extVal (vRead ks 0)) = false) ∧
    SMet (.find kc 15 7) (kword 0x51 0 0 0 15 0 0 7) kone none kAny ∧
    SMet (.lscan kc 8 1 2 1 8 7) (kword 0x26 8 1 2 1 8 0 7) kone none (fun c ks => (xRead ks 2 = 0 ∨ kReadable c (xRead ks 1).toNat (tySize 8) (xRead ks 2).toNat = true) ∧
      ks.finds.length ≤ 64 ∧ ks.lost ≤ 65535) :=
  ⟨smet (by decide +kernel) rfl rfl (by decide +kernel), smet (by decide +kernel) rfl rfl (by decide +kernel), smet (by decide +kernel) rfl rfl trivial,
   smet (by decide +kernel) rfl rfl (by decide +kernel)⟩

theorem witness_KernelFrame : kernelCell (.nop ⟨.a, 0⟩) = some ⟨.a, 0⟩ ∧ (∃ t, exec (.nop ⟨.a, 0⟩) live = .next t) ∧ kRunning live ⟨.a, 0⟩ (.nop ⟨.a, 0⟩) = none :=
  ⟨rfl, ⟨_, rfl⟩, rfl⟩

/-! ### Hypotheses of the protocol statements are met -/

theorem witness_PacketReadsBack :
    (65535 < 65536 ∧ (cmdOf 7 65535 (2 ^ 256 - 1) (List.replicate 4096 0xFF) 0xFF).payload.length = (cmdOf 7 65535 (2 ^ 256 - 1) (List.replicate 4096 0xFF) 0xFF).plen.toNat ∧
      (cmdOf 7 65535 (2 ^ 256 - 1) (List.replicate 4096 0xFF) 0xFF).plen.toNat ≤ 4096 ∧ (cmdOf 7 65535 (2 ^ 256 - 1) (List.replicate 4096 0xFF) 0xFF).internal = false) :=
  ⟨by decide, by decide +kernel, by decide +kernel, rfl⟩

theorem witness_SlotsApart : (List.replicate 4160 (0 : Byte)).length ≤ 4160 ∧ (15 : BitVec 16).toNat % 16 ≠ (16 : BitVec 16).toNat % 16 ∧ tabWf 0 ([] : Tab Byte) = true :=
  ⟨by decide +kernel, by decide, rfl⟩

/-- The caller of a packet in queue 7. -/
theorem witness_CommandReplies : (callerFor hubNopRow (cmdOf 7 0x0101 0 [] 0) .a live).queue < 8 ∧ opClass hubNopRow.op ≠ 0xD ∧ opClass hubNopRow.op ≠ 0xE := by decide +kernel

/-- Every clause of `Turn` at hub A, in one value. -/
def turnAt (pk : Packet) (s : State) : Bool :=
  decide (serving s = some .a) && (List.range 8).all (fun r => decide ((queueOf s r).taken = (queueOf s r).tail)) &&
  decide (((queueOf s pk.queue.toNat).tail - (queueOf s pk.queue.toNat).head).toNat < 16) && sqRoom s pk.queue.toNat &&
  !heldIn s pk.queue.toNat && !slowIn s pk.queue.toNat

theorem turn_of_turnAt {pk : Packet} {s : State} (h : turnAt pk s = true) : Turn pk .a s := by
  simp only [turnAt, Bool.and_eq_true, decide_eq_true_eq, List.all_eq_true, List.mem_range, Bool.not_eq_true'] at h
  obtain ⟨⟨⟨⟨⟨h1, h2⟩, h3⟩, h4⟩, h5⟩, h6⟩ := h
  exact { serves := h1, idle := h2, slot := h3, room := h4, unheld := h5, unslow := h6 }

/-- A device whose queue 0 holds the open commands with these TAGs. -/
def opened (l : List Nat) (s : State) : State := { s with cmd := { s.cmd with
  opens := l.map (fun n => { queue := 0, tag := BitVec.ofNat 16 n, opcode := 0x0502, key := 0 }) } }

/-- What a refusal asks of the packet and the state, orders 1 and 3 apart. -/
def Refusable (i : Instr) (row : CmdRow) (pk : Packet) (s : State) : Prop :=
  PacketOf i row pk ∧ Turn pk .a s ∧ (powerWarn s = false ∨ quiet row pk = true)

/-- What orders 4 and 5 ask further. -/
def Passes (row : CmdRow) (pk : Packet) (s : State) : Prop :=
  headFault row pk (took row pk s) = none ∧ permitted row (callerFor row pk .a s) (took row pk s) = true ∧
  ansGood (row.body (callerFor row pk .a s) (took row pk s))

def isGood (a : Ans) : Bool := match a with | .err _ _ _ => false | .errWith _ _ _ _ => false | _ => true
theorem good_of {a : Ans} (h : isGood a = true) : ansGood a := by cases a <;> trivial
def isOpened (a : Ans) : Bool := match a with | .opened _ _ _ => true | _ => false
theorem opened_of {a : Ans} (h : isOpened a = true) : ∃ k j u, a = .opened k j u := by cases a <;> first | exact ⟨_, _, _, rfl⟩ | exact nomatch h

theorem crc_ok (q : BitVec 3) (op param : Nat) (pay : List Byte) (flags : BitVec 8) : (cmdOf q op param pay flags).crc = packetCrc op (cmdOf q op param pay flags) := rfl

abbrev nopBad : Packet := cmdOf 0 0x0101 0 [] 0x04
abbrev nopStray : Packet := cmdOf 0 0x0101 (pb 31 255) [] 0
abbrev qbindTenant : Packet := cmdOf 2 0x0102 (pb 0 7 + pb 1 5) [] 0
abbrev train3 : Packet := cmdOf 0 0x1101 (pb 0 (linkSite 0 0) + pb 4 3) [] 0

theorem headFault_some {row : CmdRow} {pk : Packet} {s : State} (hc : pk.crc = packetCrc row.op pk) (h1 : pk.plen.toNat ≤ 4096) (h2 : row.plen s pk = some pk.plen.toNat)
    (h3 : pk.flags >>> 2 ≠ 0) : headFault row pk s ≠ none := by
  unfold headFault headBad
  rw [if_neg (fun h => h hc), if_neg (by omega), h2]
  rw [if_neg (by simp), if_pos h3]
  simp

theorem witness_CommandRefusals :
    (Refusable (.hubNop nopBad) hubNopRow nopBad live ∧ headFault hubNopRow nopBad (took hubNopRow nopBad live) ≠ none) ∧
    (Refusable (.hubQbind qbindTenant) hubQbindRow qbindTenant rented ∧ headFault hubQbindRow qbindTenant (took hubQbindRow qbindTenant rented) = none ∧
      permitted hubQbindRow (callerFor hubQbindRow qbindTenant .a rented) (took hubQbindRow qbindTenant rented) = false) ∧
    (Refusable (.hubNop (cmdOf 0 0x0101 0 [] 0)) hubNopRow (cmdOf 0 0x0101 0 [] 0) (opened [7] live) ∧ Passes hubNopRow (cmdOf 0 0x0101 0 [] 0) (opened [7] live) ∧
      ∃ o ∈ (opened [7] live).cmd.opens, o.queue = 0 ∧ o.tag = 7) ∧
    (Refusable (.hubNop nopStray) hubNopRow nopStray (opened [6] live) ∧ Passes hubNopRow nopStray (opened [6] live) ∧
      (∀ o ∈ (opened [6] live).cmd.opens, o.queue = 0 → o.tag ≠ 7) ∧ strayParam nopStray hubNopRow.named = some 31) ∧
    (Refusable (.linkTrain train3) linkTrainRow train3 (opened (List.range' 8 8) linked) ∧ Passes linkTrainRow train3 (opened (List.range' 8 8) linked) ∧
      (∀ o ∈ (opened (List.range' 8 8) linked).cmd.opens, o.queue = 0 → o.tag ≠ 7) ∧ strayParam train3 linkTrainRow.named = none ∧
      openOf (opened (List.range' 8 8) linked) 0 = 8 ∧
      ∃ k j u, linkTrainRow.body (callerFor linkTrainRow train3 .a (opened (List.range' 8 8) linked)) (took linkTrainRow train3 (opened (List.range' 8 8) linked)) = .opened k j u) :=
  ⟨⟨⟨⟨rfl, rfl⟩, turn_of_turnAt (by decide +kernel), .inl (by decide +kernel)⟩, headFault_some (crc_ok _ _ _ _ _) (by decide +kernel) (by decide +kernel) (by decide +kernel)⟩,
   ⟨⟨⟨rfl, rfl⟩, turn_of_turnAt (by decide +kernel), .inl (by decide +kernel)⟩, headFault_none (crc_ok _ _ _ _ _) (by decide +kernel), by decide +kernel⟩,
   ⟨⟨⟨rfl, rfl⟩, turn_of_turnAt (by decide +kernel), .inl (by decide +kernel)⟩, ⟨headFault_none (crc_ok _ _ _ _ _) (by decide +kernel), by decide +kernel, good_of (by decide +kernel)⟩, _, List.mem_singleton_self _, rfl, rfl⟩,
   ⟨⟨⟨rfl, rfl⟩, turn_of_turnAt (by decide +kernel), .inl (by decide +kernel)⟩, ⟨headFault_none (crc_ok _ _ _ _ _) (by decide +kernel), by decide +kernel, good_of (by decide +kernel)⟩, by decide +kernel, by decide +kernel⟩,
   ⟨⟨⟨rfl, rfl⟩, turn_of_turnAt (by decide +kernel), .inl (by decide +kernel)⟩, ⟨headFault_none (crc_ok _ _ _ _ _) (by decide +kernel), by decide +kernel, good_of (by decide +kernel)⟩, by decide +kernel, by decide +kernel, by decide +kernel,
    opened_of (by decide +kernel)⟩⟩

theorem witness_RefusalFrame : ∃ e t, Turn nopBad .a live ∧ Refuses (.hubNop nopBad) hubNopRow nopBad .a live stBadParam e ∧ exec (.hubNop nopBad) live = .next t := by
  have ht : Turn nopBad .a live := turn_of_turnAt (by decide +kernel)
  obtain ⟨e, he⟩ := Option.ne_none_iff_exists'.mp (headFault_some (row := hubNopRow) (pk := nopBad) (s := took hubNopRow nopBad live) (crc_ok _ _ _ _ _)
    (by decide +kernel) (by decide +kernel) (by decide +kernel))
  have hr : Refuses (.hubNop nopBad) hubNopRow nopBad .a live stBadParam e := by
    show nextOf live (runCmd hubNopRow (.hubNop nopBad) nopBad live) = _
    rw [ht.run (by decide) _, show powerWarn live = false from rfl]
    unfold interpret
    rw [show (callerFor hubNopRow nopBad .a live).pk = nopBad from rfl, he]
    rfl
  exact ⟨e, _, ht, hr, hr⟩

/-- A device whose hub A is in PowerWarn. -/
def warned : State := { live with hubA := { live.hubA with pwr := { live.hubA.pwr with warn := true } } }

theorem witness_PowerWarnHolds : PacketOf (.hubQbind (cmdOf 1 0x0102 (pb 0 7 + pb 1 255) [] 0)) hubQbindRow (cmdOf 1 0x0102 (pb 0 7 + pb 1 255) [] 0) ∧
    Turn (cmdOf 1 0x0102 (pb 0 7 + pb 1 255) [] 0) .a warned ∧ powerWarn warned = true ∧ quiet hubQbindRow (cmdOf 1 0x0102 (pb 0 7 + pb 1 255) [] 0) = false :=
  ⟨⟨rfl, rfl⟩, turn_of_turnAt (by decide +kernel), by decide +kernel, rfl⟩

/-- Packets wait in queues 3 and 7, and none in queue 0. -/
def waitingTwo : State := { live with cmd := { queues := [(3, { tail := 1 }), (7, { tail := 16 })] } }

theorem witness_TurnOrder : turnOf waitingTwo 3 = true ∧ turnOf waitingTwo 7 = false ∧ turnOf { waitingTwo with cmd := { waitingTwo.cmd with rr := 4 } } 7 = true := by
  decide +kernel

/-! ### Hypotheses of the register-window and step statements are met -/

theorem witness_RegisterWrites : isServing (hubOf live .a) = true ∧ portTakes (hubOf live .a) = true ∧
    ((4 : BitVec 64).toNat % 8 ≤ 4 ∧ (4 : BitVec 64).getLsbD 32 = false) ∧ 4 < (5 : BitVec 64).toNat % 8 ∧ (0x100000000 : BitVec 64).getLsbD 32 = true ∧
    (0x61 : BitVec 64).toNat % 128 ≤ 0x61 ∧ 0x61 < (0x62 : BitVec 64).toNat % 128 ∧ (2 : BitVec 64).toNat % 4 ≠ 3 := by decide +kernel

theorem witness_DroppedWrites : writeRow (.sntSel .b 5 0xFF) = some (.b, 0xFF) ∧ isServing (hubOf live .b) = false ∧
    ((hubOf (withB (fun x => { x with rstLow := false })) .b).rstLow = false ∧ (hubOf (withB (fun x => { x with rstLow := false })) .b).reads.length < 16 ∧
      isServing (hubOf (withB (fun x => { x with rstLow := false })) .b) = false) ∧
    writeRow (.doorbell .a 7 1 0x7F) = some (.a, 0x7F) ∧ isServing (hubOf live .a) = true ∧ (hubOf live .a).rstLow = false ∧ (hubOf live .a).reads.length < 16 ∧
    otherRequest (.hubPorterr .b) = some .b ∧ (hubOf State.reset .b).rstLow = true ∧ 16 ≤ (hubOf (withA (fun x => { x with reads := List.replicate 16 (0, 0x118, 0) })) .a).reads.length := by decide +kernel

/-- Queue 7 is empty at count 65,530; its status queue holds 64 replies, of which none is read. -/
def nearWrap : State := { live with cmd := { queues := [(7, { tail := 65530, taken := 65530, head := 65530, sqTail := 10, sqHead := 65482 })] } }

theorem witness_QueuePointers : isServing (hubOf nearWrap .a) = true ∧ portTakes (hubOf nearWrap .a) = true ∧ (10 : BitVec 16) ≠ (queueOf nearWrap 7).tail ∧ (10 : BitVec 16) ≠ (queueOf nearWrap 7).sqHead ∧
    ((10 - (queueOf nearWrap 7).head).toNat ≤ 16 ∧ (10 - (queueOf nearWrap 7).tail).toNat ≤ 16) ∧ ¬ (11 - (queueOf nearWrap 7).head).toNat ≤ 16 ∧
    (10 - (queueOf nearWrap 7).sqHead).toNat ≤ ((queueOf nearWrap 7).sqTail - (queueOf nearWrap 7).sqHead).toNat ∧
    ¬ (11 - (queueOf nearWrap 7).sqHead).toNat ≤ ((queueOf nearWrap 7).sqTail - (queueOf nearWrap 7).sqHead).toNat ∧
    ((65536 + (queueOf nearWrap 7).tail.toNat : Nat) : BitVec 64).setWidth 16 = (queueOf nearWrap 7).tail := by decide +kernel

theorem witness_QueueMemoryWrites : isServing (hubOf nearWrap .a) = true ∧ portTakes (hubOf nearWrap .a) = true ∧ 519 < 520 ∧ slotTaken (queueOf nearWrap 7) 15 = false ∧ tabWf 0 (queueOf nearWrap 7).mem = true ∧
    slotTaken { queueOf nearWrap 7 with taken := 65536, tail := 65536 } 15 = true := by decide +kernel

theorem witness_RegisterAddresses : portTakes (hubOf live .a) = true ∧ (0x2007 : BitVec 20).toNat / 8 * 8 = 0x2000 ∧ (0x2010 : BitVec 20).toNat / 8 * 8 = 0x2010 ∧ (0x201F : BitVec 20).toNat / 8 * 8 = 0x2018 ∧
    (0x2108 : BitVec 20).toNat / 8 * 8 = 0x2108 ∧ (0x3000 : BitVec 20).toNat / 8 * 8 = 0x3000 ∧ (0x300F : BitVec 20).toNat / 8 * 8 = 0x3008 ∧
    ((0x2008 : BitVec 20).toNat / 8 * 8 = 0x2008 ∧ isServing (hubOf live .a) = true) ∧ (0x11C7 : BitVec 20).toNat / 8 * 8 = 0x1000 + 64 * (7 : BitVec 3).toNat ∧
    (0x11D0 : BitVec 20).toNat / 8 * 8 = 0x1010 + 64 * (7 : BitVec 3).toNat ∧ readOnlyWord ((0x0 : BitVec 20).toNat / 8 * 8) ∧ readOnlyWord ((0xFFFFF : BitVec 20).toNat / 8 * 8) := by
  unfold readOnlyWord; decide +kernel

theorem witness_ReadsAndResets : isServing (hubOf nearWrap .a) = true ∧ portTakes (hubOf nearWrap .a) = true ∧ sqFree (queueOf nearWrap 7) = 0 ∧ (queueOf nearWrap 7).fullRaised = false := by decide +kernel

/-- Warden 97 has a shadow order waiting at group 19. -/
def queued : State := wd (fun w => { w with shdQ := [(19, [{ kind := 0, dst := 20479, tile := 9 }])] })

theorem witness_IdleTick : live.pending = [] ∧ settled live = true ∧ waitingWardens live = [] ∧ (queued.pending = [] ∧ settled queued = true ∧ waitingWardens queued = [97] ∧
      (war queued 97).shdQ = [(19, [{ kind := 0, dst := 20479, tile := 9 }])] ∧ (war queued 97).patNext = none ∧ (war queued 97).alive = true) ∧
    (settled (withA (fun x => { x with slowAdj := 1 })) = true ∧ 0 < (hubOf (withA (fun x => { x with slowAdj := 1 })) .a).slowAdj) ∧ ((hubOf live .a).refLost = false ∧ (hubOf live .a).slowAdj = 0 ∧ (hubOf live .a).time < 2 ^ 64 - 10) ∧
    (settled { live with hubB := { live.hubB with refLost := true } } = true ∧ (hubOf { live with hubB := { live.hubB with refLost := true } } .b).refLost = true) := by decide +kernel

/-- Two commands wait, whatever the outputs of the hubs show. -/
def pinned : State := { live with
  hubA := { live.hubA with primaryPin := true, irqStat := 0x40001, irqMask := 0x40000, irqPin := true }
  pending := [.queueMemoryWrite .a 7 15 519 0 0xFF, .cmdPortReset .b] }

theorem witness_PinsFollow : ∀ c ∈ pinned.pending, c.wf = true := by decide +kernel

/-! ### Hypotheses of the event, start and power statements are met -/

/-- Strata is frozen and its hold area keeps this many records. -/
def frozenAt (n : Nat) : State := { live with strata := { frozen := true, hold := List.replicate n { count := 0, time := 0, ev := ev evProfileSet [] } } }

theorem witness_RaisedEvents : serving State.reset = none ∧ (serving live = some .a ∧ noMatch live ∧ live.strata.frozen = false) ∧
    ((frozenAt 4095).strata.frozen = true ∧ (frozenAt 4095).strata.hold.length + recCount (ev evProfileSet []) ≤ 4096) ∧
    4096 < (frozenAt 4096).strata.hold.length + recCount (ev evProfileSet []) := by unfold noMatch; decide +kernel

theorem witness_HubEvents : ((hubOf State.reset .b).role = .starting ∧ (hubOf State.reset .b).started = false) ∧
    (hubOf live .a).refLost = false ∧ (hubOf (withA (fun x => { x with refLost := true })) .a).refLost = true ∧
    (2 ≤ 2 ∧ (hubOf live .a).role ≠ .down ∧ (hubOf live .a).mgmtOut = [] ∧ tget [] (hubOf live .a).mgmt 2 = []) ∧
    (2 ∉ (hubOf (withA (fun x => { x with mgmtOut := [0] })) .a).mgmtOut ∧ (hubOf (withA (fun x => { x with mgmtOut := [0] })) .a).mgmtOut ≠ []) ∧
    ((hubOf live .a).role ≠ .down ∧ 3 ∉ (hubOf live .a).mgmtOut ∧ (hubOf live .a).rstLow = false) ∧ serving debugged = some .a ∧ (hubOf debugged .a).refLost = false ∧ debugged.keys.dbg ≠ none := by decide +kernel

theorem witness_PowerEvents : ((hubOf (withB (fun x => { x with role := .secondary, rstLow := false })) .b).role = .secondary ∧ (hubOf (withB (fun x => { x with role := .secondary, rstLow := false })) .b).pwr.warn = false ∧
    (hubOf (withB (fun x => { x with role := .secondary, rstLow := false })) .b).rstLow = false ∧ (hubOf live .a).rstLow = false ∧ (hubOf State.reset .a).rstLow = true) ∧
    (isServing (hubOf live .a) = true ∧ (hubOf live .a).pwr.warn = false) ∧ ((hubOf warned .a).pwr.warn = true ∧ (hubOf warned .a).pwr.flushed = false) ∧
    (let x := hubOf (withB (fun x => { x with role := .secondary, pwr := { warn := true, pin := true, flushed := true } })) .b
     x.role = .secondary ∧ x.pwr.warn = true ∧ x.pwr.pin = true ∧ x.pwr.flushed = true) ∧
    ((hubOf live .a).role ≠ .down ∧ (hubOf live .a).railLow = false) ∧
    ((hubOf (withA (fun x => { x with railLow := true })) .a).railLow = true ∧ (hubOf (withA (fun x => { x with railLow := true })) .a).rstLow = false) ∧
    (war live 97).alive = true := by decide +kernel

/-- Partition 97's droop state and held work. -/
def drooping (d : Droop) (held : List HeldWork) : State := wd (fun w => { w with droop := d, heldW := held })

theorem witness_DroopEvents : (war live 97).alive = true ∧
    ((0x80 : BitVec 8) ++ (0 : BitVec 32) : BitVec 40) &&& ~~~(war (drooping { mask := 0x8000000000 } []) 97).droop.mask = 0 ∧
    (((0x80 : BitVec 8) ++ (0 : BitVec 32) : BitVec 40) &&& ~~~(war live 97).droop.mask ≠ 0 ∧ (war live 97).droop.open_ = false) ∧
    (((0 : BitVec 8) ++ (1 : BitVec 32) : BitVec 40) &&& ~~~(war (drooping { open_ := true } []) 97).droop.mask ≠ 0 ∧ (war (drooping { open_ := true } []) 97).droop.open_ = true) ∧
    (war live 97).droop.again = false ∧
    (let w := war (drooping { open_ := true, closing := true } []) 97; w.droop.open_ = true ∧ w.droop.closing = true ∧ w.droop.order = false ∧ w.patNext = none ∧ w.heldW = []) ∧
    (let w := war (drooping { open_ := true, closing := true, order := true } [.slice 16]) 97; w.droop.open_ = true ∧ w.droop.closing = true ∧ w.droop.order = true) ∧
    windowOpen (war live 97) = false ∧
    (39 < 40 ∧ (war (drooping { inputs := 0x8000000000 } []) 97).droop.inputs.getLsbD 39 = true ∧ (war (drooping { inputs := 0x8000000000 } []) 97).droop.stuck.getLsbD 39 = false) ∧
    (let d := (war (drooping { req := true } []) 97).droop; d.req = true ∧ d.ack = false ∧ d.gaveUp = false) ∧
    (war (drooping {} [.slice 16]) 97).halt = none ∧ (war (drooping {} [.disp 19 true { kind := 0, dst := 5, tile := 9 }]) 97).heldW = .disp 19 true { kind := 0, dst := 5, tile := 9 } :: [] ∧
    chanFree (war (wd (fun w => { w with heldW := [.disp 19 true { kind := 0, dst := 5, tile := 9 }], shdReady := 0x80000 })) 97) 19 = true ∧
    (war (drooping {} [.slice 16]) 97).heldW = .slice 16 :: [] ∧ (war (drooping {} [.swap 639]) 97).heldW = .swap 639 :: [] := by decide +kernel

/-! ### Hypotheses of the lease, role, mirror and Vein statements are met -/

theorem witness_WardenEvents : (97 ≤ 97 ∧ (war State.reset 97).alive = false ∧ (war State.reset 97).stopped = false) ∧
    (isServing (hubOf live .a) = true ∧ claimable live 97 = true ∧ (war live 97).lease = some .a) ∧ (hubOf live .a).leases.any (fun e => e.1 = 97) = true ∧
    ((war live 97).lease = some .a ∧ (hubOf (withA (fun x => { x with leases := [] })) .a).leases.any (fun e => e.1 = 97) = false) ∧
    (let s : State := { live with hubB := { role := .claiming }, net := [.claim .b 97] }
     inFlight (.claim .b 97) s = true ∧ claimable s 97 = true ∧ (hubOf s .b).role = .claiming ∧ (war s 97).lease.isSome = true ∧
     (war { s with wardens := tset s.wardens 97 { alive := true, valid := true } } 97).lease = none) := by decide +kernel

/-- Only partition 97 is in service, and hub A claims with its lease. -/
def lone : State := {
  hubA := { role := .claiming, started := true, leases := [(97, 0)] }
  wardens := [(97, { alive := true, valid := true, lease := some .a })]
  defects := { tab := (List.range 97).map (fun i => (i, defEntry (partSite i) 3 3 5 0 0)) }
  boot := { up := true, lastServ := some .a } }

theorem witness_RoleEvents_quorum : (hubOf lone .a).role = .claiming ∧ (hubOf lone .a).stale = [] ∧ hasQuorum lone .a = true ∧ serving lone = none ∧
    (let role : Role := if (hubOf lone (other .a)).role = .down then .sole else .primary
     let u := modHub .a (fun x => { x with withdrawals := 0, mayClaim := true }) { lone with net := lone.net.filter (fun m => match m with | .claim g _ => g ≠ .a | _ => true) }
     let v := if lone.boot.up then takeOver .a role u else powerOrders .a (bringUp .a (confirm .a (firstRecords .a (takeRegs .a none (setRole .a role u)))))
     (hubOf v .a).role ≠ .down) := by decide +kernel

theorem witness_RoleEvents :
    (let s := withA (fun x => { x with role := .claiming, leases := [] }); (hubOf s .a).role = .claiming ∧ hasQuorum s .a = false) ∧
    (let s := withA (fun x => { x with role := .claiming, stale := [1] }); (hubOf s .a).role = .claiming ∧ (hubOf s .a).stale ≠ []) ∧
    (let s := withA (fun x => { x with role := .starting }); (hubOf s .a).role = .starting ∧ (hubOf s .a).started = true) ∧
    (hubOf (withA (fun x => { x with role := .primary })) .a).role = .primary ∧ (hubOf (withB (fun x => { x with role := .secondary })) .b).role = .secondary ∧
    ((hubOf live .a).role = .sole ∧ (hubOf (withB (fun x => { x with role := .secondary })) (other .a)).role = .secondary) := by decide +kernel

theorem witness_MirrorEvents : (let s : State := { live with hubB := { role := .secondary }, mir := { out := [.sqHead 7 65535] } }; s.mir.out = .sqHead 7 65535 :: [] ∧ (hubOf s .b).role = .secondary) ∧
    (let s : State := { live with hubA := { live.hubA with role := .primary }, mir := { acks := [.release 9, .event 97 3] } }
     s.mir.acks.find? (fun i => !isRelItem i) = some (.event 97 3) ∧ (hubOf s .a).role = .primary) ∧
    (let r : RelRec := { obj := 32767, epoch := 1, rsn := 9, first := 1, parts := [97], closes := [96], job := 3, tenant := 5 }
     let s : State := { live with sync := { relWait := [r] }, mir := { acks := [.release 9] } }
     MItem.release 9 ∈ s.mir.acks ∧ waitingRel s 9 = some r ∧ serving s = some .a ∧ hasQuorum s .a = true ∧
     (let v := { s with hubA := { s.hubA with leases := [] } }; waitingRel v 9 = some r ∧ serving v = some .a ∧ hasQuorum v .a = false)) ∧
    hasSecondary { live with hubA := { live.hubA with role := .primary }, hubB := { role := .secondary } } = true ∧
    ((objOf { live with sync := { objs := [(2, { type := 2, state := 1, count := 0xFFFFFFFF })] } } 2).type = 2 ∧
      (objOf { live with sync := { objs := [(2, { type := 2, state := 1, count := 0xFFFFFFFF })] } } 2).count = 0xFFFFFFFF) := by decide +kernel

def flitTo (cls dst len : Nat) : Flit := { cls, dst, vc := 0, len, head := true, src := 3, data := 0 }

theorem witness_VeinEvents : nodeUp live 99 = true ∧ (3 < 4 ∧ 4 ≤ 4 ∧ 99 < 100 ∧ (4, flitTo 3 99 1) ∉ (nodeOf live 99).resent) ∧
    (flitTo 3 0 1).dst ≠ 99 ∧ (routeFlit live 99 (flitTo 3 0 1)).isSome = true ∧
    routeFlit { live with vein := { nodesOut := [0] } } 99 (flitTo 3 0 1) = none ∧ nodeUp { live with vein := { nodesOut := [0] } } 99 = true ∧
    512 < tget 0 (nodeOf { live with vein := { nodes := [(99, { bufs := [(4, 512)] })] } } 99).bufs 4 + (flitTo 4 0 1).len ∧
    ((neighbour 50 0).isSome = true ∧ linkUp live 50 ((neighbour 50 0).getD 0) = true ∧ (portTo ((neighbour 50 0).getD 0) 50).isSome = true ∧
      tget [] (nodeOf live 50).refused 0 = []) ∧
    (0, flitTo 3 0 1) ∈ (nodeOf { live with vein := { nodes := [(50, { resent := [(0, flitTo 3 0 1)] })] } } 50).resent := by decide +kernel

/-! ### Hypotheses of the reset, bring-up, link and memory statements are met -/

def inReset (r : Reset) : State := wd (fun w => { w with reset := r })
def inChan (k : Chan) : State := wd (fun w => { w with ch1 := k })

theorem witness_ResetEvents : (war State.reset 97).alive = false ∧ (war (inReset { quiesce := true }) 97).alive = true ∧ (resetOf (inReset { quiesce := true }) 97).quiesce = true ∧
    ((chanOf (inChan { drain := 1 }) (2 * 97 + 1)).fenceReq = true ∧ (chanOf (inChan { drain := 1 }) (2 * 97 + 1)).drain = 1) ∧
    (let s := wd (fun w => { w with reset := { step := 3 }, ch1 := { drain := 4 } })
     (chanOf s (2 * 97 + 1)).fenceReq = true ∧ (chanOf s (2 * 97 + 1)).drain ≠ 1 ∧ (resetOf s 97).step = 3 ∧ (chanOf s (2 * 97 + 1)).ready = false) ∧
    (chanOf (inChan { drain := 2 }) (2 * 97 + 1)).drain = 2 ∧ (chanOf (inChan { drain := 3 }) (2 * 97 + 1)).drain = 3 ∧
    (resetOf (inReset { transit := true }) 97).transit = true ∧ 97 ∈ ({ live with boot := { live.boot with detour := [97] } } : State).boot.detour ∧
    (let r := resetOf (inReset { step := 6 }) 97; r.step ≠ 0 ∧ r.wafer = false ∧ r.holdReset = false ∧ r.failDue = none ∧ serving (inReset { step := 6 }) ≠ none ∧ (inReset { step := 6 }).cairn.state = 0) ∧
    (let r := resetOf (inReset { done := some (3, true) }) 97; r.done ≠ none ∧ r.wafer = false ∧ r.holdReset = false ∧ r.failDue = none) ∧
    serving { inReset { step := 6 } with hubA := {} } = none ∧ (resetOf (inReset { step := 2 }) 97).step = 2 ∧
    (let w := war (wd (fun w => { w with lease := none, lapsed := true })) 97; w.alive = true ∧ w.lease = none ∧ w.lapsed = true ∧ w.reset.holdReset = false) ∧
    ((war live 97).failed = false ∧ (serving live).isSome = true) := by decide +kernel

/-- The manifest in force is that of an image with this digest. -/
def manifested (d : BitVec 384) (s : State) : State := modReset 97 (fun r => { r with fwMan := some { imgver := 1, step := 1, len := 1, offset := 0, digest := d } }) s

theorem witness_BringUpEvents : (war (inReset { step := 4 }) 97).alive = true ∧ okSite (inReset { step := 4 }) (unitSite 97 4 3) = true ∧ ((resetOf (inReset { step := 4 }) 97).step = 4 ∧ hasEntry (inReset { step := 4 }) (engineSite 97 127) = false) ∧
    (let s : State := { live with boot := { live.boot with gather := some [97] } }; s.boot.gather = some [97] ∧ mayBegin s = true) ∧
    (let s := manifested 5 (inReset { step := 5, fwCheck := true })
     (resetOf s 97).step = 5 ∧ (resetOf s 97).fwCheck = true ∧ some 5 = (resetOf s 97).fwMan.map (·.digest) ∧ some 6 ≠ (resetOf s 97).fwMan.map (·.digest) ∧ (resetOf s 97).fwRetry = false) ∧
    (resetOf (manifested 5 (inReset { step := 5, fwCheck := true, fwRetry := true })) 97).fwRetry = true ∧
    (let r := resetOf (inReset { step := 5, fwAsked := true }) 97; r.step = 5 ∧ r.fwAsked = true ∧ r.fwCheck = false) ∧
    (let r := resetOf (inReset { step := 5, fwStart := true }) 97; r.step = 5 ∧ r.fwStart = true) ∧
    (let s := wd (fun w => { w with reset := { step := 6, bringup := true }, ch0 := { drained := true }, ch1 := { drained := true } })
     (war s 97).alive = true ∧ (resetOf s 97).step = 6 ∧ (resetOf s 97).failDue = none ∧ s.boot.device = 0 ∧ s.cairn.state = 0 ∧ (war s 97).ch0.keyQ = [] ∧ (war s 97).ch1.keyQ = [] ∧
     (war s 97).ch0.drained = true ∧ (war s 97).ch1.drained = true ∧ mayBegin s = true ∧ mapWaits s 97 = false ∧ mayBegin { s with boot := { s.boot with wafReset := 1 } } = false) ∧
    (let s := wd (fun w => { w with probation := true })
     (war s 97).probation = true ∧ mayBegin s = true ∧ (war s 97).startOpen = false ∧ mayBegin { s with boot := { s.boot with wafReset := 1 } } = false) := by decide +kernel

/-- Gemer's engine-ring map has no value in the model (log entry 10): the clauses about an engine's site are met wherever it names one at index 127 and none at 5. -/
theorem witness_BringUpEvents_engines (h1 : (Config.ringKind 97 127).isSome = true) (h2 : (Config.ringKind 97 5).isSome = false) :
    okSite (inReset { step := 4 }) (engineSite 97 127) = true ∧ okSite (inReset { step := 4 }) (engineSite 97 5) = false :=
  ⟨h1, h2⟩

/-- Link 7 of `linked`, as given. -/
def link7 (k : Link) : State := { linked with links := [(7, k)] }

theorem witness_LinkAndMemoryEvents : ((war { linked with wardens := [(0, { linkBase := 0, linkCount := 8 })] } 0).alive = false ∧ linkPlace { linked with wardens := [(0, { linkBase := 0, linkCount := 8 })] } 7 = some (0, 7)) ∧
    (linkPlace (link7 { trainReq := true, attempts := 2 }) 7 = some (0, 7) ∧ (lnk (link7 { trainReq := true, attempts := 2 }) 7).trainReq = true ∧
      (lnk (link7 { trainReq := true, attempts := 2 }) 7).attempts < 3 ∧ (lnk (link7 { trainReq := true, attempts := 2 }) 7).why ≠ 2) ∧
    (let k := lnk (link7 { trainReq := true, attempts := 2, why := 2 }) 7; k.attempts < 3 ∧ k.why = 2) ∧
    (let k := lnk (link7 { trainReq := true, attempts := 3 }) 7; k.trainReq = true ∧ 3 ≤ k.attempts) ∧
    (let s : State := { live with wardens := [(0, { alive := true, valid := true, linkBase := 0, linkCount := 8, lnkFence := false })], links := [(7, { trainMax := 1 })] }
     linkPlace s 7 = some (0, 7) ∧ (war s 0).alive = true ∧ (war s 0).lnkFence = false ∧ (lnk s 7).trainReq = false ∧ (lnk s 7).trainMax ≠ 0) ∧
    (linkPlace linked 7 = some (0, 7) ∧ (war linked 0).alive = true ∧ (4 : BitVec 3).toNat ≤ 4 ∧ (4 : BitVec 3) ≠ 3) ∧
    (war (wd (fun w => { w with bankOff := [{ bank := 127, idle := true }] })) 97).bankOff.any (fun b => b.bank = 127 && b.idle) = true ∧
    (war (wd (fun w => { w with bankOff := [{ bank := 127, idle := true }] })) 97).bankOff.find? (fun b => b.bank = 127 && b.idle && !b.told) = some { bank := 127, idle := true } ∧
    (127 < 128 ∧ (chanOf (inChan { bankOn := 1 }) (2 * 97 + 127 / 64)).bankEn.getLsbD (127 % 64) = true ∧ (chanOf (inChan { bankOn := 1 }) (2 * 97 + 127 / 64)).bankOn.getLsbD (127 % 64) = false) ∧
    (1 < 2 ∧ 63 < 64 ∧ (5505023 : BitVec 28).toNat < 5505024 ∧ hearsPart live 97 = true) ∧
    ((chanOf (inChan { keyQ := [(63, 5, 0, 9)], keyBeat := 2 }) (2 * 97 + 1)).keyQ = (63, 5, 0, 9) :: [] ∧ 0 ≠ 2 ∧ (chanOf (inChan { keyQ := [(63, 5, 0, 9)], keyBeat := 2 }) (2 * 97 + 1)).keyBeat < 3) ∧
    ((chanOf (inChan { pass := some (82, [1]) }) (2 * 97 + 1)).pass = some (82, [1]) ∧ 82 < 83) := by decide +kernel

/-! ### Hypotheses of the sentry, certificate and shadow statements are met -/

theorem witness_SentryLookup : mapHolds 97 (BitVec.ofNat 32 (coreSite 0 16)).toNat = false ∧ okSite live (0xC5FFFFFF : BitVec 32).toNat = false ∧
    (let n := (BitVec.ofNat 32 (coreSite 97 (639 * 32 + 16))).toNat; (war live 97).alive = true ∧ (war live 97).valid = true ∧ okSite live n = true ∧ mapHolds 97 n = true) := by decide +kernel

/-- The statement has no hypothesis; both sides of its equivalence occur. -/
theorem witness_ProbationFraction : (clusterIn (setEntry 97 (partSite 97) 1 live) 97 639).prob = true ∧ (clusterIn live 97 639).prob = false := by decide +kernel

theorem witness_SentryEvents : (let s : State := { live with net := [.sentry 97 (coreSite 97 16) stQuarantined] }
     s.net = .sentry 97 (BitVec.ofNat 32 (coreSite 97 16)).toNat stQuarantined :: [] ∧ (war s 97).alive = true ∧ (war s 97).lease ≠ none ∧ resetKeeps s 97 (BitVec.ofNat 32 (coreSite 97 16)).toNat = false ∧
     stQuarantined ≠ stSpare) ∧
    (let s : State := { wd (fun w => { w with lease := none }) with net := [.sentry 97 (coreSite 97 16) stQuarantined] }; (war s 97).alive = true ∧ (war s 97).lease = none ∧ stQuarantined ≠ stFenced) ∧
    ((war live 97).valid = true ∧ isPartSite (BitVec.ofNat 32 (partSite 97)).toNat = true ∧ sitePart (BitVec.ofNat 32 (partSite 97)).toNat < 98) ∧
    (let s : State := { inReset { coreWait := [coreSite 97 16] } with net := [.sentry 97 (coreSite 97 16) stQuarantined] }
     resetKeeps s 97 (BitVec.ofNat 32 (coreSite 97 16)).toNat = true ∧ isCoreSite (BitVec.ofNat 32 (coreSite 97 16)).toNat = true) ∧
    (let s := wd (fun w => { w with batch := some [(partSite 97, 0)] }); (war s 97).batch = some [(partSite 97, 0)] ∧ (war s 97).alive = true ∧ (war s 97).lease ≠ none ∧ partSite 97 ∉ (war s 97).sticky) ∧
    (let s := wd (fun w => { w with batch := some [(partSite 97, 0)], lease := none }); (war s 97).batch = some [(partSite 97, 0)] ∧ (war s 97).alive = true ∧ (war s 97).lease = none) ∧
    (let s : State := { live with net := [.switched 97 true [(partSite 97, 4)]] }; s.net = .switched 97 true [(partSite 97, 4)] :: [] ∧ (serving s).isSome = true) ∧
    (let s : State := { live with defects := { dirty := true } }; (serving s).isSome = true ∧ s.defects.dirty = true) ∧
    ({ live with net := [.frac 97 639 32] } : State).net = .frac 97 639 32 :: [] := by decide +kernel

/-- A source, its group and a tile: cluster 639, position 15, of partition 97. -/
def src15 : Nat := 639 * 32 + 15

/-- A certificate of tile 9: a residue check in format 0, with these flag bits. -/
def certOf (extra : BitVec 128) : BitVec 128 := 9 ||| (1#128 <<< 56) ||| extra

/-- The pending shadow of tile 9 of epoch 1 on `src15`. -/
def pend9 (again : Bool) : Pend := { tid := 9, epoch := 1, orig := 5, target := src15, sig := 0, at_ := 0, forced := false, again }

/-- An engine record with this kind and result. -/
def engOf (kind rslt detail : Nat) : BitVec 128 := BitVec.ofNat 128 (kind * 2 ^ 124 + rslt * 2 ^ 120 + detail * 2 ^ 112 + 9 * 2 ^ 64)

theorem witness_ScreenEvents_certificates : originalHeard live 97 19 src15 1 (certOf 0) ∧ certVerdict (certOf 0) = .clean ∧ certVerdict 9 = .unchecked ∧
    certVerdict (certOf (1#128 <<< 60)) = .poisoned ∧ certVerdict (certOf (1#128 <<< 62)) = .metaFault ∧ certVerdict (certOf (1#128 <<< 63)) = .malformed ∧
    certVerdict (certOf (1#128 <<< 32)) = .residue ∧ certVerdict (9 ||| (1#128 <<< 57) ||| (2#128 <<< 52) ||| (9#128 <<< 48)) = .checksum ∧
    (let s := wd (fun w => { w with tallies := (List.range' 2 256).map (fun e => { epoch := e }) }); hearsFrom s 97 19 src15 = true ∧ tallyFull s 97 1 = true) := by
  unfold originalHeard; decide +kernel

theorem witness_ScreenEvents_shadows : (let s := wd (fun w => { w with pend := [pend9 false] })
     hearsFrom s 97 19 src15 = true ∧ isWithdrawn s 97 src15 = false ∧
     (war s 97).pend.find? (fun x => x.epoch = 1 && x.tid = certTid (certOf 0) && x.target = src15) = some (pend9 false)) ∧
    ((war live 97).pend = [] ∧ (war live 97).triages = []) ∧
    ((war (wd (fun w => { w with pend := [pend9 true] })) 97).pend.find? (fun x => x.epoch = 1 && x.tid = 9 && x.target = src15) = some (pend9 true) ∧ (pend9 true).again = true ∧ undispatched (wd (fun w => { w with pend := [pend9 true] })) 97 src15 9 = false ∧ (war (wd (fun w => { w with pend := [pend9 true] })) 97).halt = none) ∧
    (hearsPart live 97 = true ∧ 19 < 20 ∧ tallyFull live 97 1 = false ∧ limDue (war (lossEpoch 97 1 (openTally 97 1 live)) 97).timer msTicks (tget {} (war (lossEpoch 97 1 (openTally 97 1 live)) 97).lost 19) = true) ∧
    (srcOk src15 = true ∧ hearsCore live 97 src15 = true ∧ isWithdrawn live 97 src15 = false) := by decide +kernel

theorem witness_ScreenEvents_engines : recordHeard live 97 1 (engOf 6 0 0) ∧ engRslt (engOf 6 0 0) = 0 ∧ recordHeard live 97 1 (engOf 1 7 0) ∧ engRslt (engOf 1 7 0) = 7 ∧
    recordHeard live 97 1 (engOf 1 3 0) ∧ isInvariant (engOf 1 3 0) = false ∧ engRslt (engOf 1 3 0) ≠ 0 ∧ engRslt (engOf 1 3 0) ≠ 7 ∧
    recordHeard live 97 1 (engOf 5 6 3) ∧ isInvariant (engOf 5 6 3) = true ∧ engRslt (engOf 5 6 3) ≠ 0 ∧ engRslt (engOf 5 6 3) ≠ 7 := by
  unfold recordHeard; decide +kernel

/-- The site clause of the engine records is met wherever the ring map names an engine at index 127 (log entry 10). -/
theorem witness_ScreenEvents_site (h : (Config.ringKind 97 127).isSome = true) : okSite live (engineSite 97 127) = true := h

/-! ### Hypotheses of the rotation and test statements are met -/

def inClu (c : Nat) (k : Clu) : State := wd (fun w => { w with clus := [(c, k)] })

theorem witness_RotationEvents_yields : (let s := inClu 639 { rot := 1, cand := some 15 }
     (hearsCore s 97 src15 = true ∧ mayBegin s = true ∧ (war s 97).swap = none ∧ inTriage (war s 97) src15 = false ∧ slotOfPos s 97 639 15 ≠ none ∧ spareOf s 97 639 = some 16) ∧
     isWithdrawn s 97 src15 = false ∧ (cluOf s 97 639).rot = 1 ∧ (cluOf s 97 639).cand = some 15 ∧ windowOpen (war s 97) = false) ∧
    (let s := wd (fun w => { w with clus := [(639, { rot := 1, cand := some 15 })], droop := { open_ := true } })
     hearsCore s 97 src15 = true ∧ windowOpen (war s 97) = true ∧ (cluOf s 97 639).holdOver = false) ∧
    (let s : State := { live with defects := { tab := [(0, defEntry (coreSite 97 src15) 3 3 4 0 0)] } }
     (hearsCore s 97 src15 = true ∧ mayBegin s = true ∧ (war s 97).swap = none ∧ inTriage (war s 97) src15 = false ∧ slotOfPos s 97 639 15 ≠ none ∧ spareOf s 97 639 = some 16) ∧
     isWithdrawn s 97 src15 = true ∧ (cluOf s 97 639).rot ≤ 1 ∧ windowOpen (war s 97) = false) := by decide +kernel

/-- A swap of cluster 639 waits for its end. -/
def swapping (why : Nat) : State := wd (fun w => { w with swap := some { cluster := 639, src_ := 15, dst := 16, why } })

theorem witness_RotationEvents_swaps : (let s := swapping 0
     let u := afterSwap 97 { cluster := 639, src_ := 15, dst := 16, why := 0 } s
     (war s 97).swap = some { cluster := 639, src_ := 15, dst := 16, why := 0 } ∧ (coreOf u 97 src15).quarSet = none ∧ isWithdrawn u 97 src15 = false ∧
     (let v := modClu 97 639 (fun k => { k with rot := 6, cand := none }) (withdrawCore 97 (srcOf 639 16) 0x3FF 6 7 4
          (raiseW 97 (evAt evSwapFail (clusterSite 97 639) [(4, clusterSite 97 639), (2, 15), (2, 16)]) (modW 97 (fun w => { w with swap := none }) s)))
      (coreOf v 97 src15).quarSet = none ∧ isWithdrawn v 97 src15 = false)) ∧
    (war (swapping 0) 97).halt = none ∧ (war (swapping 2) 97).swap = some { cluster := 639, src_ := 15, dst := 16, why := 2 } := by decide +kernel

theorem witness_RotationEvents_timers : (hearsPart live 97 = true ∧ mayBegin live = true ∧ (cluOf live 97 639).rot = 0 ∧ spareOf live 97 639 = some 16 ∧ (serving live).isSome = true ∧
      (candidateOf live 97 639).isSome = true ∧ mayBegin { live with boot := { live.boot with wafReset := 1 } } = false) ∧ (cluOf (inClu 639 { rot := 1 }) 97 639).rot = 1 ∧ (war (inClu 639 { rot := 1 }) 97).halt = none ∧
    (let s : State := { wd (fun w => { w with clus := [(639, { rot := 1, cand := some 15 })], cores := [(src15, { job := some (1, 3) })] }) with
       sync := { objs := [(1, { type := 1, state := 2, tenant := 5, job := 3 })] }, test := { yields := [(3, 1000)] } }
     (cluOf s 97 639).rot = 1 ∧ (cluOf s 97 639).cand = some 15 ∧ (cluOf s 97 639).late = false ∧ liveJob s 97 (srcOf 639 15) = some 3 ∧ tfind s.test.yields 3 = some 1000 ∧ (war s 97).halt = none) ∧
    ((cluOf live 97 639).inDebt = false ∧ src15 / 32 < 640 ∧ liveJob live 97 src15 = none) ∧
    (let s : State := { wd (fun w => { w with objs := [(32767, { type := 1, state := 2, epoch := 4, elast := 9 })] }) with net := [.replay 97 32767 4 1] }
     s.net = .replay 97 32767 4 1 :: [] ∧ tfind (war s 97).objs 32767 = some { type := 1, state := 2, epoch := 4, elast := 9 } ∧ vacatedSlot s 97 32767 = none) := by decide +kernel

/-- A pattern under harvest, which no spare has run yet. -/
def harvested : State := { live with quarry := { index := [(0, { pattern1 with state := 1 })], slices := [(5, 77)] } }

theorem witness_TestEvents : (let s := wd (fun w => { w with dirWait := [src15] }); (war s 97).alive = true ∧ (war s 97).directed = none ∧ (war s 97).dirWait = src15 :: []) ∧
    (let s := wd (fun w => { w with cores := [(src15, { confirm := true })], map0 := [(coreSite 97 src15, stQuarantined)], map1 := [(coreSite 97 src15, stQuarantined)] })
     (war s 97).dirWait = [] ∧ mayBegin s = true ∧ (war s 97).startOpen = false ∧
     (war s 97).cores.find? (fun k => k.2.confirm && k.2.test.isNone && !harvesting s 97 k.1 && decide (beneath s 97 k.1 = stQuarantined)) = some (src15, { confirm := true })) ∧
    (hearsPart harvested 97 = true ∧ mayBegin harvested = true ∧ (cluOf harvested 97 639).rot = 0 ∧ mayRun harvested 97 0 1 = true ∧ spareOf harvested 97 639 = some 16) ∧
    (let t : TestRun := { step := 2, slice := 5, running := true }
     let s : State := { wd (fun w => { w with cores := [(src15, { test := some t })] }) with quarry := { slices := [(5, 77)] } }
     (coreOf s 97 src15).test = some t ∧ t.running = true ∧ t.step ≠ 4 ∧ expected s 97 t = 77 ∧ t.rep = none ∧ (78 : BitVec 64) ≠ 77) ∧
    (let t : TestRun := { step := 2, slice := 5, running := true, rep := some 9 }
     let s : State := { wd (fun w => { w with cores := [(src15, { test := some t })] }) with quarry := { slices := [(5, 77)] } }
     (coreOf s 97 src15).test = some t ∧ t.running = true ∧ t.rep = some 9 ∧ expected s 97 t = 77 ∧ (78 : BitVec 64) ≠ 77) ∧
    (let t : TestRun := { step := 4, running := true, pats := [(0, 1)] }; expected (wd (fun w => { w with patBuf := List.replicate 40 1 })) 97 t = 0x0101010101010101 ∧ t.why ≠ 4 ∧ t.why ≠ 6) := by decide +kernel

/-! ### Hypotheses of the sample statement are met -/

def withCap (c : Capture) : State := { live with tst := { caps := [(9, c)] } }
def inCell (x : Cell) (c : Capture) : State := { live with tst := { cells := [(31, x)], caps := [(9, c)] } }

theorem witness_SampleEvents_captures : (let s := withCap { warden := 97, kind := 3 }
     serving s = some .a ∧ capOf s 9 = some { warden := 97, kind := 3 } ∧ roomAt s 3 = some .a ∧
     s.tst.caps.any (fun e => e.2.asked && decide (classOf e.2.kind = classOf 3)) = false) ∧
    (let s : State := { live with tst := { caps := [(9, { warden := 97, kind := 3 })], shPagesA := 8192, shPagesB := 8192 } }; roomAt s 3 = none) ∧
    (let s : State := { withCap { warden := 97, kind := 3, stage := 1 } with net := [.grant 97 9] }; inFlight (.grant 97 9) s = true ∧ (capOf s 9).isSome = true) ∧
    (let c : Capture := { warden := 97, kind := 3, stage := 2 }
     capOf (withCap c) 9 = some c ∧ (layCapture c 0 none true []).isSome = true ∧ (layCapture c 0 none true []).map (fun x => x.flags.testBit 1) = some false ∧
     layCapture c (1#256 <<< 75) none true [] = none) ∧
    (let c : Capture := { warden := 97, kind := 5, stage := 2, cands := [(127, attach5)] }
     capOf (withCap c) 9 = some c ∧ passing c 0 = [(127, attach5)] ∧ passing { c with cands := [] } 0 = []) ∧
    (classOf 0 = 0 ∧ isSecond live 97 9 = false) ∧
    (let s : State := { live with tst := { caps := [(9, { warden := 97, kind := 3 }), (10, { warden := 97, kind := 3, asked := true })] } }
     s.tst.caps.any (fun e => e.2.asked && decide (classOf e.2.kind = classOf 3)) = true) ∧
    (let s : State := { withCap { warden := 97, kind := 3, stage := 3 } with net := [.capture 9] }; inFlight (.capture 9) s = true ∧ (capOf s 9).isSome = true) ∧
    (let s : State := { withCap { warden := 97, kind := 0, stage := 6 } with net := [.verdict 97 9] }
     serving s = some .a ∧ hasQuorum s .a = true ∧ s.net = .verdict 97 9 :: [] ∧ (capOf s 9).isSome = true) ∧
    (let s := withCap { kind := 5, stage := 4 }; capOf s 9 = some { kind := 5, stage := 4 } ∧ classOf 5 = 2 ∧ clockRuns s = true) := by decide +kernel

/-- A compressed section of b blocks whose bitmap has one bit and whose count is 0. -/
def badMeta (b : Nat) : List Byte := 1#8 :: List.replicate ((b + 7) / 8 + 1) 0#8

theorem leNat_zeros (n : Nat) : leNat (List.replicate n 0#8) = 0 := by
  induction n with
  | zero => rfl
  | succ n ih => rw [List.replicate_succ, leNat, ih]; rfl

theorem badMeta_count (b : Nat) (hb : 1 ≤ b) : fieldAt (badMeta b) ((b + 7) / 8) 2 = 0 := by
  obtain ⟨k, hk⟩ : ∃ k, (b + 7) / 8 = k + 1 := ⟨(b + 7) / 8 - 1, by omega⟩
  unfold fieldAt slice badMeta
  rw [hk]; simp [leNat, leNat_zeros]

theorem badMeta_bits (b : Nat) (hb : 1 ≤ b) : leNat (slice (badMeta b) 0 ((b + 7) / 8)) = 1 := by
  obtain ⟨k, hk⟩ : ∃ k, (b + 7) / 8 = k + 1 := ⟨(b + 7) / 8 - 1, by omega⟩
  unfold slice badMeta
  rw [hk]; simp [leNat, List.take_replicate, leNat_zeros]

theorem badMeta_fault (b : Nat) (hb : 1 ≤ b) : (sparseFault b (badMeta b)).isSome = true := by
  unfold sparseFault
  dsimp only
  rw [badMeta_count b hb, badMeta_bits b hb]
  have h : ((List.range b).filter (fun i => Nat.testBit 1 i)).length ≠ 0 := by
    have : 0 ∈ (List.range b).filter (fun i => Nat.testBit 1 i) := by simp; omega
    exact fun h => by rw [List.length_eq_zero_iff] at h; rw [h] at this; simp at this
  rw [if_pos h]; rfl

theorem tileBlocks_range (r k : Nat) : 1 ≤ tileBlocks r k ∧ tileBlocks r k ≤ 4096 := by unfold tileBlocks; omega

/-- A capture without a descriptor whose compressed section fails at the store, whatever number of blocks the tile has. -/
theorem witness_SampleEvents_store : (let c : Capture := { warden := 97, kind := 3, stage := 2 }
     let body := badMeta (tileBlocks 1 2000)
     ∃ x, layCapture c ((1#256 <<< 73) ||| (1#256 <<< 8) ||| (2000#256 <<< 40)) none true body = some x ∧ x.flags = 2 ∧ body.length ≤ 1048576 ∧
       (sparseFault (tileBlocks x.rows x.k) (metaSection x false)).isSome = true) := by
  have hr := tileBlocks_range 1 2000
  have hl : (badMeta (tileBlocks 1 2000)).length = (tileBlocks 1 2000 + 7) / 8 + 2 := by simp [badMeta]
  have hz : sparseLen (tileBlocks 1 2000) 2000 (badMeta (tileBlocks 1 2000)) = (badMeta (tileBlocks 1 2000)).length := by
    rw [hl]; unfold sparseLen; rw [badMeta_count _ hr.1]; omega
  let h0 : Capture := { warden := 97, kind := 3, stage := 2, rows := 1, k := 2000, flags := 2 }
  have hs : laySections h0 (noDesc h0) true (badMeta (tileBlocks 1 2000)) =
      some { h0 with lena := (badMeta (tileBlocks 1 2000)).length, lenb := 0, leno := 0 } := by
    have e1 : outCount h0 (noDesc h0) = 0 := rfl
    have e2 : biasLen h0 (noDesc h0) = 0 := by decide
    have e3 : isRow h0 (noDesc h0) = false := rfl
    have e4 : sectLen h0.fmta (h0.rows * h0.k) = 2000 := by simp [sectLen, fmtSize, h0]
    have e5 : sectLen h0.fmtb (h0.k * h0.cols) = 0 := rfl
    have e6 : h0.flags.testBit 1 = true := by decide
    have e7 : h0.flags.testBit 3 = false := by decide
    have e8 : tileBlocks h0.rows h0.k = tileBlocks 1 2000 := rfl
    unfold laySections
    dsimp only
    rw [e1, e2, e3, e4, e5, e6, e7, e8, hz, if_neg (by decide), if_neg (by decide), if_pos rfl, if_pos (by omega), if_pos (by simp)]; rfl
  refine ⟨{ h0 with lena := (badMeta (tileBlocks 1 2000)).length, lenb := 0, leno := 0, body := badMeta (tileBlocks 1 2000) }, ?_, rfl, by omega, badMeta_fault _ hr.1⟩
  show some { layPlain h0 true (badMeta (tileBlocks 1 2000)) with body := badMeta (tileBlocks 1 2000) } = _
  unfold layPlain; rw [hs]

theorem witness_SampleEvents_cells : 15 < 16 ∧ cellKey .b 15 = 31 ∧ (cellOf (inCell { kat := 1 } {}) 31).kat = 1 ∧
    (let s := inCell { work := some { cid := 9, cls := 1 } } { kind := 3, stage := 5 }
     (cellOf s 31).work = some { cid := 9, cls := 1 } ∧ 1 ≠ 2 ∧ capOf s 9 = some { kind := 3, stage := 5 }) ∧
    (let s := inCell { work := some { cid := 9, cls := 2, k := { status := .halted } } } { kind := 5, stage := 5 }
     (cellOf s 31).work = some { cid := 9, cls := 2, k := { status := .halted } } ∧ (KStatus.halted) ≠ .running ∧ capOf s 9 = some { kind := 5, stage := 5 }) := by decide +kernel

/-- A certificate triage of tile 9 of epoch 1, whose capture is 9. -/
def tri9 (v : Option (List Judged)) : Triage := { kind := 1, tid := 9, epoch := 1, o := src15, sigO := 0, o2 := { core := src15 }, cid := 9, verd := v }

theorem witness_SampleEvents_limits :
    (let s := wd (fun w => { w with triages := [tri9 (some [])] })
     clockRuns s = true ∧ (war s 97).triages.find? (fun t => decide (t.tid = 9) && decide (t.epoch = 1) && !t.limit) = some (tri9 (some [])) ∧ (tri9 (some [])).verd.isSome = true) ∧
    (let s : State := { wd (fun w => { w with triages := [tri9 none] }) with tst := { caps := [(9, { kind := 0, stage := 4 })] } }
     clockRuns s = true ∧ (war s 97).triages.find? (fun t => decide (t.tid = 9) && decide (t.epoch = 1) && !t.limit) = some (tri9 none) ∧ (tri9 none).verd = none ∧ (capOf s (tri9 none).cid).isSome = true ∧ (war s 97).halt = none) := by decide +kernel

/-! ### Hypotheses of the synchronisation statement are met -/

def netS (m : Msg) (s : State) : State := { s with net := [m] }

/-- Object 32767 of the Primary, as given. -/
def synced (x : SyncObj) : State := { live with sync := { objs := [(32767, x)] } }

/-- Object 32767 at the Primary and its copy at warden 97. -/
def copied (x : SyncObj) (l : LocalObj) : State := { wd (fun w => { w with objs := [(32767, l)] }) with sync := { objs := [(32767, x)] } }

theorem witness_SyncEvents_arrivals : (arrivalSrc src15 = true ∧ hearsCore live 97 src15 = true ∧ (objOf live 32767).state = 0) ∧
    ((objOf (synced { type := 2, state := 1 }) 32767).state = 1 ∧ (objOf (synced { type := 2, state := 1 }) 32767).type = 2 ∧ hearsCore (synced { type := 2, state := 1 }) 97 src15 = true) ∧
    (objOf (synced { type := 3, state := 1 }) 32767).type = 3 ∧
    (let s := copied { type := 1, state := 2, epoch := 4, elast := 9, part := 1 } { type := 1, state := 2, epoch := 4, elast := 9, parts := 1 }
     let v := modCore 97 src15 (fun c => { c with job := some (32767, 0) }) s
     hearsCore s 97 src15 = true ∧ (objOf s 32767).type = 1 ∧ tfind (war v 97).objs 32767 = some { type := 1, state := 2, epoch := 4, elast := 9, parts := 1 } ∧ (war s 97).lease.isSome = true ∧
     5 ≠ 4 ∧ 0 < 1 ∧ (war { s with wardens := tset s.wardens 97 { war s 97 with lease := none } } 97).lease = none) ∧
    (tfind (war (copied { type := 1, state := 2, epoch := 4 } { type := 1, state := 2, epoch := 4, elast := 9, parts := 1, arr := 1 }) 97).objs 32767).map (fun l => decide (l.parts ≤ l.arr)) = some true := by
  decide +kernel

theorem witness_SyncEvents_primary : (let x : SyncObj := { type := 1, state := 2, epoch := 4, elast := 9, part := 1, gate := 1#128 <<< 97 }
     let s := netS (.arrival 97 32767 4) (synced x)
     (serving s).isSome = true ∧ s.net = .arrival 97 32767 4 :: [] ∧ objOf s 32767 = x ∧ objAt s 4 = some (32767, x) ∧ x.gate.getLsbD 97 = true ∧ objAt s 10 = none ∧
     (netS (.clean 97 4 0) s).net = .clean 97 4 0 :: [] ∧ (netS (.failure 97 4 { kinds := 1, site := 0 }) s).net = .failure 97 4 { kinds := 1, site := 0 } :: [] ∧
     ({ kinds := 1, site := 0 } : FailRep).again = false ∧ x.fail = false ∧ (1 : BitVec 8) ≠ fkTallyFull ∧ objAt s 9 = some (32767, x) ∧ x.epoch ≠ 9 ∧ x.gate.getLsbD 96 = false ∧ ({ kinds := 1, site := 0, again := true } : FailRep).again = true ∧
     (netS (.engTriage 97 9 4) s).net = [.engTriage 97 9 4] ∧ (netS (.triage 97 9 4 true false []) s).net = .triage 97 9 4 true false [] :: [] ∧
     reportOut { s with net := [] } 97 4 9 = false ∧ (97, 9) ∈ (gatherOf { s with sync := { s.sync with gather := [(32767, { opened := [(97, 9)] })] } } 32767).opened) ∧
    (let s := netS (.post 97 1 32767) (synced { type := 2, state := 1, count := 4294967295 })
     s.net = .post 97 1 32767 :: [] ∧ (objOf s 32767).type = 2 ∧ (objOf s 32767).state ≠ 4 ∧ (objOf s 32767).count = 4294967295) ∧
    (let s := netS (.wait 97 32767 0) (synced { type := 3, state := 1 }); s.net = .wait 97 32767 0 :: [] ∧ (objOf s 32767).type = 3 ∧ (objOf s 32767).state ≠ 4) := by decide +kernel

theorem witness_SyncEvents_wardens : (netS (.query 97 32767 4) live).net = .query 97 32767 4 :: [] ∧ (netS (.tfAck 97 4) live).net = .tfAck 97 4 :: [] ∧
    (let s := wd (fun w => { w with rsn := 9 })
     (war s 97).alive = true ∧ (war s 97).lease.isSome = true ∧ (war s 97).early = [] ∧ (netS (.release 97 32767 0 0 0) s).net = .release 97 32767 0 0 0 :: [] ∧
     (0 < 9 ∧ 9 ≤ (war s 97).rsn) ∧ ((war s 97).rsn < 12 ∧ 11 ≠ (war s 97).rsn) ∧ ((war s 97).rsn < 12 ∧ 9 = (war s 97).rsn)) ∧
    (let s := wd (fun w => { w with tfRep := [(4, 0)], lease := none }); Msg.tfAck 97 4 ∉ s.net ∧ (war s 97).alive = true ∧ (war s 97).tfRep.any (fun r => r.1 = 4) = true ∧ (war s 97).lease = none) ∧
    (netS (.tclose 97 4) live).net = .tclose 97 4 :: [] ∧ (netS (.postAck 97 1) live).net = .postAck 97 1 :: [] ∧
    (let s := netS (.clear 97 4 [9]) (wd (fun w => { w with tallies := [{ epoch := 4, out := 1, triFails := [(9, 1)] }] }))
     s.net = .clear 97 4 [9] :: [] ∧
     tallyOf (war (modTally 97 4 (fun t => { t with out := t.out - (t.triFails.filter (fun y => y.1 ∈ [9])).length, triFails := t.triFails.filter (fun y => y.1 ∉ [9]) }) s) 97) 4 = some { epoch := 4 }) := by decide +kernel

/-! ### Hypotheses of the observation, trace and Strata statements are met -/

/-- A scan-out record of partition 97 of a class and a length in words, its body zero. -/
def scanRec (cls n : Nat) : List Byte := leBytes 1 cls ++ leBytes 1 n ++ leBytes 2 97 ++ leBytes 4 0 ++ List.replicate (8 * (n - 1)) 0

theorem witness_ObservationEvents : (hearsPart live 97 = true ∧ 19 < 20 ∧ tapOk 97 (tapOf 8192) = true ∧ tapOk 97 (tapOf 0x2001) = false) ∧
    (let s := wd (fun w => { w with trcOn := 4 }); traceOn s 97 2 = true ∧ (war s 97).haltReq = false ∧ (war s 97).halt = none ∧ (war s 97).pcsWait = []) ∧
    (let s := wd (fun w => { w with pcsWait := [(19, 544)] }); isHalted s 97 = false ∧ tget 0 (war s 97).pcsWait 19 = 543 + 1) ∧
    (isHalted (wd (fun w => { w with halt := some 3 })) 97 = true ∧ bitsIn (0x30000000000000#64) 53 52 = 3) ∧
    (let s : State := netS (.cairn 99) live
     s.net = .cairn 99 :: [] ∧ 99 ∉ s.cairn.passed ∧ 99 ∈ ({ s with cairn := { passed := [99] } } : State).cairn.passed ∧ nodeUp s 99 = true ∧ nodeUp { s with vein := { nodesOut := [99] } } 99 = false ∧ partOfNode 99 = some 97 ∧ partOfNode 55 = none ∧ hubOfNode 55 = some .b) ∧
    ((serving live).isSome = true ∧ (netS (.halted 97 5) live).net = .halted 97 5 :: []) ∧ ({ live with cairn := { state := 1 } } : State).cairn.state = 1 ∧
    (let s : State := { live with cairn := { state := 3, scanned := List.range 97 } }; toScan s .a = 97 :: [] ∧ s.cairn.state = 3 ∧ scanOk s 97 ((trecBytes { cls := 0x20, len := 5, src := 97, wt := 0, body := (List.range 4).map (fun i => w64 (fieldAt (cutHead s 97 0 15) (8 * i) 8)) }) :: List.replicate 15 (scanRec 0x24 32)) = true ∧
      scanOk s 97 [scanRec 0x24 32] = false ∧ scanOk s 97 (List.replicate 17 (scanRec 0x20 2)) = false) ∧
    (let s := netS (.resume 97) (wd (fun w => { w with halt := some 3 })); s.net = .resume 97 :: [] ∧ (war s 97).alive = true ∧ (war s 97).halt.isSome = true) ∧
    ({ live with gov := { started := true } } : State).gov.started = true ∧ clockRuns ({ live with gov := { started := true } } : State) = true := by decide +kernel

def trec1 : TRec := { cls := 0x10, len := 2, src := 97, wt := 0, body := [1] }
def withTrace (b : TraceBuf) : State := withA (fun x => { x with trace := b })

theorem witness_TraceAndStrataEvents : (let s := wd (fun w => { w with trcOn := 2, ccOn := 8 }); hearsPart s 97 = true ∧ traceOn s 97 1 = true ∧ 3 < 4 ∧ (war s 97).ccOn.getLsbD 3 = true) ∧
    (let s := wd (fun w => { w with staging := [trec1] }); (war s 97).staging = trec1 :: [] ∧ drainHub s 97 = some .a ∧ (war s 97).alive = true) ∧
    ((traceOf (withTrace { state := 4 }) .a).state = 4 ∧ (traceOf (withTrace { state := 4 }) .a).recs = []) ∧ ((traceOf (withTrace { state := 1 }) .a).state ≠ 0 ∧ (hubOf (withTrace { state := 1 }) .a).refLost = false) ∧
    (tget {} ({ live with vein := { nodes := [(99, { drops := [(97, 1, 16)] })] } } : State).vein.nodes 99).drops = [(97, 1, 16)] ∧
    ((hubOf live .a).role ≠ .down ∧ (hubOf live .a).rstLow = false ∧ (hubOf live .a).refLost = false ∧ laneUp live .a 3 = true ∧ tget 0 (traceOf live .a).sinceAlign 3 < 1023 ∧ (traceOf live .a).scan = [] ∧
      drainable (traceOf live .a) = []) ∧ 1023 ≤ tget 0 (traceOf (withTrace { sinceAlign := [(3, 1023)] }) .a).sinceAlign 3 ∧
    drainable (traceOf (withTrace { state := 1, recs := [trec1] }) .a) ≠ [] ∧ (97 < 98 ∧ (war live 97).halt = none) ∧
    (let s := wd (fun w => { w with evs := [(65535, ev evYieldLate [])] })
     (serving s).isSome = true ∧ (war s 97).alive = true ∧ (war s 97).evs.find? (fun x => x.1 = 65535) = some (65535, ev evYieldLate [])) ∧
    (tget [] live.strata.early 97 = [] ∧ nextEvent live 97 = 0) ∧ (netS (.evAck 97 65535) live).net = .evAck 97 65535 :: [] ∧
    (firstHeld ({ live with strata := { early := [(97, [(3, ev evYieldLate [])])] } } : State) 97).isSome = true ∧
    (({ live with strata := { frozen := true } } : State).strata.frozen = true ∧ clockRuns ({ live with strata := { frozen := true } } : State) = true ∧ clockRuns State.reset = false) ∧
    (let s := withB (fun x => { x with role := .secondary })
     serving s = some .a ∧ (hubOf s (other .a)).role = .secondary ∧ (hubOf s (other .a)).refLost = false ∧ (hubOf s (other .a)).time ≤ (hubOf s .a).time) := by decide +kernel

/-! ### Loads whose signatures the algorithms accept

The algorithms have no value in the model (log entry 5), so these hypotheses are met wherever the algorithms accept. -/

def manifestBytes (kind total : Nat) : List Byte :=
  leBytes 4 0x4D465354 ++ leBytes 2 1 ++ leBytes 1 kind ++ leBytes 1 0 ++ leBytes 4 7 ++ leBytes 2 0 ++ leBytes 2 0 ++ leBytes 4 1 ++ leBytes 4 0 ++ leBytes 48 0 ++
  leBytes 56 0 ++ leBytes 4 1 ++ [5] ++ leBytes 96 9 ++ List.replicate total 1

theorem manifest_ok {kind : Nat} {b : List Byte} (hv : ∀ b c g, Config.sigVerifies b c g = true) (hc : ∀ c, Config.chainOk c = true) (hf : manifestFields kind b.length b = true) :
    manifestFault kind b = 0 := by
  unfold manifestFault
  simp [hf, hv, hc]

theorem witness_BootCommands_signed (hv : ∀ b c g, Config.sigVerifies b c g = true) (hc : ∀ c, Config.chainOk c = true) (hd : Config.sha384 [1] = 0) :
    Met bootCorefwRow (cmdOf 1 0x0A01 0 (manifestBytes 1 0) 2) live (fun c s => loadOf s 0x0A01 0 = none ∧ parN c.pk 4 4 = 0 ∧ (payOf c.pk).length ≤ 4324 ∧ isLast c.pk = true ∧
      manifestFault 1 (payOf c.pk) = 0 ∧ fieldAt (payOf c.pk) 12 2 = s.quarry.stepping) ∧
    Met bootFwloadRow (cmdOf 0 0x0A04 0 (manifestBytes 0 1) 2) live (fun c s => loadOf s 0x0A04 0 = none ∧ parN c.pk 4 4 = 0 ∧ (payOf c.pk).length ≤ 1048576 ∧ isLast c.pk = true ∧
      manifestFault 0 (payOf c.pk) = 0 ∧ Config.sha384 ((payOf c.pk).drop (manifestLen (payOf c.pk))) = manifestDigest (payOf c.pk)) :=
  ⟨met (by decide +kernel) ⟨by decide +kernel, by decide +kernel, by decide +kernel, by decide +kernel, manifest_ok hv hc (by decide +kernel), by decide +kernel⟩,
   met (by decide +kernel) ⟨by decide +kernel, by decide +kernel, by decide +kernel, by decide +kernel, manifest_ok hv hc (by decide +kernel), by
    rw [show (payOf (callerFor bootFwloadRow (cmdOf 0 bootFwloadRow.op 0 (manifestBytes 0 1) 2) .a live).pk).drop
      (manifestLen (payOf (callerFor bootFwloadRow (cmdOf 0 bootFwloadRow.op 0 (manifestBytes 0 1) 2) .a live).pk)) = [1] by decide +kernel, hd]
    decide +kernel⟩⟩

def variantBytes : List Byte :=
  leBytes 4 0x56524E54 ++ leBytes 2 0x62 ++ leBytes 2 0x0B01 ++ leBytes 8 0 ++ leBytes 8 0 ++ leBytes 13 (2 ^ 98 - 1) ++ leBytes 6 0 ++ leBytes 1 16 ++ leBytes 1 4 ++ leBytes 2 256 ++
  leBytes 17 0 ++ leBytes 4 1 ++ [5] ++ leBytes 96 9

theorem witness_KeyCommands_signed (hv : ∀ b c g, Config.sigVerifies b c g = true) (hc : ∀ c, Config.chainOk c = true) :
    Met keyVariantRow (cmdOf 0 0x0B0A 0 variantBytes 2) live (fun c s => loadOf s 0x0B0A 0 = none ∧ parN c.pk 4 4 = 0 ∧ (payOf c.pk).length ≤ 4260 ∧ isLast c.pk = true ∧
      variantFault (dropLoad 0x0B0A 0 s) (payOf c.pk) = 0) :=
  met (by decide +kernel) ⟨by decide +kernel, by decide +kernel, by decide +kernel, by decide +kernel, by
    unfold variantFault
    simp only [hv, hc, Bool.not_true, Bool.false_eq_true, if_false]
    decide +kernel⟩

/-- The image of one HALT, of tenant 5's root. -/
def imageBytes : List Byte :=
  leBytes 4 0x4C4E524B ++ leBytes 2 1 ++ leBytes 2 1 ++ leBytes 4 15000000 ++ leBytes 1 0 ++ leBytes 19 0 ++ leBytes 4 1 ++ leBytes 92 0 ++ leBytes 8 (2 ^ 56) ++ [5] ++ leBytes 96 9

def rooted : State := { rented with keys := { rented.keys with roots := [{ tenant := 5, flags := 1, key := [7] }] } }

theorem witness_TouchstoneCommands_signed (hv : ∀ b c g, Config.sigVerifies b c g = true) (hs : ∀ c k, Config.signedBy c k = true) : ∃ k,
    Met tstoneKloadRow (cmdOf 2 0x0410 (pb 0 62) imageBytes 2) rooted (fun c s => parB c.pk 0 < 64 ∧ tfind s.tst.kernels (parB c.pk 0) = none ∧ loadOf s 0x0410 (parB c.pk 0) = none ∧
      parN c.pk 4 4 = 0 ∧ (payOf c.pk).length ≤ 10464 ∧ isLast c.pk = true ∧ checkImage (dropLoad 0x0410 (parB c.pk 0) s) c.tenant (payOf c.pk) = .inl k) :=
  ⟨{ tenant := 5, budget := 15000000, charge := false, inputs := false, code := [BitVec.ofNat 64 (2 ^ 56)], root := [7], chargeOk := false, name := List.replicate 16 0 },
   met (by decide +kernel) ⟨by decide +kernel, by decide +kernel, by decide +kernel, by decide +kernel, by decide +kernel, by decide +kernel, by
    unfold checkImage
    simp only [hv, hs, Bool.and_true, Bool.not_true, Bool.false_eq_true, if_false]
    decide +kernel⟩⟩

/-! ### Ill-formed commands are refused -/

theorem test_wf_packet : (Instr.hubNop { cmdOf 0 0x0101 0 [] 0 with payload := List.replicate 4097 0 }).wf = false := by decide +kernel
theorem test_wf_word : (Instr.queueMemoryWrite .a 0 0 520 0 0xFF).wf = false := by decide
theorem test_wf_warden : (Instr.wardenStart 98 { linkBase := 0, linkCount := 0, seeds := List.replicate 21 1, portsOk := 15 }).wf = false ∧
    (Instr.wardenStart 0 { linkBase := 64, linkCount := 0, seeds := List.replicate 21 1, portsOk := 15 }).wf = false ∧
    (Instr.wardenStart 0 { linkBase := 0, linkCount := 16, seeds := List.replicate 21 1, portsOk := 15 }).wf = false ∧
    (Instr.wardenStart 0 { linkBase := 0, linkCount := 0, seeds := List.replicate 20 1, portsOk := 15 }).wf = false := by decide
theorem test_wf_partition : (Instr.leaseLapse 98).wf = false ∧ (Instr.powerSensorStuck 98 0).wf = false ∧ (Instr.traceRecord .a 98).wf = false := by decide
theorem test_wf_sensor : (Instr.powerSensorStuck 0 40).wf = false := by decide
theorem test_wf_core : (Instr.lockstepMasked .a 4).wf = false := by decide
theorem test_wf_causes : (Instr.hubFailover .a 0).wf = false ∧ (Instr.hubFailover .a 3).wf = false ∧ (Instr.wardenFailed 0 3).wf = false := by decide
theorem test_wf_flit : (Instr.veinFlit 100 0 (flitTo 3 0 1)).wf = false ∧ (Instr.veinFlit 0 5 (flitTo 3 0 1)).wf = false ∧ (Instr.veinFlit 0 0 (flitTo 5 0 1)).wf = false ∧
    (Instr.veinFlit 0 0 (flitTo 3 100 1)).wf = false ∧ (Instr.veinFlit 0 0 { flitTo 3 0 1 with vc := 2 }).wf = false ∧ (Instr.veinFlitRefused 0 4 (flitTo 3 0 1)).wf = false := by decide
theorem test_wf_channel : (Instr.sentryLookup 0 16 0).wf = false ∧ (Instr.memoryDrained 0 2).wf = false := by decide
theorem test_wf_group : (Instr.certificate 0 20 0 0 0).wf = false ∧ (Instr.counterTap 0 20 0).wf = false := by decide
theorem test_wf_source : (Instr.certificate 0 0 (BitVec.ofNat 15 (640 * 32)) 0 0).wf = false ∧ (Instr.certificate 0 0 17 0 0).wf = false := by decide
theorem test_wf_cluster : (Instr.rotationTimer 0 640).wf = false ∧ (Instr.fractionUpdate 0 640).wf = false := by decide
theorem test_wf_cell : (Instr.quantumEnd .a 16).wf = false ∧ (Instr.add ⟨.b, 16⟩ 1 1 1).wf = false := by decide
theorem test_wf_lane : (Instr.tstoneCellCheck .a 0 64).wf = false ∧ (Instr.traceFrameSent .a 4).wf = false := by decide
theorem test_wf_bank : (Instr.bankIdle 0 128).wf = false ∧ (Instr.memoryPoison 0 0 0 64).wf = false ∧ (Instr.scrubOrderDone 0 0 (some 64)).wf = false := by decide
theorem test_wf_link : (Instr.linkDown 48).wf = false := by decide
theorem test_wf_self_test : (Instr.selfTestDone 0 [128] []).wf = false ∧ (Instr.selfTestDone 0 [] [4]).wf = false := by decide
theorem test_wf_node : (Instr.cairnArrival 100 0).wf = false ∧ (Instr.traceLossRecordTick 100).wf = false ∧ (Instr.controlCoreTrace 0 4 0).wf = false := by decide
theorem test_wf_scan : (Instr.scanoutPull .a [List.replicate 264 0]).wf = false ∧ (Instr.scanoutPull .a [List.replicate 7 0]).wf = false ∧
    (Instr.scanoutPull .a (List.replicate 17 [])).wf = false := by decide +kernel

/-! ### One step -/

/-- What holds of the state a command answers. -/
def after (i : Instr) (s : State) (P : State → Bool) : Bool := match exec i s with | .next t => P t | _ => false

/-- A sample of the kernel in the state a command answers. -/
def sampleAfter (i : Instr) (w : BitVec 64) (ks : KState) (P : KState → Bool) : Bool :=
  after i (sampled w ks none) (fun t => match (cellOf t 31).work with | some w => P w.k | none => false)

/-- The check value of CRC-32C: the digits 1 to 9 (Table 17.1 names the polynomial). -/
theorem test_crc : crc32c [0x31, 0x32, 0x33, 0x34, 0x35, 0x36, 0x37, 0x38, 0x39] = 0xE3069283 := by decide +kernel

/-- R8, Table 0.5: the site of core 16 of cluster 639 of partition 97 is 97 in bits 31-25, 639 in bits 24-15, 16 in bits 14-10 and ones below. -/
theorem test_site : coreSite 97 (639 * 32 + 16) = 97 * 2 ^ 25 + 639 * 2 ^ 15 + 16 * 2 ^ 10 + 1023 := by decide

/-- Table 7.3: X[d] = X[a] + X[b] wraps, and the destination may be a source. -/
theorem test_add_wraps : sampleAfter (.add ⟨.b, 15⟩ 1 1 1) (kword 0x11 1 1 1 0 0 0 0) { x := [(1, 0x8000000000000001)] } (fun k => decide (xRead k 1 = 2)) = true := by decide +kernel
/-- Table 7.3: LI sign-extends; X0 stays 0 (Table 7.1). -/
theorem test_li_sign : sampleAfter (.li ⟨.b, 15⟩ 3 0x80000000) (kword 0x10 3 0 0 0 0 0 0x80000000) {} (fun k => decide (xRead k 3 = 0xFFFFFFFF80000000)) = true := by decide +kernel
theorem test_li_zero : sampleAfter (.li ⟨.b, 15⟩ 0 5) (kword 0x10 0 0 0 0 0 0 5) {} (fun k => decide (xRead k 0 = 0) && decide (k.pc = 1)) = true := by decide +kernel
/-- Table 7.3: DJNZ that reaches 0 falls through, another jumps. -/
theorem test_djnz_ends : sampleAfter (.djnz ⟨.b, 15⟩ 2 9) (kword 0x05 2 0 0 0 0 0 9) { x := [(2, 1)], pc := 3 } (fun k => decide (xRead k 2 = 0) && decide (k.pc = 4)) = true := by decide +kernel
theorem test_djnz_jumps : sampleAfter (.djnz ⟨.b, 15⟩ 2 9) (kword 0x05 2 0 0 0 0 0 9) { x := [(2, 2)], pc := 3 } (fun k => decide (xRead k 2 = 1) && decide (k.pc = 9)) = true := by decide +kernel
/-- R171: the budget is reached at its last step. -/
theorem test_budget : sampleAfter (.nop ⟨.b, 15⟩) (kword 0x00 0 0 0 0 0 0 0) { steps := 99 } (fun k => decide (k.status = .trapped 1)) = true := by decide +kernel

/-- Table 18.3: a W1C write clears the bits written as 1 and no other. -/
theorem test_irq_w1c : after (.irqStat .a 0x5 0xFF) (withA (fun x => { x with irqStat := 0xF })) (fun t => decide (t.hubA.irqStat = 0xA)) = true := by decide +kernel
/-- R43: PORTERR saturates. -/
theorem test_porterr_saturates : after (.irqStat .a 1 0x7F) (withA (fun x => { x with portErr := 0xFFFFFFFF })) (fun t => decide (t.hubA.portErr = 0xFFFFFFFF) && t.hubA.irqStat.getLsbD 18) = true := by
  decide +kernel
/-- R449: byte enables. -/
theorem test_queue_memory : after (.queueMemoryWrite .a 7 1 519 0x1122334455667788 0x81) live (fun t =>
    decide (tget 0 (queueOf t 7).mem (4160 + 8 * 519) = 0x88) && decide (tget 0 (queueOf t 7).mem (4160 + 8 * 519 + 7) = 0x11) && decide ((queueOf t 7).mem.length = 2)) = true := by decide +kernel
/-- R417, R430: the answer of HUB.NOP has its TAG, status DONE and FINAL. -/
theorem test_hub_nop : after (.hubNop (cmdOf 3 0x0101 0 [] 0)) live (fun t => decide ((replyAt t 3 0).map (fun r => (r.tag, r.status, r.final)) = some (7, 0, true))) = true := by decide +kernel
/-- Table 17.3, order 1: a packet whose CRC is wrong is answered BAD_PARAM with EOFF 60. -/
theorem test_bad_crc : after (.hubNop { cmdOf 3 0x0101 0 [] 0 with tag := 8 }) live (fun t => decide ((replyAt t 3 0).map (fun r => (r.status, r.eoff)) = some (stBadParam, 60))) = true := by decide +kernel
/-- R251: SYNC.SIGNAL past 2^32 - 1 sets the count to 2^32 - 1 and is DONE. -/
theorem test_signal_saturates : after (.syncSignal (cmdOf 2 0x0804 (pb 0 2 + pb 4 0xFFFFFFFF) [] 0)) rented
    (fun t => decide ((objOf t 2).count = 4294967295) && decide ((replyAt t 2 0).map (fun r => r.status) = some 0)) = true := by decide +kernel
/-- Table 2.5: a core of a live partition is answered from the map, one of another partition with 00. -/
theorem test_sentry : after (.sentryLookup 97 15 (BitVec.ofNat 32 (coreSite 97 15))) live (fun t => decide (t.outs.head? = some (.answer 97 15 1))) = true ∧
    after (.sentryLookup 97 15 (BitVec.ofNat 32 (coreSite 96 15))) live (fun t => decide (t.outs.head? = some (.answer 97 15 0))) = true := by decide +kernel
/-- R25 to R29: from node 0 to node 99 a flit goes east first. -/
theorem test_route : routeFlit live 0 (flitTo 3 99 1) = some (0, 0) := by decide +kernel
/-- R67: a tick is 10 ns of both hubs and one count of a live warden's timer. -/
theorem test_tick : (match step live with | .next t => decide (t.hubA.time = 10) && decide ((war t 97).timer = 1) | _ => false) = true := by decide +kernel

/-! ### The manual's worked cases -/

/-- Chapter 0: the spare core of cluster 512 in partition 37, and memory channel 1 of partition 5. -/
theorem test_worked_sites : coreSite 37 (512 * 32 + 16) = 0x4B0043FF ∧ chanSite 5 1 = 0x0BFF7C81 ∧ bankSite 22 69 = 0x2DFF7D45 := by decide

/-- Chapter 1: partitions 37 and 60 are nodes 37 and 62. -/
theorem test_worked_nodes : nodeOfPart 37 = 37 ∧ nodeOfPart 60 = 62 ∧ nodeOfPart 97 = 99 := by decide

/-- Chapter 3: of transients at 1,000 s, 50,000 s and 87,400 s two lie in the window at 87,400 s; with one at 90,000 s, three do. -/
theorem test_worked_transients : (let s : State := { live with gov := { log := [(coreSite 70 5, 1000 * 10 ^ 9), (coreSite 70 5, 50000 * 10 ^ 9), (coreSite 70 5, 87400 * 10 ^ 9)] } }
    inWindow s (coreSite 70 5) (87400 * 10 ^ 9) = 2 ∧ inWindow { s with gov := { log := s.gov.log ++ [(coreSite 70 5, 90000 * 10 ^ 9)] } } (coreSite 70 5) (90000 * 10 ^ 9) = 3) := by decide +kernel

/-- A cluster of partition 40 under Audit, with this debt. -/
def auditCluster (d : Rat) : ClIn := { p := 40, c := 0, a := 1, busy := 1, lam := qZero, d, w := 0, prob := false, fl := 16, kx := kShd, real := 1 }

/-- Chapter 3, the debt of a non-yielding job: at G = 1 an indebted cluster has 32 steps and another 17. -/
theorem test_worked_debt : stepsFor (profileOf 1) 1 (auditCluster (16 / 1000000000)) = 32 ∧ stepsFor (profileOf 1) 1 (auditCluster 0) = 17 := by decide +kernel

/-- Chapter 4: a deviation of 0.0021 for a bound of 0.0383258 is class 4, one of 4.0 class 15; chapter 6: ratios 0.0386 and 2.025 are classes 4 and 10. -/
theorem test_worked_classes : devClass (21 / 10000) (383258 / 10000000) = 4 ∧ devClass 4 (383258 / 10000000) = 15 ∧
    devClass (12 / 10000) (311141 / 10000000) = 4 ∧ devClass (630 / 10000) (311141 / 10000000) = 10 := by decide +kernel

/-- Chapter 6: the DOT descriptor with L = 256, a pairwise tree, exact products and a bias, at K = 4,096: m = 260. -/
theorem test_worked_bound : boundM { boundDesc with fmta := 2, fmtb := 2, bias := true, l := 256 } 4096 = 260 := by decide +kernel

/-- Chapter 7, kernel two: its words are valid instructions of a 14-instruction kernel. -/
theorem test_worked_kernel_words : ([0x141000200000001C, 0x1030000000000040, 0x4010000044800000, 0x2683110000000010, 0x030800000000000C, 0x2000000000000000, 0x2303100000000000,
    0x2500000000000000, 0x3420000400000000, 0x4030000053800000, 0x5002300000000012, 0x0100000000000000, 0x5100080000000011, 0x0100000000000000] : List (BitVec 64)).all (insOk 14) = true := by decide +kernel

/-- A row of +∞, a NaN, −2,048.0 and 1.0 after the header, and a limit of 1,024.0 in V1. -/
def gradRow : State := { live with tst := {
  cells := [(31, { work := some { cid := 9, cls := 2, tenant := 5, k := { x := [(1, 4), (3, 64)], v := [(1, extOfRat .nearest 1024)] } } })]
  caps := [(9, { stage := 5, kind := 5, hub := .b, slot := 63, body := leBytes 4 0x7F800000 ++ leBytes 4 0x7FC00000 ++ leBytes 4 0xC5000000 ++ leBytes 4 0x3F800000 })]
  kernels := [(63, { kernel5 with code := [0x2683110000000010] })] } }

/-- Chapter 7, kernel two: LSCAN X8, X3, X1, V1 counts what it fails in X8 and records each with its value and the limit. -/
theorem test_worked_scan : after (.lscan ⟨.b, 15⟩ 8 3 1 1 0 0x0010) gradRow (fun t => match (cellOf t 31).work with
    | some w => decide (xRead w.k 8 = 3) && decide (w.k.finds = [⟨0x10, 64, 0x7F800000, 0x44800000⟩, ⟨0x10, 68, 0x7FC00000, 0x44800000⟩, ⟨0x10, 72, 0xC5000000, 0x44800000⟩])
    | none => false) = true := by decide +kernel

/-- Chapter 9: the entry of a permanent fault of the core at partition 9, cluster 417, position 12. -/
theorem test_worked_entry : coreSite 9 (417 * 32 + 12) = 0x12D0B3FF ∧ defEntry 0x12D0B3FF 1 1 4 1 (0x00005A3C12345678 / 2 ^ 40) = 0x12D0B3FF1301005A := by decide

/-- Chapter 11: resets at 100 s, 520 s and 700 s: two lie in the window at 700 s; with one at 1,000 s, three do. -/
theorem test_worked_resets : stampsIn [100 * 10 ^ 9, 520 * 10 ^ 9, 700 * 10 ^ 9] (700 * 10 ^ 9) partWindow = 2 ∧
    stampsIn [520 * 10 ^ 9, 700 * 10 ^ 9, 1000 * 10 ^ 9] (1000 * 10 ^ 9) partWindow = 3 := by decide

/-- Chapter 14: a context Live at derived epoch 9 is rotated to epoch 10, whose tag is 2. -/
theorem test_worked_epoch : newEpoch { state := 1, tenant := 4, wepoch := 9 } = 10 ∧ keyTag 10 = 2 := by decide +kernel

/-- Chapter 16: EV_SHADOW_MISMATCH takes two records: O's signature in bytes 40–47 and S's in 48–55 of the first, the flag in byte 24 of the second. -/
theorem test_worked_pair : (let e := ev evShadowMismatch [(4, 1), (4, 2), (4, 3), (4, 4), (8, 5), (8, 6), (1, 1)]
    needsPair e = true ∧ fieldAt (recBytes { count := 1, time := 0, ev := e }) 24 4 = 1 ∧ fieldAt (recBytes { count := 1, time := 0, ev := e }) 48 8 = 6 ∧
    fieldAt (recBytes { count := 2, time := 0, cont := true, ev := e }) 24 1 = 1) := by decide +kernel

/-- Chapter 18: the packet on queue 3 at counts 0x0127 and 0x0A3F: its slot, its reply's entry, the pointers and bit 3. -/
def queue3 : State := { live with cmd := { queues := [(3, { tail := 0x127, taken := 0x127, head := 0x120, sqTail := 0xA3F, sqHead := 0xA3F })] } }
theorem test_worked_queue : 0x20000 + 16 * 3 * 0x1040 + slotAddr 0x127 = 0x57DC0 ∧
    after (.hubNop (cmdOf 3 0x0101 0 [] 0)) queue3 (fun t => (tfind (queueOf t 3).replies 0x3F).isSome && decide ((queueOf t 3).sqTail = 0xA40) && decide ((queueOf t 3).tail = 0x128) &&
      t.hubA.irqStat.getLsbD 3) = true := by decide +kernel

/-- Chapter 18: of a permanent area of 8,192 records shown from index 8,160, slots 32 to 63 read zero. -/
theorem test_worked_window : (let s : State := { live with hubA := { live.hubA with strArea := 1, strPos := 8160 }, strata := { perm := List.replicate 8192 { count := 7, time := 0, ev := ev evProfileSet [] } } }
    windowBytes s .a 31 ≠ List.replicate 64 0 ∧ windowBytes s .a 32 = List.replicate 64 0 ∧ windowBytes s .a 63 = List.replicate 64 0) := by decide +kernel

/-- R316, Table 12.7: the factory blobs carry the values of Table 3.4 and the shares of R155, and their fields lie in range. -/
theorem test_factory_blobs : factoryBlobs.map profileIn = factoryProfiles ∧
    (List.range 4).all (fun i => profileFields i (factoryBlobs[i]?.getD [])) = true := by decide +kernel

/-- R300, R316: a binary32 TARGET of 1.0, and the smallest subnormal. -/
theorem test_target : f32Value 0x3F800000 = 1 ∧ f32Value 1 = 1 / 2 ^ 149 := by decide +kernel

end Sys2Proof.Tests
end

section
/-! PROOFS. Chapter 2, the boundary: lookups of the sentry map. -/

namespace Sys2Proof.Proofs.Boundary
open Sys2Proof Sys2Proof.Machine

/-- The row of a lookup: the warden drives one answer, and the step ends as every step does. -/
theorem exec_sentryLookup (p ch : Nat) (site : BitVec 32) (s : State) :
    exec (.sentryLookup p ch site) s = .next (ended s (drive (.answer p ch (answerAt s p site.toNat)) s)) := rfl

@[simp] theorem drive_outs (o : Out) (s : State) : (drive o s).outs = o :: s.outs := rfl

/-- R50, a site the map does not hold. -/
theorem answerAt_of_not_held {p site : Nat} (s : State) (h : mapHolds p site = false) : answerAt s p site = 0 := by
  simp [answerAt, h]

/-- R50, a site code with a reserved value. -/
theorem answerAt_of_reserved (p : Nat) {site : Nat} {s : State} (h : okSite s site = false) : answerAt s p site = 0 := by
  simp [answerAt, h]

/-- R46, R226: a live warden whose map is in force answers a valid site it holds from the map. -/
theorem answerAt_of_in_force {p site : Nat} {s : State} (halive : (war s p).alive = true) (hvalid : (war s p).valid = true)
    (hok : okSite s site = true) (hheld : mapHolds p site = true) :
    answerAt s p site = answerMap (mapNow (war s p)) p site := by
  simp [answerAt, halive, hvalid, hok, hheld]

/-- Settles O51: the row drives `answerAt`, which is 00 for a site not held or reserved, and the map's answer otherwise. -/
theorem sentryLookup : Obligations.SentryLookup := by
  intro p ch site s
  constructor
  · intro hbad
    have hzero : answerAt s p site.toNat = 0 := by
      rcases hbad with hheld | hok
      · exact answerAt_of_not_held s hheld
      · exact answerAt_of_reserved p hok
    exact ⟨_, exec_sentryLookup p ch site s, by simp [hzero], by simp, by simp⟩
  · intro halive hvalid hok hheld
    rw [exec_sentryLookup, answerAt_of_in_force halive hvalid hok hheld]

end Sys2Proof.Proofs.Boundary
end

section
/-! PROOFS. Chapter 3, the screening bound: fractions under probation. -/

namespace Sys2Proof.Proofs.Screening
open Sys2Proof Sys2Proof.Machine

/-- A cluster holds a core in Probation when one of its 17 positions has that state. -/
theorem coreProbation_iff (s : State) (p c : Nat) :
    coreProbation s p c = true ↔ ∃ i, i < 17 ∧ coreState s p (srcOf c i) = 1 := by
  simp only [coreProbation, List.any_eq_true, List.mem_range, decide_eq_true_eq]

/-- R88's condition; a partition in probation is one whose map entry says so (log entry 67). -/
theorem inProbation_iff (s : State) (p c : Nat) :
    inProbation s p c = true ↔ partState s p = 1 ∨ ∃ i, i < 17 ∧ coreState s p (srcOf c i) = 1 := by
  rw [inProbation, Bool.or_eq_true, decide_eq_true_eq, coreProbation_iff]

/-- The governor's input record carries R88's condition. -/
@[simp] theorem clusterIn_prob (s : State) (p c : Nat) : (clusterIn s p c).prob = inProbation s p c := rfl

/-- R87: the fraction before probation is limited by the profile's ceiling. -/
theorem stepsFor_le_ceil (f : Profile) (g : Nat) (x : ClIn) : stepsFor f g x ≤ f.ceil := Nat.min_le_left ..

/-- R88: probation lifts a fraction to at most 32 steps, whatever the profile. -/
theorem withProbation_le (prob : Bool) (steps : Nat) : withProbation prob steps ≤ max 32 steps := by
  cases prob
  case false => exact Nat.le_max_right ..
  case true => exact Nat.le_trans (Nat.min_le_left ..) (Nat.le_max_left ..)

/-- R87, R88: 32 steps or the profile's ceiling bounds every fraction the governor gives. -/
theorem stepsProb_le (f : Profile) (g : Nat) (x : ClIn) : stepsProb f g x ≤ max 32 f.ceil :=
  Nat.le_trans (withProbation_le x.prob (stepsFor f g x))
    (Nat.max_le.2 ⟨Nat.le_max_left .., Nat.le_trans (stepsFor_le_ceil f g x) (Nat.le_max_right ..)⟩)

/-- Settles O52: the record's flag is R88's condition, the fraction is R87's with `withProbation` applied, and each of the two rules
keeps its own limit. -/
theorem probationFraction : Obligations.ProbationFraction := by
  intro f g p c s
  refine ⟨?_, rfl, stepsProb_le f g (clusterIn s p c)⟩
  rw [clusterIn_prob, inProbation_iff]

end Sys2Proof.Proofs.Screening
end

section
/-! PROOFS. Chapter 18, the register window: the pointers of the queues. -/

namespace Sys2Proof.Proofs.Registers
open Sys2Proof Sys2Proof.Machine

/-! ### A whole write at the serving hub -/

/-- R40: a port that takes requests lets the request through. -/
theorem onPort_of_takes {h : HubId} {s : State} (hp : portTakes (hubOf s h) = true) (f : State → State) : onPort h f s = f s := by
  rw [onPort, if_pos hp]

/-- R43, R44: the serving hub performs a write with all its byte enables. -/
theorem regWrite_of_serving {h : HubId} {s : State} (hs : isServing (hubOf s h) = true) (f : State → State) :
    regWrite h 0xFF f s = f s := by
  simp [regWrite, hs]

theorem exec_doorbell {h : HubId} {s : State} (hp : portTakes (hubOf s h) = true) (q : BitVec 3) (v : BitVec 64) (strb : BitVec 8) :
    exec (.doorbell h q v strb) s = .next (ended s (doorbellAt h q.toNat v strb s)) :=
  congrArg (nextOf s) (onPort_of_takes hp _)

theorem exec_sqHead {h : HubId} {s : State} (hp : portTakes (hubOf s h) = true) (q : BitVec 3) (v : BitVec 64) (strb : BitVec 8) :
    exec (.sqHead h q v strb) s = .next (ended s (sqHeadAt h q.toNat v strb s)) :=
  congrArg (nextOf s) (onPort_of_takes hp _)

/-! ### What a write to a status head leaves alone -/

/-- Writing a status head to the mirror leaves the commands held and the commands open: it waits in the mirror's output, or a hub with
no Secondary takes it as acknowledged at once (R19, R427). -/
theorem mirWrite_sqHead_waiting (q : Nat) (n : BitVec 16) (s : State) :
    (mirWrite (.sqHead q n) s).cmd.held = s.cmd.held ∧ (mirWrite (.sqHead q n) s).cmd.opens = s.cmd.opens := by
  unfold mirWrite
  split
  · exact ⟨rfl, rfl⟩
  · exact ⟨modQueue_held .., modQueue_opens ..⟩

/-- Whether a queue's last packet waits for its reply depends on the commands held and open alone. -/
theorem waitsReply_congr {s t : State} (hheld : t.cmd.held = s.cmd.held) (hopens : t.cmd.opens = s.cmd.opens) (q : Nat) :
    waitsReply t q = waitsReply s q := by
  simp only [waitsReply, heldIn, slowIn, hheld, hopens]

/-- A status head that moves answers no command: R416's condition on the slots is the one that held before the write. -/
theorem waitsReply_moved_sqHead (f : Queue → Queue) (q : Nat) (n : BitVec 16) (s : State) :
    waitsReply (mirWrite (.sqHead q n) (modQueue q f s)) q = waitsReply s q := by
  obtain ⟨hheld, hopens⟩ := mirWrite_sqHead_waiting q n (modQueue q f s)
  exact waitsReply_congr (hheld.trans (modQueue_held q f s)) (hopens.trans (modQueue_opens q f s)) q

/-! ### R447, the tail and the status head -/

section
variable {h : HubId} {q : Nat} {v : BitVec 64} {s : State}

theorem doorbellAt_in_force (hs : isServing (hubOf s h) = true) (hv : v.setWidth 16 = (queueOf s q).tail) :
    doorbellAt h q v 0xFF s = s := by
  rw [doorbellAt, regWrite_of_serving hs]
  exact if_pos hv

theorem doorbellAt_moves (hs : isServing (hubOf s h) = true) (hv : v.setWidth 16 ≠ (queueOf s q).tail)
    (hr : (v.setWidth 16 - (queueOf s q).head).toNat ≤ 16 ∧ (v.setWidth 16 - (queueOf s q).tail).toNat ≤ 16) :
    doorbellAt h q v 0xFF s = rejectUnknown maxWaiting (modQueue q (fun x => { x with tail := v.setWidth 16 }) s) := by
  rw [doorbellAt, regWrite_of_serving hs]
  exact (if_neg hv).trans (if_pos hr)

theorem doorbellAt_ignored (hs : isServing (hubOf s h) = true) (hv : v.setWidth 16 ≠ (queueOf s q).tail)
    (hr : ¬ ((v.setWidth 16 - (queueOf s q).head).toNat ≤ 16 ∧ (v.setWidth 16 - (queueOf s q).tail).toNat ≤ 16)) :
    doorbellAt h q v 0xFF s = portErr h s := by
  rw [doorbellAt, regWrite_of_serving hs]
  exact (if_neg hv).trans (if_neg hr)

theorem sqHeadAt_in_force (hs : isServing (hubOf s h) = true) (hv : v.setWidth 16 = (queueOf s q).sqHead) :
    sqHeadAt h q v 0xFF s = s := by
  rw [sqHeadAt, regWrite_of_serving hs]
  exact if_pos hv

theorem sqHeadAt_moves (hs : isServing (hubOf s h) = true) (hv : v.setWidth 16 ≠ (queueOf s q).sqHead)
    (hr : (v.setWidth 16 - (queueOf s q).sqHead).toNat ≤ ((queueOf s q).sqTail - (queueOf s q).sqHead).toNat) :
    sqHeadAt h q v 0xFF s = rejectUnknown maxWaiting (modQueue q (returnSlots (waitsReply s q))
      (mirWrite (.sqHead q (v.setWidth 16)) (modQueue q (fun x => { x with sqHead := v.setWidth 16, fullRaised := false }) s))) := by
  rw [sqHeadAt, regWrite_of_serving hs, ← waitsReply_moved_sqHead (fun x => { x with sqHead := v.setWidth 16, fullRaised := false })]
  exact (if_neg hv).trans (if_pos hr)

theorem sqHeadAt_ignored (hs : isServing (hubOf s h) = true) (hv : v.setWidth 16 ≠ (queueOf s q).sqHead)
    (hr : ¬ (v.setWidth 16 - (queueOf s q).sqHead).toNat ≤ ((queueOf s q).sqTail - (queueOf s q).sqHead).toNat) :
    sqHeadAt h q v 0xFF s = portErr h s := by
  rw [sqHeadAt, regWrite_of_serving hs]
  exact (if_neg hv).trans (if_neg hr)

end

/-- Settles O31: R447 gives each pointer three cases, the value in force, a value over what the host may claim, and any other; the slots
that return with a status head are those of the state before it, since moving it answers no command. -/
theorem queuePointers : Obligations.QueuePointers := by
  intro h q v s hs hp
  simp only [exec_doorbell hp, exec_sqHead hp]
  refine ⟨fun hv => ?_, fun hv => ?_, fun hv => ?_, fun hv => ?_⟩
  · split
    · next hr => rw [doorbellAt_moves hs hv hr]
    · next hr => rw [doorbellAt_ignored hs hv hr]
  · rw [doorbellAt_in_force hs hv]
  · split
    · next hr => rw [sqHeadAt_moves hs hv hr]
    · next hr => rw [sqHeadAt_ignored hs hv hr]
  · rw [sqHeadAt_in_force hs hv]

end Sys2Proof.Proofs.Registers
end

section
/-! PROOFS. Chapter 17, the packet in its slot: what is read back, and slots that lie apart. -/

namespace Sys2Proof.Proofs.Slots
open Sys2Proof Sys2Proof.Machine

/-- The end of what was written. -/
theorem memRead_memWrite_suffix (t : Tab Byte) (a : Nat) (b r : List Byte) :
    memRead (memWrite t a (b ++ r)) (a + b.length) r.length = r := by
  have hcut : memRead (memWrite t a (b ++ r)) (a + b.length) r.length =
      (memRead (memWrite t a (b ++ r)) a (b ++ r).length).drop b.length := by
    apply List.ext_getElem
    · simp [memRead]
    · intro i _ _
      simp [memRead, Nat.add_assoc]
  rw [hcut, memRead_memWrite, List.drop_left]

/-- A little-endian field of a byte string reads back where it stands, at every value of its width. -/
theorem fieldAt_of_parts {w n off v : Nat} (l a r : List Byte) (hl : l = a ++ leBytes n v ++ r) (ho : a.length = off)
    (hw : 256 ^ n = 2 ^ w) (hv : v < 2 ^ w) : fieldAt l off n = v := by
  rw [hl, ← ho, fieldAt_append, hw, Nat.mod_eq_of_lt hv]

/-- Bytes 0 to 63 of a packet (Table 17.1). -/
def front (op : Nat) (pk : Packet) : List Byte := headBytes op pk ++ leBytes 4 pk.crc.toNat

theorem length_front (op : Nat) (pk : Packet) : (front op pk).length = 64 := by
  simp [front, length_headBytes]

/-- The bytes of a packet whose payload has the length that PLEN gives. -/
theorem packetBytes_of_whole {op : Nat} {pk : Packet} (hlen : pk.payload.length = pk.plen.toNat) (hmax : pk.plen.toNat ≤ 4096) :
    packetBytes op pk = front op pk ++ pk.payload := by
  rw [packetBytes, Nat.min_eq_left hmax, ← hlen]
  simp [front, slice]

section
variable (op : Nat) (pk : Packet)

theorem front_opcode (h : op < 65536) : fieldAt (front op pk) 0 2 = op :=
  fieldAt_of_parts (w := 16) _ [] _ (by simp only [front, headBytes, List.append_assoc, List.nil_append]; rfl) rfl (by decide) h

theorem front_tag : fieldAt (front op pk) 2 2 = pk.tag.toNat :=
  fieldAt_of_parts (w := 16) _ (leBytes 2 op) _ (by simp only [front, headBytes, List.append_assoc]; rfl) (by simp) (by decide)
    pk.tag.isLt

theorem front_plen : fieldAt (front op pk) 4 2 = pk.plen.toNat :=
  fieldAt_of_parts (w := 16) _ (leBytes 2 op ++ leBytes 2 pk.tag.toNat) _ (by simp only [front, headBytes, List.append_assoc]; rfl)
    (by simp) (by decide) pk.plen.isLt

theorem front_flags : fieldAt (front op pk) 6 1 = pk.flags.toNat :=
  fieldAt_of_parts (w := 8) _ (leBytes 2 op ++ leBytes 2 pk.tag.toNat ++ leBytes 2 pk.plen.toNat) _
    (by simp only [front, headBytes, List.append_assoc]; rfl) (by simp) (by decide) pk.flags.isLt

theorem front_rsv1 : fieldAt (front op pk) 7 9 = pk.rsv1.toNat :=
  fieldAt_of_parts (w := 72) _ (leBytes 2 op ++ leBytes 2 pk.tag.toNat ++ leBytes 2 pk.plen.toNat ++ leBytes 1 pk.flags.toNat) _
    (by simp only [front, headBytes, List.append_assoc]; rfl) (by simp) (by decide) pk.rsv1.isLt

theorem front_param : fieldAt (front op pk) 16 32 = pk.param.toNat :=
  fieldAt_of_parts (w := 256) _ (leBytes 2 op ++ leBytes 2 pk.tag.toNat ++ leBytes 2 pk.plen.toNat ++ leBytes 1 pk.flags.toNat ++
    leBytes 9 pk.rsv1.toNat) _ (by simp only [front, headBytes, List.append_assoc]; rfl) (by simp) (by decide) pk.param.isLt

theorem front_rsv2 : fieldAt (front op pk) 48 12 = pk.rsv2.toNat :=
  fieldAt_of_parts (w := 96) _ (leBytes 2 op ++ leBytes 2 pk.tag.toNat ++ leBytes 2 pk.plen.toNat ++ leBytes 1 pk.flags.toNat ++
    leBytes 9 pk.rsv1.toNat ++ leBytes 32 pk.param.toNat) _ (by simp only [front, headBytes, List.append_assoc]; rfl) (by simp) (by decide)
    pk.rsv2.isLt

theorem front_crc : fieldAt (front op pk) 60 4 = pk.crc.toNat :=
  fieldAt_of_parts (w := 32) _ (headBytes op pk) [] (by simp [front]) (length_headBytes op pk) (by decide) pk.crc.isLt

end

/-- Settles O22: the slot's first 64 bytes are the header and CRC, whose fields read back at every value, and the payload area holds the payload. -/
theorem packetReadsBack : Obligations.PacketReadsBack := by
  intro op pk x count hop hlen hmax hint
  have hbytes := packetBytes_of_whole (op := op) hlen hmax
  have hhead : memRead (memWrite x.mem (slotAddr count) (packetBytes op pk)) (slotAddr count) 64 = front op pk := by
    rw [hbytes, ← length_front op pk, memRead_memWrite_prefix]
  have hpay : memRead (memWrite x.mem (slotAddr count) (packetBytes op pk)) (slotAddr count + 64) pk.plen.toNat = pk.payload := by
    rw [hbytes, ← length_front op pk, ← hlen, memRead_memWrite_suffix]
  simp only [packetAt, hhead, front_opcode op pk hop, front_tag, front_plen, front_flags, front_rsv1, front_param, front_rsv2, front_crc,
    Nat.min_eq_left hmax, hpay, BitVec.ofNat_toNat, BitVec.setWidth_eq, ← hint]

/-- Counts that differ modulo 16 name slots whose 4,160 bytes do not meet. -/
theorem slotAddr_apart {c d : BitVec 16} (h : c.toNat % 16 ≠ d.toNat % 16) :
    slotAddr d + 4160 ≤ slotAddr c ∨ slotAddr c + 4160 ≤ slotAddr d := by
  simp only [slotAddr]; omega

/-- Settles O23: a read of another slot misses the write, a read of the same bytes gives what was written, and writes keep the canonical form. -/
theorem slotsApart : Obligations.SlotsApart := by
  intro t c d b hb hcd
  refine ⟨memRead_memWrite_ne _ _ _ _ _ ?_, memRead_memWrite _ _ _, tabWf_memWrite _ _ _⟩
  rcases slotAddr_apart hcd with h | h
  · exact .inl h
  · exact .inr (Nat.le_trans (Nat.add_le_add_left hb _) h)

end Sys2Proof.Proofs.Slots
end

section
/-! PROOFS. What holds after every step: the outputs of the command ports. -/

namespace Sys2Proof.Proofs.Steps
open Sys2Proof Sys2Proof.Machine

/-- Every row answers a next state, and ends as every command does (log entry 1). -/
theorem exec_ended (i : Instr) (s : State) : ∃ t, exec i s = .next (ended s t) := by
  cases i <;> exact ⟨_, rfl⟩

/-- A tick ends as every command does. -/
theorem tick_ended (s : State) : ∃ t, tick s = ended s t := ⟨_, rfl⟩

/-- Table 2.3, R40, R41, R450: the outputs that `pinsOf` gives are those that role, status, sys_rst_n and waiting reads ask for. -/
theorem pinsRight_pinsOf (x : Hub) : pinsRight (pinsOf x) := ⟨rfl, rfl, rfl, rfl⟩

theorem step_ended (s : State) : ∃ t, step s = .next (ended { s with pending := s.pending.tail } t) := by
  unfold step
  split
  · next hnone =>
    obtain ⟨t, ht⟩ := tick_ended s
    exact ⟨t, by rw [ht, hnone]; simp only [ended, hnone, List.tail_nil]⟩
  · next c rest hsome =>
    rw [hsome]
    exact exec_ended c _

/-- Settles O37: every command and every tick ends with `ended`, which sets the outputs from the registers and keeps the queue's tail. -/
theorem pinsFollow : Obligations.PinsFollow := by
  intro s hwf
  obtain ⟨t, ht⟩ := step_ended s
  exact ⟨_, ht, pinsRight_pinsOf t.hubA, pinsRight_pinsOf t.hubB, rfl, fun c hc => hwf c (List.mem_of_mem_tail hc)⟩

/-- Settles O38: the reset values of both ports are those their outputs ask for, and no command waits. -/
theorem pinsAtReset : Obligations.PinsAtReset := by
  refine ⟨?_, ?_, rfl⟩ <;> exact ⟨rfl, rfl, rfl, rfl⟩

/-- Settles O35: with a command at the front, a step is that command's meaning. -/
theorem stepRunsFront : Obligations.StepRunsFront := fun _ _ _ => rfl

end Sys2Proof.Proofs.Steps
end

section
/-! PROOFS. Chapter 7, the check-kernel instructions: registers, loads, traps, exact and extended values, findings. -/

namespace Sys2Proof.Proofs.Kernels
open Sys2Proof Sys2Proof.Machine

/-! ### How a row of Table 7.3 is shown to complete -/

/-- The end of an instruction sets the step count and the status, and nothing else of the sample (R171). -/
theorem kEnd_eq (budget cost : Nat) (ks ks1 : KState) :
    ∃ st, kEnd budget cost ks ks1 = { ks1 with steps := kSteps ks cost, status := st } := by
  unfold kEnd
  dsimp only
  split
  · exact ⟨.trapped 1, rfl⟩
  · exact ⟨ks1.status, rfl⟩

/-- An instruction whose effect `g` leaves the sample running completes with what `g` gives, whatever its steps and status become. -/
theorem kRan_to {i : Instr} {k : CellId} {f : KCtx → KState → KRes} {cost : KState → Nat} {op : Bool} {pre : KCtx → KState → Prop}
    {post : KCtx → KState → KState → Prop} (g : KCtx → KState → KState) (hi : ∀ s, exec i s = nextOf s (kRun k i f s))
    (hf : ∀ c ks, pre c ks → f c ks = .ok (g c ks) (cost ks) op) (hs : ∀ c ks, (g c ks).status = ks.status)
    (hp : ∀ c ks, pre c ks → ∀ sp st, post c ks { g c ks with steps := sp, status := st }) : KRan i k cost op pre post := by
  refine kRan_of g hi (fun c ks hpre _ => hf c ks hpre) (fun c ks hrun => (hs c ks).trans hrun) (fun c ks b hpre => ?_)
  obtain ⟨st, hend⟩ := kEnd_eq b (cost ks) ks (g c ks)
  rw [hend]
  exact hp c ks hpre _ st

/-- The same for an instruction that goes on to the next word: `g` is what it does before PC moves on. -/
theorem kRan_next {i : Instr} {k : CellId} {f : KCtx → KState → KRes} {cost : KState → Nat} {op : Bool} {pre : KCtx → KState → Prop}
    {post : KCtx → KState → KState → Prop} (g : KCtx → KState → KState) (hi : ∀ s, exec i s = nextOf s (kRun k i f s))
    (hf : ∀ c ks, pre c ks → f c ks = .ok (kAdv (g c ks)) (cost ks) op) (hs : ∀ c ks, (g c ks).status = ks.status)
    (hpc : ∀ c ks, (g c ks).pc = ks.pc)
    (hp : ∀ c ks, pre c ks → ∀ pc sp st, post c ks { g c ks with pc := pc, steps := sp, status := st }) :
    KRan i k cost op pre (fun c ks t => post c ks t ∧ KNextPc ks t) :=
  kRan_to (fun c ks => kAdv (g c ks)) hi hf hs (fun c ks hpre sp st =>
    ⟨hp c ks hpre _ sp st, congrArg (· + 1) (hpc c ks)⟩)

/-! ### What one register write sets -/

theorem kQuiet_refl (ks : KState) : KQuiet ks ks := ⟨fun _ => rfl, fun _ => rfl, fun _ => rfl, rfl, rfl, rfl⟩

theorem kSetX_xWrite (d : BitVec 4) (v : BitVec 64) (ks : KState) : KSetX d v ks (xWrite d v ks) :=
  ⟨fun r => xRead_xWrite d r v ks, fun r => mRead_xWrite d r v ks, fun r => vRead_xWrite d r v ks, lanes_xWrite d v ks,
    finds_xWrite d v ks, lost_xWrite d v ks⟩

theorem kSetM_mWrite (d : BitVec 4) (v : MReg) (ks : KState) : KSetM d v ks (mWrite d v ks) :=
  ⟨fun r => mRead_mWrite d r v ks, fun _ => rfl, fun _ => rfl, rfl, rfl, rfl⟩

theorem kSetV_vWrite (d : BitVec 4) (v : BitVec 80) (ks : KState) : KSetV d v ks (vWrite d v ks) :=
  ⟨fun r => vRead_vWrite d r v ks, fun _ => rfl, fun _ => rfl, rfl, rfl, rfl⟩

/-- An instruction whose whole effect is a value for X[D]. -/
theorem kRan_setX {i : Instr} {k : CellId} {f : KCtx → KState → KRes} {pre : KCtx → KState → Prop} {d : BitVec 4}
    (v : KCtx → KState → BitVec 64) (hi : ∀ s, exec i s = nextOf s (kRun k i f s))
    (hf : ∀ c ks, pre c ks → f c ks = kOne (xWrite d (v c ks) ks)) :
    KRan i k (fun _ => 1) false pre (fun c ks t => KSetX d (v c ks) ks t ∧ KNextPc ks t) :=
  kRan_next (fun c ks => xWrite d (v c ks) ks) hi hf (fun _ _ => status_xWrite ..) (fun _ _ => pc_xWrite ..)
    (fun c ks _ _ _ _ => kSetX_xWrite d (v c ks) ks)

/-- An instruction whose whole effect is a value for V[D]. -/
theorem kRan_setV {i : Instr} {k : CellId} {f : KCtx → KState → KRes} {cost : Nat} {op : Bool} {pre : KCtx → KState → Prop} {d : BitVec 4}
    (v : KCtx → KState → BitVec 80) (hi : ∀ s, exec i s = nextOf s (kRun k i f s))
    (hf : ∀ c ks, pre c ks → f c ks = .ok (kAdv (vWrite d (v c ks) ks)) cost op) :
    KRan i k (fun _ => cost) op pre (fun c ks t => KSetV d (v c ks) ks t ∧ KNextPc ks t) :=
  kRan_next (fun c ks => vWrite d (v c ks) ks) hi hf (fun _ _ => rfl) (fun _ _ => rfl)
    (fun c ks _ _ _ _ => kSetV_vWrite d (v c ks) ks)

/-- An instruction that puts an exact result which fits in M[D] (R167). -/
theorem kRan_setM {i : Instr} {k : CellId} {f : KCtx → KState → KRes} {cost : Nat} {d : BitVec 4} (v : KState → Int) (fl : KState → MReg)
    (hi : ∀ s, exec i s = nextOf s (kRun k i f s)) (hf : ∀ c ks, f c ks = mPut c d (v ks) (fl ks) cost ks) :
    KRan i k (fun _ => cost) false (fun _ ks => kFits (v ks))
      (fun _ ks t => KSetM d { fl ks with val := BitVec.ofInt 640 (v ks) } ks t ∧ KNextPc ks t) :=
  kRan_next (fun _ ks => mWrite d { fl ks with val := BitVec.ofInt 640 (v ks) } ks) hi
    (fun c ks hfit => by rw [hf, mPut, wideOf_fits c hfit]) (fun _ _ => rfl) (fun _ _ => rfl)
    (fun _ ks _ _ _ _ => kSetM_mWrite d _ ks)

/-- The same where the result does not fit: M[D] holds the open value (log entries 4 and 14). -/
theorem kRan_openM {i : Instr} {k : CellId} {f : KCtx → KState → KRes} {cost : Nat} {d : BitVec 4} (v : KState → Int) (fl : KState → MReg)
    (hi : ∀ s, exec i s = nextOf s (kRun k i f s)) (hf : ∀ c ks, f c ks = mPut c d (v ks) (fl ks) cost ks) :
    KRan i k (fun _ => cost) true (fun _ ks => ¬ kFits (v ks))
      (fun c ks t => (mRead t d).val = Config.freeWide c.free ∧ (∀ r, r ≠ d → mRead t r = mRead ks r) ∧ KNextPc ks t) := by
  have h := kRan_next (cost := fun _ => cost) (op := true) (pre := fun _ ks => ¬ kFits (v ks))
    (post := fun c ks t => (mRead t d).val = Config.freeWide c.free ∧ ∀ r, r ≠ d → mRead t r = mRead ks r)
    (fun c ks => mWrite d { fl ks with val := Config.freeWide c.free } ks) hi
    (fun c ks hopen => by rw [hf, mPut, wideOf_open c hopen]) (fun _ _ => rfl) (fun _ _ => rfl)
    (fun c ks _ _ _ _ => ⟨congrArg MReg.val ((mRead_mWrite d d _ ks).trans (if_pos rfl)),
      fun r hr => (mRead_mWrite d r _ ks).trans (if_neg hr)⟩)
  simpa only [and_assoc] using h

/-- Settles O1: a branch leaves all registers and picks PC; an X instruction writes one register and goes on; HALT alone ends the sample, so its
budget is not looked at. -/
theorem kernelIntegers : Obligations.KernelIntegers := by
  intro k d a b imm
  refine ⟨?nop, ?jmp, ?bnz, ?blt, ?djnz, ?li, ?add, ?addi, ?mul, ?halt⟩
  case nop => exact kRan_next (fun _ ks => ks) (fun _ => rfl) (fun _ _ _ => rfl) (fun _ _ => rfl) (fun _ _ => rfl) (fun _ ks _ _ _ _ => kQuiet_refl ks)
  case jmp => exact kRan_to (fun _ ks => kGo imm ks) (fun _ => rfl) (fun _ _ _ => rfl) (fun _ _ => rfl) (fun _ ks _ _ _ => ⟨kQuiet_refl ks, rfl⟩)
  case bnz =>
    refine kRan_to (fun _ ks => if xRead ks a ≠ 0 then kGo imm ks else kAdv ks) (fun _ => rfl) (fun _ _ _ => rfl) (fun _ ks => ?_) (fun _ ks _ sp st => ?_)
    · split <;> rfl
    · by_cases hz : xRead ks a = 0
      · simp only [hz, ne_eq, not_true_eq_false, if_false, if_true]; exact ⟨kQuiet_refl ks, rfl⟩
      · simp only [hz, ne_eq, not_false_eq_true, if_false, if_true]; exact ⟨kQuiet_refl ks, rfl⟩
  case blt =>
    refine kRan_to (fun _ ks => if (xRead ks a).slt (xRead ks b) then kGo imm ks else kAdv ks) (fun _ => rfl) (fun _ _ _ => rfl) (fun _ ks => ?_) (fun _ ks _ sp st => ?_)
    · split <;> rfl
    · by_cases hlt : (xRead ks a).toInt < (xRead ks b).toInt
      · simp only [BitVec.slt, hlt, decide_true, if_true]; exact ⟨kQuiet_refl ks, rfl⟩
      · simp only [BitVec.slt, hlt, decide_false, if_false, Bool.false_eq_true]; exact ⟨kQuiet_refl ks, rfl⟩
  case djnz =>
    refine kRan_to (fun _ ks => if xRead ks d - 1 ≠ 0 then kGo imm (xWrite d (xRead ks d - 1) ks) else kAdv (xWrite d (xRead ks d - 1) ks)) (fun _ => rfl)
      (fun _ _ _ => rfl) (fun _ ks => ?_) (fun _ ks _ sp st => ?_)
    · split <;> exact status_xWrite ..
    · by_cases hone : xRead ks d = 1
      · simp only [hone, BitVec.sub_self, ne_eq, if_true]
        exact ⟨kSetX_xWrite d 0 ks, congrArg (· + 1) (pc_xWrite d 0 ks)⟩
      · have hne : xRead ks d - 1 ≠ 0 := fun h => hone ((BitVec.sub_eq_iff_eq_add.mp h).trans (BitVec.zero_add 1#64))
        simp only [hone, hne, ne_eq, not_false_eq_true, if_false, if_true]
        exact ⟨kSetX_xWrite d _ ks, rfl⟩
  case li => exact kRan_setX (fun _ _ => imm.signExtend 64) (fun _ => rfl) (fun _ _ _ => rfl)
  case add => exact kRan_setX (fun _ ks => xRead ks a + xRead ks b) (fun _ => rfl) (fun _ _ _ => rfl)
  case addi => exact kRan_setX (fun _ ks => xRead ks a + imm.signExtend 64) (fun _ => rfl) (fun _ _ _ => rfl)
  case mul => exact kRan_setX (fun _ ks => xRead ks a * xRead ks b) (fun _ => rfl) (fun _ _ _ => rfl)
  case halt =>
    intro s c ks budget h
    refine ⟨kEnd budget 1 ks { ks with status := .halted }, ?_, ?_⟩
    · exact congrArg (nextOf s) (kRun_ok (op := false) (cost := 1) (f := kHalt) h rfl)
    · have hend : kEnd budget 1 ks { ks with status := .halted } = { ks with steps := kSteps ks 1, status := .halted } := by
        simp [kEnd]
      rw [hend]
      exact ⟨kQuiet_refl ks, rfl, rfl⟩

/-- Settles O2: with the element readable, a load is a write of one register. -/
theorem kernelLoads : Obligations.KernelLoads := by
  intro k d a ty imm
  refine ⟨fun hty => ?_, fun hty => ?_⟩
  · refine kRan_setX (fun c ks => BitVec.ofNat 64 (fieldAt c.buf (kAddr ks a imm) (2 ^ ty.toNat))) (fun _ => rfl) (fun c ks hread => ?_)
    simp only [kLdx, Nat.not_lt.mpr hty, hread, if_false, Bool.not_true, Bool.false_eq_true]
    rfl
  · refine kRan_setV (fun c ks => extOf .nearest (elemAt c ty.toNat (kAddr ks a imm) 0)) (fun _ => rfl) (fun c ks hread => ?_)
    simp only [kVld, Nat.not_lt.mpr hty, hread, if_false, Bool.not_true, Bool.false_eq_true]
    rfl

/-- Elements that are not readable trap a lane sum over at least one of them. -/
theorem laneSum_traps (g : Fl → Fl) {a b ty : BitVec 4} (hty : ty.toNat ≤ 8) {c : KCtx} {ks : KState} (hn : xRead ks b ≠ 0)
    (hread : kReadable c (xRead ks a).toNat (tySize ty.toNat) (xRead ks b).toNat = false) : laneSum g a b ty c ks = .trap 2 := by
  simp only [laneSum, Nat.not_lt.mpr hty, toNat_ne_zero hn, hread, if_false, Bool.not_false, if_true]

/-- Settles O3: the read check of each instruction comes before its effect, and VGAM's descriptor and bound before its value. -/
theorem kernelTraps : Obligations.KernelTraps := by
  intro k d a b c' ty imm
  refine ⟨fun hty => ?ldx, fun hty => ⟨?vld, ?lsum, ?lasum, ?lsqsum, ?ldot, ?lscan⟩, ?vgam⟩
  case ldx =>
    refine kTraps_of (fun _ => rfl) (fun c ks hread => ?_)
    simp only [kLdx, Nat.not_lt.mpr hty, hread, if_false, Bool.not_false, if_true]
  case vld =>
    refine kTraps_of (fun _ => rfl) (fun c ks hread => ?_)
    simp only [kVld, Nat.not_lt.mpr hty, hread, if_false, Bool.not_false, if_true]
  case lsum => exact kTraps_of (fun _ => rfl) (fun c ks hbad => laneSum_traps _ hty hbad.1 hbad.2)
  case lasum => exact kTraps_of (fun _ => rfl) (fun c ks hbad => laneSum_traps _ hty hbad.1 hbad.2)
  case lsqsum => exact kTraps_of (fun _ => rfl) (fun c ks hbad => laneSum_traps _ hty hbad.1 hbad.2)
  case ldot =>
    refine kTraps_of (fun _ => rfl) (fun c ks hbad => ?_)
    obtain ⟨hn, hread⟩ := hbad
    have hnot : (!kReadable c (xRead ks a).toNat (tySize ty.toNat) (xRead ks b).toNat ||
        !kReadable c (xRead ks c').toNat (tySize ty.toNat) (xRead ks b).toNat) = true := by
      rcases hread with h | h <;> simp [h]
    simp only [kLdot, Nat.not_lt.mpr hty, toNat_ne_zero hn, hnot, if_false, if_true]
  case lscan =>
    refine kTraps_of (fun _ => rfl) (fun c ks hbad => ?_)
    obtain ⟨hn, hread⟩ := hbad
    simp only [kLscan, Nat.not_lt.mpr hty, toNat_ne_zero hn, hread, if_false, Bool.not_false, if_true]
  case vgam =>
    refine kTraps_of (fun _ => rfl) (fun c ks hbad => ?_)
    rcases hbad with hnone | ⟨ds, hds, hn, hg⟩
    · simp only [kVgam, hnone]
    · simp only [kVgam, hds, toNat_ne_zero hn, if_false, hg]

/-! ### Lanes (R167, R168) -/

/-- What a lane instruction that completes leaves, and the lanes it gives. -/
def LanesBecome (l : Tab MReg) (ks t : KState) : Prop :=
  KXSame ks t ∧ KMSame ks t ∧ KVSame ks t ∧ KFindSame ks t ∧ KNextPc ks t ∧ t.lanes = l

theorem lanesAdd_none (ty : Nat) (term : Nat → Fl) (ks : KState) : lanesAdd ty 0 term ks = ks := rfl

/-- A lane instruction over its operands' terms: none where the count is 0. -/
theorem kRan_lanes {i : Instr} {k : CellId} {f : KCtx → KState → KRes} {b ty : BitVec 4} {pre : KCtx → KState → Prop}
    (term : KCtx → KState → Nat → Fl) (hi : ∀ s, exec i s = nextOf s (kRun k i f s))
    (hf : ∀ c ks, xRead ks b = 0 ∨ pre c ks → f c ks = if (xRead ks b).toNat = 0 then kOne ks
      else .ok (kAdv (lanesAdd ty.toNat (xRead ks b).toNat (term c ks) ks)) (laneSteps ty.toNat (xRead ks b).toNat) false) :
    KRan i k (fun ks => laneSteps ty.toNat (xRead ks b).toNat) false (fun c ks => xRead ks b = 0 ∨ pre c ks)
      (fun c ks t => LanesBecome (lanesAdd ty.toNat (xRead ks b).toNat (term c ks) ks).lanes ks t) := by
  refine kRan_to (fun c ks => kAdv (lanesAdd ty.toNat (xRead ks b).toNat (term c ks) ks)) hi (fun c ks hpre => ?_) (fun _ _ => rfl)
    (fun _ ks _ _ _ => ⟨fun _ => rfl, fun _ => rfl, fun _ => rfl, ⟨rfl, rfl⟩, rfl, rfl⟩)
  rw [hf c ks hpre]
  split
  · next hn =>
    have hone : laneSteps ty.toNat 0 = 1 := by
      simp only [laneSteps, laneCount]; split <;> rfl
    rw [hn, lanesAdd_none, hone]
    rfl
  · rfl

/-- LSUM, LASUM and LSQSUM over readable elements. -/
theorem laneSum_runs (g : Fl → Fl) {a b ty : BitVec 4} (hty : ty.toNat ≤ 8) {c : KCtx} {ks : KState}
    (h : xRead ks b = 0 ∨ kReadable c (xRead ks a).toNat (tySize ty.toNat) (xRead ks b).toNat = true) :
    laneSum g a b ty c ks = if (xRead ks b).toNat = 0 then kOne ks
      else .ok (kAdv (lanesAdd ty.toNat (xRead ks b).toNat (fun i => g (elemAt c ty.toNat (xRead ks a).toNat i)) ks))
        (laneSteps ty.toNat (xRead ks b).toNat) false := by
  rw [laneSum, if_neg (Nat.not_lt.mpr hty)]
  split
  · rfl
  · next hn =>
    have hread := h.resolve_left (fun hz => hn (by rw [hz]; rfl))
    simp only [hread, Bool.not_true, Bool.false_eq_true, if_false]

/-- Settles O4: LCLR empties the lanes, the sums add their terms, and MERGE is an exact write of the lanes' total. -/
theorem kernelLanes : Obligations.KernelLanes := by
  intro k d a b c' ty
  refine ⟨?lclr, fun hty => ⟨?lsum, ?lasum, ?lsqsum, ?ldot⟩, fun hd => ?merge⟩
  case lclr =>
    exact kRan_to (fun _ ks => kAdv { ks with lanes := [] }) (fun _ => rfl) (fun _ _ _ => rfl) (fun _ _ => rfl)
      (fun _ ks _ _ _ => ⟨fun _ => rfl, fun _ => rfl, fun _ => rfl, ⟨rfl, rfl⟩, rfl, rfl, rfl⟩)
  case lsum => exact kRan_lanes (fun c ks => elemAt c ty.toNat (xRead ks a).toNat) (fun _ => rfl) (fun _ _ h => laneSum_runs _ hty h)
  case lasum =>
    exact kRan_lanes (fun c ks i => flAbs (elemAt c ty.toNat (xRead ks a).toNat i)) (fun _ => rfl) (fun _ _ h => laneSum_runs _ hty h)
  case lsqsum =>
    exact kRan_lanes (fun c ks i => flMul (elemAt c ty.toNat (xRead ks a).toNat i) (elemAt c ty.toNat (xRead ks a).toNat i)) (fun _ => rfl)
      (fun _ _ h => laneSum_runs (fun x => flMul x x) hty h)
  case ldot =>
    refine kRan_lanes (fun c ks i => flMul (elemAt c ty.toNat (xRead ks a).toNat i) (elemAt c ty.toNat (xRead ks c').toNat i)) (fun _ => rfl)
      (fun c ks h => ?_)
    rw [kLdot, if_neg (Nat.not_lt.mpr hty)]
    split
    · rfl
    · next hn =>
      obtain ⟨hx, hy⟩ := h.resolve_left (fun hz => hn (by rw [hz]; rfl))
      simp only [hx, hy, Bool.not_true, Bool.or_self, Bool.false_eq_true, if_false]
  case merge => exact kRan_setM laneTotal laneFlags (fun _ => rfl) (fun _ _ => if_neg (Nat.not_lt.mpr hd))

theorem laneBits_eq_sum (k : KState) : laneBits k = (k.lanes.map (fun l => l.2.val)).sum := by
  rw [laneBits, List.sum_eq_foldl, List.foldl_map]

/-- A key below every key of a table reads as the default. -/
theorem tget_below {α : Type} (d : α) {t : Tab α} {k : Nat} (h : ∀ e ∈ t, k < e.1) : tget d t k = d := by
  induction t with
  | nil => rfl
  | cons e t ih =>
    have hne : e.1 ≠ k := Nat.ne_of_gt (h e List.mem_cons_self)
    rw [tget, tfind, if_neg hne]
    exact ih (fun x hx => h x (List.mem_cons_of_mem _ hx))

theorem keysRise_tset {α : Type} {t : Tab α} (h : keysRise t) (k : Nat) (v : α) : keysRise (tset t k v) := by
  induction t with
  | nil => exact List.pairwise_singleton _ _
  | cons e t ih =>
    obtain ⟨j, w⟩ := e
    obtain ⟨hhead, htail⟩ := List.pairwise_cons.mp h
    rw [tset]
    split
    · next hk => exact List.pairwise_cons.mpr ⟨fun x hx => by rw [hk]; exact hhead x hx, htail⟩
    · split
      · next hlt =>
        refine List.pairwise_cons.mpr ⟨fun x hx => ?_, h⟩
        rcases List.mem_cons.mp hx with rfl | hx
        · exact hlt
        · exact Nat.lt_trans hlt (hhead x hx)
      · next hne hnlt =>
        refine List.pairwise_cons.mpr ⟨fun x hx => ?_, ih htail⟩
        rcases tset_keys t k v x hx with rfl | hx
        · show j < k
          omega
        · exact hhead x hx

/-- An entry's new content takes the place of its old one in a sum over the table. -/
theorem wordSum_tset {α : Type} {w : Nat} (f : α → BitVec w) {d : α} (hd : f d = 0#w) {t : Tab α} (h : keysRise t) (n : Nat) (v : α) :
    ((tset t n v).map (fun e => f e.2)).sum + f (tget d t n) = (t.map (fun e => f e.2)).sum + f v := by
  induction t with
  | nil =>
    have hget : tget d ([] : Tab α) n = d := rfl
    rw [hget, hd, tset, List.map_cons, List.map_nil, List.sum_cons, BitVec.add_zero, BitVec.add_comm]
  | cons e t ih =>
    obtain ⟨j, u⟩ := e
    obtain ⟨hhead, htail⟩ := List.pairwise_cons.mp h
    rw [tset]
    split
    · next hk =>
      have hget : tget d ((j, u) :: t) n = u := by simp [tget, tfind, hk]
      rw [hget, List.map_cons, List.map_cons, List.sum_cons, List.sum_cons, BitVec.add_assoc, BitVec.add_comm, BitVec.add_comm _ (f u)]
    · next hne =>
      split
      · next hlt =>
        have hget : tget d ((j, u) :: t) n = d := tget_below _ (fun x hx => by
          rcases List.mem_cons.mp hx with rfl | hx
          · exact hlt
          · exact Nat.lt_trans hlt (hhead x hx))
        rw [hget, hd, List.map_cons, List.sum_cons, BitVec.add_zero, BitVec.add_comm]
      · have hget : tget d ((j, u) :: t) n = tget d t n := by simp [tget, tfind, Ne.symm hne]
        rw [hget, List.map_cons, List.map_cons, List.sum_cons, List.sum_cons, BitVec.add_assoc, ih htail, BitVec.add_assoc]

/-- R168: a finite element adds what it weighs to its lane, another one sets a flag. -/
theorem laneAdd_val (l : MReg) (x : Fl) : (laneAdd l x).val = l.val + termBits x := by
  cases x with
  | fin neg mag => rfl
  | inf neg => cases neg <;> exact (BitVec.add_zero _).symm
  | nan => exact (BitVec.add_zero _).symm

theorem lanesAdd_succ (ty n : Nat) (term : Nat → Fl) (k : KState) :
    (lanesAdd ty (n + 1) term k).lanes = tmod {} (lanesAdd ty n term k).lanes (laneOf ty n) (fun l => laneAdd l (term n)) := by
  simp only [lanesAdd, List.range_succ, List.foldl_append, List.foldl_cons, List.foldl_nil]

/-- Settles O5, by induction on the number of terms: each one is added to the sum of all lanes, whichever lane it goes to. -/
theorem lanesAddExactly : Obligations.LanesAddExactly := by
  intro ty n term k hrise
  induction n with
  | zero => exact ⟨hrise, by rw [lanesAdd_none, List.range_zero, List.map_nil, List.foldl_nil]; exact (BitVec.add_zero _).symm⟩
  | succ n ih =>
    obtain ⟨hkeys, hsum⟩ := ih
    have hlanes := lanesAdd_succ ty n term k
    refine ⟨by rw [hlanes]; exact keysRise_tset hkeys _ _, ?_⟩
    have hadd : laneBits (lanesAdd ty (n + 1) term k) = laneBits (lanesAdd ty n term k) + termBits (term n) := by
      have hset := wordSum_tset MReg.val (d := {}) rfl hkeys (laneOf ty n)
        (laneAdd (tget {} (lanesAdd ty n term k).lanes (laneOf ty n)) (term n))
      rw [laneAdd_val, BitVec.add_comm (MReg.val _) (termBits _), ← BitVec.add_assoc] at hset
      rw [laneBits_eq_sum, laneBits_eq_sum, hlanes]
      exact (BitVec.add_left_inj _).mp hset
    rw [hadd, hsum, List.range_succ, List.map_append, List.foldl_append, BitVec.add_assoc]
    rfl

/-! ### Exact and extended values -/

/-- Settles O6: each exact result that fits is a write of M[D]; MTOV writes V[D]. -/
theorem kernelExact : Obligations.KernelExact := by
  intro k d a b imm rnd
  refine ⟨fun hd => ?mli, fun hd ha hb => ⟨?madd, ?msub, ?mabs⟩, fun ha hrnd => ?mtov⟩
  case mli =>
    exact kRan_setM (fun _ => (imm.setWidth 24).toInt * 2 ^ ((imm.extractLsb' 24 8).toInt + 300).toNat) (fun _ => {}) (fun _ => rfl)
      (fun _ _ => if_neg (Nat.not_lt.mpr hd))
  case madd =>
    exact kRan_setM (fun ks => (mRead ks a).val.toInt + (mRead ks b).val.toInt) (fun ks => flagsOr (mRead ks a) (mRead ks b)) (fun _ => rfl)
      (fun _ _ => if_neg (by omega))
  case msub =>
    exact kRan_setM (fun ks => (mRead ks a).val.toInt - (mRead ks b).val.toInt) (fun ks => flagsOr (mRead ks a) (flagsSwap (mRead ks b)))
      (fun _ => rfl) (fun _ _ => if_neg (by omega))
  case mabs =>
    exact kRan_setM (fun ks => ((mRead ks a).val.toInt.natAbs : Int))
      (fun ks => { pinf := (mRead ks a).pinf || (mRead ks a).ninf, ninf := false, nan := (mRead ks a).nan }) (fun _ => rfl)
      (fun _ _ => if_neg (by omega))
  case mtov =>
    exact kRan_setV (fun _ ks => extOf (rndOf rnd) (mVal (mRead ks a))) (fun _ => rfl)
      (fun _ _ _ => if_neg (not_or.mpr ⟨Nat.not_lt.mpr ha, hrnd⟩))

/-- Settles O7: the same rows where the result does not fit, and VGAM of no element. -/
theorem kernelExactOpen : Obligations.KernelExactOpen := by
  intro k d a b hd ha hb
  refine ⟨?madd, ?msub, ?mabs, ?merge, ?vgam⟩
  case madd =>
    exact kRan_openM (fun ks => (mRead ks a).val.toInt + (mRead ks b).val.toInt) (fun ks => flagsOr (mRead ks a) (mRead ks b)) (fun _ => rfl)
      (fun _ _ => if_neg (by omega))
  case msub =>
    exact kRan_openM (fun ks => (mRead ks a).val.toInt - (mRead ks b).val.toInt) (fun ks => flagsOr (mRead ks a) (flagsSwap (mRead ks b)))
      (fun _ => rfl) (fun _ _ => if_neg (by omega))
  case mabs =>
    exact kRan_openM (fun ks => ((mRead ks a).val.toInt.natAbs : Int))
      (fun ks => { pinf := (mRead ks a).pinf || (mRead ks a).ninf, ninf := false, nan := (mRead ks a).nan }) (fun _ => rfl)
      (fun _ _ => if_neg (by omega))
  case merge => exact kRan_openM laneTotal laneFlags (fun _ => rfl) (fun _ _ => if_neg (Nat.not_lt.mpr hd))
  case vgam =>
    refine kRan_setV (fun c _ => (Config.freeWide c.free).setWidth 80) (fun _ => rfl) (fun c ks hpre => ?_)
    obtain ⟨hn, hdesc⟩ := hpre
    obtain ⟨ds, hds⟩ := Option.ne_none_iff_exists'.mp hdesc
    simp only [kVgam, hds, hn]
    rfl

/-- Settles O8: every extended row is a write of V[D]. -/
theorem kernelExtended : Obligations.KernelExtended := by
  intro k d a b imm rnd
  refine ⟨?vli, fun hrnd => ⟨?vadd, ?vsub, ?vmul⟩, ?vfx, fun hfn => ?vfn, fun g => ?vgam⟩
  case vli => exact kRan_setV (fun _ _ => extOf .nearest (decodeIeee 8 23 imm.toNat)) (fun _ => rfl) (fun _ _ _ => rfl)
  case vadd => exact kRan_setV (fun _ ks => extAdd (rndOf rnd) (vRead ks a) (vRead ks b)) (fun _ => rfl) (fun _ _ _ => if_neg hrnd)
  case vsub => exact kRan_setV (fun _ ks => extAdd (rndOf rnd) (vRead ks a) (extNeg (vRead ks b))) (fun _ => rfl) (fun _ _ _ => if_neg hrnd)
  case vmul => exact kRan_setV (fun _ ks => extMul (rndOf rnd) (vRead ks a) (vRead ks b)) (fun _ => rfl) (fun _ _ _ => if_neg hrnd)
  case vfx => exact kRan_setV (fun _ ks => extOfRat .nearest ((xRead ks a).toInt : Rat)) (fun _ => rfl) (fun _ _ _ => rfl)
  case vfn =>
    exact kRan_setV (fun _ ks => if imm.toNat % 4 = 0 then extExp (vRead ks a) else if imm.toNat % 4 = 1 then extRecip (vRead ks a)
      else extSqrt (vRead ks a)) (fun _ => rfl) (fun _ _ _ => if_neg hfn)
  case vgam =>
    refine kRan_setV (fun _ _ => extOf .up (.fin false g)) (fun _ => rfl) (fun c ks hpre => ?_)
    obtain ⟨hn, ds, hds, hg⟩ := hpre
    simp only [kVgam, hds, toNat_ne_zero hn, if_false, hg]

/-! ### Findings (R169) -/

/-- A finding is stored or counted, and nothing else of the sample changes. -/
theorem addFinding_eq (f : Finding) (ks : KState) : ∃ fs n, addFinding f ks = { ks with finds := fs, lost := n } := by
  unfold addFinding
  split
  · exact ⟨_, ks.lost, rfl⟩
  · exact ⟨ks.finds, _, rfl⟩

theorem status_addFinding (f : Finding) (ks : KState) : (addFinding f ks).status = ks.status := by
  obtain ⟨_, _, h⟩ := addFinding_eq f ks
  rw [h]

theorem pc_addFinding (f : Finding) (ks : KState) : (addFinding f ks).pc = ks.pc := by
  obtain ⟨_, _, h⟩ := addFinding_eq f ks
  rw [h]

theorem kFound_addFinding (f : Finding) (ks : KState) (pc : BitVec 10) (sp : BitVec 24) (st : KStatus) :
    KFound f ks { addFinding f ks with pc := pc, steps := sp, status := st } := by
  unfold addFinding
  by_cases hroom : ks.finds.length < 64
  · simp only [hroom, if_true]
    exact ⟨fun _ => rfl, fun _ => rfl, fun _ => rfl, rfl, by rw [if_pos hroom]; exact ⟨rfl, rfl⟩⟩
  · simp only [hroom, if_false]
    exact ⟨fun _ => rfl, fun _ => rfl, fun _ => rfl, rfl, by rw [if_neg hroom]; exact ⟨rfl, rfl⟩⟩

/-- A list of findings, in order. -/
def addFindings (l : List Finding) (ks : KState) : KState := l.foldl (fun k f => addFinding f k) ks

theorem addFindings_cons (f : Finding) (l : List Finding) (ks : KState) : addFindings (f :: l) ks = addFindings l (addFinding f ks) := rfl

theorem addFindings_eq (l : List Finding) (ks : KState) : ∃ fs n, addFindings l ks = { ks with finds := fs, lost := n } := by
  induction l generalizing ks with
  | nil => exact ⟨ks.finds, ks.lost, rfl⟩
  | cons f l ih =>
    obtain ⟨fs, n, hone⟩ := addFinding_eq f ks
    obtain ⟨gs, m, hrest⟩ := ih (addFinding f ks)
    exact ⟨gs, m, by rw [addFindings_cons, hrest, hone]⟩

/-- The store holds the first 64, and the rest are counted up to 65,535. -/
theorem addFindings_stored (l : List Finding) {ks : KState} (hstore : ks.finds.length ≤ 64) (hlost : ks.lost ≤ 65535) :
    (addFindings l ks).finds = (ks.finds ++ l).take 64 ∧
    (addFindings l ks).lost = min 65535 (ks.lost + ((ks.finds ++ l).length - 64)) := by
  induction l generalizing ks with
  | nil =>
    simp only [List.append_nil, List.take_of_length_le hstore]
    exact ⟨rfl, by show ks.lost = _; omega⟩
  | cons f l ih =>
    rw [addFindings_cons]
    by_cases hroom : ks.finds.length < 64
    · have hone : addFinding f ks = { ks with finds := ks.finds ++ [f] } := if_pos hroom
      rw [hone]
      have h := ih (ks := { ks with finds := ks.finds ++ [f] }) (by simp; omega) hlost
      simpa using h
    · have hone : addFinding f ks = { ks with lost := min 65535 (ks.lost + 1) } := if_neg hroom
      have hfull : ks.finds.length = 64 := by omega
      rw [hone]
      obtain ⟨hfinds, hcount⟩ := ih (ks := { ks with lost := min 65535 (ks.lost + 1) }) hstore (Nat.min_le_left ..)
      rw [hfinds, hcount]
      refine ⟨?_, ?_⟩
      · exact (List.take_append_of_le_length (Nat.le_of_eq hfull.symm)).trans (List.take_append_of_le_length (Nat.le_of_eq hfull.symm)).symm
      · show min 65535 (min 65535 (ks.lost + 1) + ((ks.finds ++ l).length - 64)) = _
        simp only [List.length_append, List.length_cons, hfull]
        omega

/-- LSCAN over readable elements: the count in X[D], then the findings in element order. -/
theorem kLscan_runs {d a b c' ty : BitVec 4} (imm : BitVec 32) (hty : ty.toNat ≤ 8) {c : KCtx} {ks : KState}
    (h : xRead ks b = 0 ∨ kReadable c (xRead ks a).toNat (tySize ty.toNat) (xRead ks b).toNat = true) :
    kLscan d a b c' ty imm c ks = .ok (kAdv (xWrite d
      (BitVec.ofNat 64 ((List.range (xRead ks b).toNat).countP
        (fun i => scanFails (elemAt c ty.toNat (xRead ks a).toNat i) (extVal (vRead ks c')))))
      (addFindings (scanFindings c ty.toNat (xRead ks a).toNat (xRead ks b).toNat (extVal (vRead ks c')) imm) ks)))
      (laneSteps ty.toNat (xRead ks b).toNat) false := by
  rw [kLscan]
  simp only [if_neg (Nat.not_lt.mpr hty)]
  split
  · next hn =>
    have hone : laneSteps ty.toNat 0 = 1 := by
      simp only [laneSteps, laneCount]; split <;> rfl
    simp only [hn, hone]
    rfl
  · next hn =>
    have hread := h.resolve_left (fun hz => hn (by rw [hz]; rfl))
    simp only [hread, Bool.not_true, Bool.false_eq_true, if_false, addFindings, scanFindings, List.foldl_map,
      List.countP_eq_length_filter]
    rfl

/-- Settles O9: CKLE and FIND add one finding or none; LSCAN adds one for each element it fails. -/
theorem kernelFindings : Obligations.KernelFindings := by
  intro k d a b c' ty imm
  refine ⟨?holds, ?fails, ?find, fun hty => ?lscan⟩
  case holds =>
    exact kRan_next (fun _ ks => ks) (fun _ => rfl) (fun _ _ hle => if_pos hle) (fun _ _ => rfl) (fun _ _ => rfl) (fun _ ks _ _ _ _ => kQuiet_refl ks)
  case fails =>
    refine kRan_next (fun _ ks => addFinding (Finding.mk (imm.setWidth 16) ((xRead ks c').setWidth 32) (f32Fl (extVal (vRead ks a)))
      (f32Fl (extVal (vRead ks b)))) ks) (fun _ => rfl) (fun _ ks hle => ?_) (fun _ _ => status_addFinding _ _) (fun _ _ => pc_addFinding _ _)
      (fun _ ks _ pc sp st => kFound_addFinding _ ks pc sp st)
    simp only [kCkle, hle, Bool.false_eq_true, if_false]
    rfl
  case find =>
    exact kRan_next (fun _ ks => addFinding (Finding.mk (imm.setWidth 16) ((xRead ks c').setWidth 32) 0 0) ks) (fun _ => rfl) (fun _ _ _ => rfl)
      (fun _ _ => status_addFinding _ _) (fun _ _ => pc_addFinding _ _) (fun _ ks _ pc sp st => kFound_addFinding _ ks pc sp st)
  case lscan =>
    refine kRan_to _ (fun _ => rfl) (fun c ks h => kLscan_runs imm hty h) (fun c ks => ?_) (fun c ks _ sp st => ?_)
    · obtain ⟨_, _, hadd⟩ := addFindings_eq (scanFindings c ty.toNat (xRead ks a).toNat (xRead ks b).toNat (extVal (vRead ks c')) imm) ks
      exact (status_xWrite _ _ _).trans (by rw [hadd])
    · have hstore := @addFindings_stored (scanFindings c ty.toNat (xRead ks a).toNat (xRead ks b).toNat (extVal (vRead ks c')) imm) ks
      obtain ⟨fs, n, hadd⟩ := addFindings_eq (scanFindings c ty.toNat (xRead ks a).toNat (xRead ks b).toNat (extVal (vRead ks c')) imm) ks
      rw [hadd] at hstore ⊢
      refine ⟨fun r => mRead_xWrite .., fun r => vRead_xWrite .., lanes_xWrite .., congrArg (· + 1) (pc_xWrite ..),
        fun r => xRead_xWrite .., fun h1 h2 => ?_⟩
      obtain ⟨hfinds, hlost⟩ := hstore h1 h2
      exact ⟨(finds_xWrite ..).trans hfinds, (lost_xWrite ..).trans hlost⟩

/-! ### What a kernel instruction leaves alone (R165, R171) -/

/-- Every row of Table 7.3 runs one instruction on its cell. -/
theorem exec_of_kernelCell {i : Instr} {k : CellId} (h : kernelCell i = some k) : ∃ f, ∀ s, exec i s = nextOf s (kRun k i f s) := by
  unfold kernelCell at h
  split at h <;> cases h <;> exact ⟨_, fun _ => rfl⟩

/-- What running one instruction can change: the count of open values read, and its own cell. -/
theorem kRun_frame (k : CellId) (i : Instr) (f : KCtx → KState → KRes) (s : State) :
    ∃ n, s.free ≤ n ∧ ∃ l, kRun k i f s = { s with free := n, tst := { s.tst with cells := l } } ∧
      ∀ j, j ≠ cellKey k.hub k.cell → tget {} l j = tget {} s.tst.cells j := by
  unfold kRun
  split
  · exact ⟨s.free, Nat.le_refl _, s.tst.cells, rfl, fun _ _ => rfl⟩
  · next cid c ks budget _ =>
    split
    · exact ⟨s.free, Nat.le_refl _, s.tst.cells, rfl, fun _ _ => rfl⟩
    · next cause _ => exact ⟨s.free, Nat.le_refl _, _, rfl, fun j hj => cells_kPut_ne k _ s hj⟩
    · next ks1 cost op _ =>
      cases op
      case false => exact ⟨s.free, Nat.le_refl _, _, rfl, fun j hj => cells_kPut_ne k _ s hj⟩
      case true => exact ⟨s.free + 1, Nat.le_succ _, _, rfl, fun j hj => cells_kPut_ne k _ { s with free := s.free + 1 } hj⟩

theorem kRun_of_not_running {k : CellId} {i : Instr} {s : State} (h : kRunning s k i = none) (f : KCtx → KState → KRes) :
    kRun k i f s = s := by
  simp only [kRun, h]

/-- Settles O10: a kernel row is `kRun` on its cell, whatever the instruction computes. -/
theorem kernelFrame : Obligations.KernelFrame := by
  intro i k hk s t ht
  obtain ⟨f, hf⟩ := exec_of_kernelCell hk
  have hend : t = ended s (kRun k i f s) := Host.Outcome.next.inj (ht.symm.trans (hf s))
  refine ⟨?_, fun hnone => by rw [hend, kRun_of_not_running hnone]⟩
  obtain ⟨n, hn, l, hrun, hcells⟩ := kRun_frame k i f s
  exact ⟨n, hn, { s.tst with cells := l }, by rw [hend, hrun], rfl, hcells⟩

end Sys2Proof.Proofs.Kernels
end

section
/-! PROOFS. Chapter 17, the command protocol: replies, refusals, and packets that PowerWarn holds. -/

namespace Sys2Proof.Proofs.Protocol
open Sys2Proof Sys2Proof.Machine

/-! ### What posting a reply does -/

section
variable (h : HubId) (r : Reply) (s : State)

/-- The reply stands at the tail of its status queue, which moves on (R418). -/
theorem queueOf_postReply : queueOf (postReply h r s) r.queue = { queueOf s r.queue with
    replies := tset (queueOf s r.queue).replies ((queueOf s r.queue).sqTail.toNat % 64) r, sqTail := (queueOf s r.queue).sqTail + 1 } := by
  rw [postReply, queueOf, irqBit_cmd]
  exact queueOf_modQueue _ _ _

theorem queueOf_postReply_ne {q : Nat} (hq : q ≠ r.queue) : queueOf (postReply h r s) q = queueOf s q := by
  rw [postReply, queueOf, irqBit_cmd]
  exact queueOf_modQueue_ne hq _ _

/-- A reply changes its queue and its hub's IRQ_STAT, and nothing else. -/
theorem postReply_frame : postReply h r s = { s with
    cmd := { s.cmd with queues := (postReply h r s).cmd.queues }, hubA := (postReply h r s).hubA, hubB := (postReply h r s).hubB } := by
  cases h <;> rfl

@[simp] theorem postReply_opens : (postReply h r s).cmd.opens = s.cmd.opens := by
  rw [postReply, irqBit_cmd]
  exact modQueue_opens _ _ _

theorem hubOf_postReply : hubOf (postReply h r s) h = { hubOf s h with irqStat := (hubOf s h).irqStat ||| (1#19 <<< r.queue) } := by
  cases h <;> rfl

theorem hubOf_postReply_other : hubOf (postReply h r s) (other h) = hubOf s (other h) := by
  cases h <;> rfl

/-- The reply reads back where it was posted. -/
theorem replyAt_postReply : replyAt (postReply h r s) r.queue (queueOf s r.queue).sqTail = some r := by
  rw [replyAt, queueOf_postReply]
  exact tfind_tset_self _ _ _

/-- The reply posted just before another one stands. -/
theorem replyAt_postReply_earlier {n : BitVec 16} (hn : (queueOf s r.queue).sqTail = n + 1) :
    replyAt (postReply h r s) r.queue n = replyAt s r.queue n := by
  rw [replyAt, queueOf_postReply]
  refine tfind_tset_ne _ _ ?_
  rw [hn, BitVec.toNat_add]
  have hone : (1 : BitVec 16).toNat = 1 := rfl
  have := n.isLt
  omega

end

section
variable (h : HubId) (count : BitVec 16) (r : Reply) (s : State)

theorem queueOf_postFirst : queueOf (postFirst h count r s) r.queue = { queueOf s r.queue with
    firstAt := (queueOf s r.queue).firstAt ++ [(count, (queueOf s r.queue).sqTail)]
    replies := tset (queueOf s r.queue).replies ((queueOf s r.queue).sqTail.toNat % 64) r, sqTail := (queueOf s r.queue).sqTail + 1 } := by
  rw [postFirst, queueOf_postReply, queueOf_modQueue]

theorem queueOf_postFirst_ne {q : Nat} (hq : q ≠ r.queue) : queueOf (postFirst h count r s) q = queueOf s q := by
  rw [postFirst, queueOf_postReply_ne h r _ hq, queueOf_modQueue_ne hq]

theorem postFirst_frame : postFirst h count r s = { s with
    cmd := { s.cmd with queues := (postFirst h count r s).cmd.queues }, hubA := (postFirst h count r s).hubA, hubB := (postFirst h count r s).hubB } := by
  cases h <;> rfl

@[simp] theorem postFirst_opens : (postFirst h count r s).cmd.opens = s.cmd.opens := by
  rw [postFirst, postReply_opens, modQueue_opens]

theorem hubOf_postFirst : hubOf (postFirst h count r s) h = { hubOf s h with irqStat := (hubOf s h).irqStat ||| (1#19 <<< r.queue) } := by
  cases h <;> rfl

theorem hubOf_postFirst_other : hubOf (postFirst h count r s) (other h) = hubOf s (other h) := by
  cases h <;> rfl

theorem replyAt_postFirst : replyAt (postFirst h count r s) r.queue (queueOf s r.queue).sqTail = some r := by
  have hreply := replyAt_postReply h r (modQueue r.queue (fun x => { x with firstAt := x.firstAt ++ [(count, x.sqTail)] }) s)
  rw [queueOf_modQueue] at hreply
  exact hreply

end

/-- A debug command's arrival changes the key unit's session record alone (R363). -/
theorem noteDebug_eq (op : Nat) (p : Bool) (s : State) :
    ∃ d, noteDebug op p s = { s with keys := { s.keys with dbg := d } } := by
  unfold noteDebug
  split
  · exact ⟨_, rfl⟩
  · exact ⟨s.keys.dbg, rfl⟩

theorem noteDebug_of_class {op : Nat} (hD : opClass op ≠ 0xD) (hE : opClass op ≠ 0xE) (p : Bool) (s : State) : noteDebug op p s = s :=
  if_neg (not_or.mpr ⟨hD, hE⟩)

@[simp] theorem queueOf_noteDebug (op : Nat) (p : Bool) (s : State) (q : Nat) : queueOf (noteDebug op p s) q = queueOf s q := by
  obtain ⟨d, hd⟩ := noteDebug_eq op p s
  rw [hd]; rfl

/-- The bit of IRQ_STAT that a queue's reply sets (Table 18.6). -/
theorem irqBit_set {q : Nat} (hq : q < 8) (b : BitVec 19) : (b ||| 1#19 <<< q).getLsbD q = true := by
  simp [BitVec.getLsbD_or, BitVec.getLsbD_shiftLeft]
  omega

/-! ### O24, the answers that perform a row -/

/-- DONE: one final reply of status 0, after the results are in the slot. -/
theorem commit_done (row : CmdRow) (c : Caller) (s s' : State) (hq : c.queue < 8) (res pay : List Byte) (cause : Nat) :
    let t := commit row c (.done res pay cause s') s
    (queueOf t c.queue).sqTail = (queueOf s' c.queue).sqTail + 1 ∧
    replyAt t c.queue (queueOf s' c.queue).sqTail = some (replyOf c 0 true pay.length 0 cause res) ∧
    memRead (queueOf t c.queue).mem (slotAddr c.count + 64) pay.length = pay ∧
    (hubOf t c.hub).irqStat.getLsbD c.queue = true ∧
    (∀ r, r ≠ c.queue → queueOf t r = queueOf s' r) ∧
    t = { s' with cmd := { s'.cmd with queues := t.cmd.queues }, hubA := t.hubA, hubB := t.hubB, keys := t.keys } ∧
    hubOf t c.hub = { hubOf s' c.hub with irqStat := (hubOf t c.hub).irqStat } ∧ hubOf t (other c.hub) = hubOf s' (other c.hub) ∧
    (opClass row.op ≠ 0xD → opClass row.op ≠ 0xE → t.keys = s'.keys) := by
  intro t
  obtain ⟨u, hu⟩ : ∃ u, putResult c.queue c.count pay (noteDebug row.op true s') = u := ⟨_, rfl⟩
  have ht : t = postFirst c.hub c.count (replyOf c 0 true pay.length 0 cause res) u := by rw [← hu]; rfl
  have hqueue : queueOf u c.queue = { queueOf s' c.queue with
      mem := memWrite (queueOf s' c.queue).mem (slotAddr c.count + 64) pay
      memMir := memWrite (queueOf s' c.queue).memMir (slotAddr c.count + 64) pay } := by
    rw [← hu, putResult, queueOf_modQueue, queueOf_noteDebug]
  have hothers : ∀ r, r ≠ c.queue → queueOf u r = queueOf s' r := fun r hr => by
    rw [← hu, putResult, queueOf_modQueue_ne hr, queueOf_noteDebug]
  obtain ⟨d, hd⟩ := noteDebug_eq row.op true s'
  have hframe : u = { s' with cmd := { s'.cmd with queues := u.cmd.queues }, keys := u.keys } := by rw [← hu, hd]; rfl
  have hhub : ∀ h, hubOf u h = hubOf s' h := fun h => by rw [hframe]; cases h <;> rfl
  have htail : (queueOf u c.queue).sqTail = (queueOf s' c.queue).sqTail := by rw [hqueue]
  have hself := queueOf_postFirst c.hub c.count (replyOf c 0 true pay.length 0 cause res) u
  have hreply := replyAt_postFirst c.hub c.count (replyOf c 0 true pay.length 0 cause res) u
  have hirq := hubOf_postFirst c.hub c.count (replyOf c 0 true pay.length 0 cause res) u
  have hpost := postFirst_frame c.hub c.count (replyOf c 0 true pay.length 0 cause res) u
  simp only [replyOf] at hself hreply hirq
  rw [ht]
  refine ⟨?_, ?_, ?_, ?_, fun r hr => ?_, ?_, ?_, ?_, fun hD hE => ?_⟩
  · exact (congrArg Queue.sqTail hself).trans (congrArg (· + 1) htail)
  · rw [← htail]; exact hreply
  · exact (congrArg (fun x : Queue => memRead x.mem (slotAddr c.count + 64) pay.length) hself).trans (by
      rw [hqueue]; exact memRead_memWrite _ _ _)
  · exact (congrArg (fun x : Hub => x.irqStat.getLsbD c.queue) hirq).trans (irqBit_set hq _)
  · exact (queueOf_postFirst_ne _ _ _ _ hr).trans (hothers r hr)
  · rw [hpost, hframe]
  · rw [hubOf_postFirst, hhub]
  · rw [hubOf_postFirst_other, hhub]
  · rw [hpost, ← hu, noteDebug_of_class hD hE]; rfl

/-- ACCEPTED: one reply of status 1 that is not final, and the command is open. -/
theorem commit_opened (row : CmdRow) (c : Caller) (s s' : State) (key jobs : Nat) :
    let t := commit row c (.opened key jobs s') s
    (queueOf t c.queue).sqTail = (queueOf s' c.queue).sqTail + 1 ∧
    (∃ r, replyAt t c.queue (queueOf s' c.queue).sqTail = some r ∧ r.tag = c.pk.tag ∧ r.status = 1 ∧ r.final = false) ∧
    (∃ o, t.cmd.opens = s'.cmd.opens ++ [o] ∧ o.queue = c.queue ∧ o.tag = c.pk.tag ∧ o.key = key ∧ o.jobs = jobs ∧ o.first = none) := by
  refine ⟨congrArg Queue.sqTail (queueOf_postFirst ..), ⟨_, replyAt_postFirst .., rfl, rfl, rfl⟩, ⟨_, postFirst_opens .., rfl, rfl, rfl, rfl, rfl⟩⟩

/-- ACCEPTED and then DONE: two replies, and no command stays open (R424). -/
theorem commit_both (row : CmdRow) (c : Caller) (s s' : State) (res : List Byte) :
    let t := commit row c (.both res s') s
    (queueOf t c.queue).sqTail = (queueOf s' c.queue).sqTail + 2 ∧
    (∃ r, replyAt t c.queue (queueOf s' c.queue).sqTail = some r ∧ r.tag = c.pk.tag ∧ r.status = 1 ∧ r.final = false) ∧
    (∃ r, replyAt t c.queue ((queueOf s' c.queue).sqTail + 1) = some r ∧ r.tag = c.pk.tag ∧ r.status = 0 ∧ r.final = true ∧ r.res = padTo 16 res) ∧
    t.cmd.opens = s'.cmd.opens := by
  intro t
  obtain ⟨u, hu⟩ : ∃ u, postFirst c.hub c.count (replyOf c stAccepted false 0 0 0 []) (noteDebug row.op true s') = u := ⟨_, rfl⟩
  have ht : t = postReply c.hub (replyOf c stDone true 0 0 0 res) u := by rw [← hu]; rfl
  have htail : (queueOf u c.queue).sqTail = (queueOf s' c.queue).sqTail + 1 := by
    rw [← hu]
    exact (congrArg Queue.sqTail (queueOf_postFirst ..)).trans (congrArg (fun x : Queue => x.sqTail + 1) (queueOf_noteDebug ..))
  have hfirst : replyAt u c.queue (queueOf s' c.queue).sqTail = some (replyOf c stAccepted false 0 0 0 []) := by
    rw [← hu, ← queueOf_noteDebug row.op true s' c.queue]
    exact replyAt_postFirst c.hub c.count (replyOf c stAccepted false 0 0 0 []) (noteDebug row.op true s')
  have hopens : u.cmd.opens = s'.cmd.opens := by
    obtain ⟨d, hd⟩ := noteDebug_eq row.op true s'
    rw [← hu, postFirst_opens, hd]
  rw [ht]
  refine ⟨?_, ⟨_, (replyAt_postReply_earlier c.hub (replyOf c stDone true 0 0 0 res) u htail).trans hfirst, rfl, rfl, rfl⟩,
    ⟨replyOf c stDone true 0 0 0 res, ?_, rfl, rfl, rfl, rfl⟩, (postReply_opens ..).trans hopens⟩
  · refine (congrArg Queue.sqTail (queueOf_postReply c.hub (replyOf c stDone true 0 0 0 res) u)).trans ?_
    show (queueOf u c.queue).sqTail + 1 = _
    rw [htail, BitVec.add_assoc]
    rfl
  · exact htail ▸ replyAt_postReply c.hub (replyOf c stDone true 0 0 0 res) u

/-- Settles O24: the replies and frames of the three answers that perform a row. -/
theorem commandReplies : Obligations.CommandReplies := fun row c s s' hq =>
  ⟨fun res pay cause => commit_done row c s s' hq res pay cause,
   fun key jobs res => ⟨commit_opened row c s s' key jobs, commit_both row c s s' res⟩⟩

/-! ### O25, O26, O27: packets that are not performed, or not yet -/

/-- Every packet's command is the interpreter at its row, and its opcode is one of the command reference; the key unit follows some at
once (R349). -/
theorem exec_of_rowOf {i : Instr} {row : CmdRow} {pk : Packet} (h : rowOf i = some (row, pk)) :
    row.op ∈ knownOps ∧ ∀ s, exec i s = nextOf s ((if keyPolled i then keyPoll else id) (runCmd row i pk s)) := by
  unfold rowOf at h
  split at h <;> cases h <;> exact ⟨by decide, fun _ => rfl⟩

theorem exec_of_packetOf {i : Instr} {row : CmdRow} {pk : Packet} (h : PacketOf i row pk) :
    row.op ∈ knownOps ∧ ∀ s, exec i s = nextOf s (runCmd row i pk s) := by
  obtain ⟨hrow, hpoll⟩ := h
  obtain ⟨hop, hexec⟩ := exec_of_rowOf hrow
  rw [hpoll] at hexec
  exact ⟨hop, hexec⟩

section
variable {i : Instr} {row : CmdRow} {pk : Packet} {h : HubId} {s : State}

/-- A packet that is not held is interpreted at once. -/
theorem exec_interprets (hp : PacketOf i row pk) (ht : Turn pk h s) (hpow : powerWarn s = false ∨ quiet row pk = true) :
    exec i s = nextOf s (interpret row (callerFor row pk h s) (took row pk s)) := by
  obtain ⟨hop, hexec⟩ := exec_of_packetOf hp
  have hnot : (powerWarn s && !quiet row pk) = false := by rcases hpow with h | h <;> simp [h]
  rw [hexec, ht.run hop, hnot]
  rfl

/-- A status other than INTERNAL with no effect is a refusal. -/
theorem refuses_of {st e : Nat} (hst : st ≠ stInternal) (hexec : exec i s = nextOf s (interpret row (callerFor row pk h s) (took row pk s)))
    (hans : interpret row (callerFor row pk h s) (took row pk s) = commit row (callerFor row pk h s) (.err st e 0) (took row pk s)) :
    Refuses i row pk h s st e := by
  rw [Refuses, hexec, hans]
  simp only [commit, if_neg hst]
  rfl

theorem interpret_of_fault {e : Nat} (hf : headFault row pk (took row pk s) = some e) :
    interpret row (callerFor row pk h s) (took row pk s) = commit row (callerFor row pk h s) (.err stBadParam e 0) (took row pk s) := by
  show (match headFault row pk (took row pk s) with | some eoff => _ | none => _) = _
  rw [hf]

theorem interpret_of_head (hf : headFault row pk (took row pk s) = none) :
    interpret row (callerFor row pk h s) (took row pk s) =
      commit row (callerFor row pk h s) (answer row (callerFor row pk h s) (took row pk s)) (took row pk s) := by
  show (match headFault row pk (took row pk s) with | some eoff => _ | none => _) = _
  rw [hf]

/-- Taking a packet opens and closes no command. -/
theorem took_opens (ht : Turn pk h s) : (took row pk s).cmd.opens = s.cmd.opens := by
  obtain ⟨n, qs, htook⟩ := took_fields (row := row) (ht.idle _ pk.queue.isLt) ht.slot
  rw [htook]

/-- An answer that performs the row passes the ownership check, and then come the TAG, the PARAM bytes and the room for open commands. -/
theorem answer_of_good {c : Caller} {t : State} {a : Ans} (hperm : permitted row c t = true) (hbody : row.body c t = a) (ha : ansGood a) :
    answer row c t =
      if t.cmd.opens.any (fun o => o.queue = c.queue ∧ o.tag = c.pk.tag) then .err stBadParam 2 0
      else match strayParam c.pk row.named with
        | some i => badAt i
        | none =>
          if decide (8 ≤ openOf t c.queue) && !(match a with | .done _ _ _ _ => true | _ => false) then ansBusy
          else if c.pk.internal then .err stInternal 0 0 else a := by
  cases a with
  | err => exact ha.elim
  | errWith => exact ha.elim
  | done res pay cause u =>
    simp only [answer, hperm, hbody, Bool.not_true, Bool.false_eq_true, if_false, Bool.and_false]
    rfl
  | opened key jobs u =>
    simp only [answer, hperm, hbody, Bool.not_true, Bool.false_eq_true, if_false, Bool.not_false, Bool.and_true]
    rfl
  | slow key jobs u =>
    simp only [answer, hperm, hbody, Bool.not_true, Bool.false_eq_true, if_false, Bool.not_false, Bool.and_true]
    rfl
  | both res u =>
    simp only [answer, hperm, hbody, Bool.not_true, Bool.false_eq_true, if_false, Bool.not_false, Bool.and_true]
    rfl

theorem opens_any_iff {l : List OpenCmd} {q : Nat} {tag : BitVec 16} :
    l.any (fun o => decide (o.queue = q ∧ o.tag = tag)) = true ↔ ∃ o ∈ l, o.queue = q ∧ o.tag = tag := by
  simp only [List.any_eq_true, decide_eq_true_eq]

end

/-- Settles O25: each check that fails gives its status before any later one is looked at, and its answer leaves the state taken. -/
theorem commandRefusals : Obligations.CommandRefusals := by
  intro i row pk h s hp ht hpow
  have hexec := exec_interprets hp ht hpow
  have hopens := took_opens (row := row) ht
  refine ⟨fun e hf => ?_, fun hf hperm => ?_, fun hf hperm a hbody ha => ?_⟩
  · exact refuses_of (by decide) hexec (interpret_of_fault hf)
  · refine refuses_of (by decide) hexec ?_
    rw [interpret_of_head hf, answer, hperm]
    rfl
  · have hanswer := answer_of_good hperm hbody ha
    have htag : ((took row pk s).cmd.opens.any (fun o => decide (o.queue = (callerFor row pk h s).queue ∧ o.tag = (callerFor row pk h s).pk.tag)) = true) ↔
        ∃ o ∈ s.cmd.opens, o.queue = pk.queue.toNat ∧ o.tag = pk.tag := by
      rw [opens_any_iff, hopens]
      rfl
    have hpk : (callerFor row pk h s).pk = pk := rfl
    refine ⟨fun hused => ?_, fun hfresh n hn => ?_, fun hfresh hn hfull hopened => ?_⟩
    · refine refuses_of (by decide) hexec ?_
      rw [interpret_of_head hf, hanswer, if_pos (htag.mpr hused)]
    · refine refuses_of (by decide) hexec ?_
      have hnot : ¬ ∃ o ∈ s.cmd.opens, o.queue = pk.queue.toNat ∧ o.tag = pk.tag := fun ⟨o, ho, hq, htg⟩ => hfresh o ho hq htg
      rw [interpret_of_head hf, hanswer, if_neg (fun hany => hnot (htag.mp hany)), hpk, hn]
      rfl
    · refine refuses_of (by decide) hexec ?_
      have hnot : ¬ ∃ o ∈ s.cmd.opens, o.queue = pk.queue.toNat ∧ o.tag = pk.tag := fun ⟨o, ho, hq, htg⟩ => hfresh o ho hq htg
      have hroom : 8 ≤ openOf (took row pk s) (callerFor row pk h s).queue := by rw [openOf, hopens]; exact hfull
      obtain ⟨key, jobs, u, rfl⟩ := hopened
      rw [interpret_of_head hf, hanswer, if_neg (fun hany => hnot (htag.mp hany)), hpk, hn]
      simp only [hroom, decide_true, Bool.true_and, Bool.not_false, if_true]
      rfl

/-- The queues other than the packet's are as before it was taken. -/
theorem queueOf_took_ne {row : CmdRow} {pk : Packet} {h : HubId} {s : State} (ht : Turn pk h s) {q : Nat} (hq : q ≠ pk.queue.toNat) :
    queueOf (took row pk s) q = queueOf s q := by
  unfold took
  rw [submit_eq (ht.idle _ pk.queue.isLt) ht.slot]
  obtain ⟨n, hn⟩ := take_fields pk.queue.toNat (modQueue pk.queue.toNat
    (fun x => { x with mem := memWrite x.mem (slotAddr x.tail) (packetBytes row.op pk), tail := x.tail + 1 }) s)
  rw [hn, queueOf_with_rr, queueOf_modQueue_ne hq, queueOf_modQueue_ne hq]

/-- Settles O26: taking a packet changes its queue alone, its reply the queue's status and the hub's IRQ_STAT. -/
theorem refusalFrame : Obligations.RefusalFrame := by
  intro i row pk h s st e t ht href hexec
  obtain ⟨n, qs, htook⟩ := took_fields (row := row) (ht.idle _ pk.queue.isLt) ht.slot
  obtain ⟨d, hd⟩ := noteDebug_eq row.op false (took row pk s)
  obtain ⟨u, hu⟩ : ∃ u, noteDebug row.op false (took row pk s) = u := ⟨_, rfl⟩
  have hframe : u = { s with cmd := { s.cmd with rr := n, queues := qs }, keys := u.keys } := by rw [← hu, hd, htook]
  have hkeys : ({ u.keys with dbg := none } : Keys) = { s.keys with dbg := none } := by rw [← hu, hd, htook]
  have hothers : ∀ q, q ≠ pk.queue.toNat → queueOf u q = queueOf s q := fun q hq => by
    rw [← hu, queueOf_noteDebug, queueOf_took_ne ht hq]
  have hhub : ∀ g, hubOf u g = hubOf s g := fun g => by rw [hframe]; cases g <;> rfl
  rw [Refuses, hu] at href
  have hend := Host.Outcome.next.inj (hexec.symm.trans href)
  obtain ⟨r, hr⟩ : ∃ r, replyOf (callerFor row pk h s) st true 0 e 0 [] = r := ⟨_, rfl⟩
  have hrq : r.queue = pk.queue.toNat := by rw [← hr]; rfl
  rw [hr] at hend
  have hqueues : ∀ q, q ≠ pk.queue.toNat → queueOf t q = queueOf s q := fun q hq => by
    rw [hend]
    exact (queueOf_postFirst_ne h _ r u (hrq ▸ hq)).trans (hothers q hq)
  have hpins : ∀ g, hubOf t g = pinsOf (hubOf (postFirst h (queueOf s pk.queue.toNat).tail r u) g) := fun g => by
    rw [hend]; cases g <;> rfl
  have hpeer : hubOf t (other h) = pinsOf (hubOf s (other h)) := by rw [hpins, hubOf_postFirst_other, hhub]
  have hown : ∃ b, hubOf t h = pinsOf { hubOf s h with irqStat := b } := ⟨_, by rw [hpins, hubOf_postFirst, hhub]⟩
  have hstate : t = { s with cmd := { s.cmd with rr := n, queues := t.cmd.queues }, hubA := t.hubA, hubB := t.hubB, keys := u.keys } := by
    rw [hend]
    refine (congrArg (ended s) (postFirst_frame h (queueOf s pk.queue.toNat).tail r u)).trans ?_
    generalize postFirst h (queueOf s pk.queue.toNat).tail r u = v
    rw [hframe]
    rfl
  rw [hstate] at hqueues hpeer hown ⊢
  exact ⟨rfl, rfl, rfl, rfl, rfl, rfl, rfl, rfl, rfl, rfl, rfl, rfl, rfl, rfl, rfl, rfl, rfl, hkeys, rfl, rfl, rfl, hqueues, hpeer, hown⟩

/-- Settles O27: PowerWarn holds the packet last, after it has been taken and before any reply. -/
theorem powerWarnHolds : Obligations.PowerWarnHolds := by
  intro i row pk h s hp ht hwarn hquiet
  obtain ⟨hop, hexec⟩ := exec_of_packetOf hp
  have hidle := ht.idle _ pk.queue.isLt
  obtain ⟨n, qs, htook⟩ := took_fields (row := row) hidle ht.slot
  have hqueue := queueOf_took (row := row) hidle ht.slot
  have hrun : exec i s = nextOf s (holdCmd pk.queue.toNat (queueOf s pk.queue.toNat).tail i (took row pk s)) := by
    rw [hexec, ht.run hop, hwarn, hquiet]
    rfl
  refine ⟨_, hrun, ?_, ?_, ?_⟩
  · show (took row pk s).cmd.held ++ _ = _
    rw [htook]
  · show (queueOf (took row pk s) pk.queue.toNat).sqTail = _
    rw [hqueue]
    rfl
  · show (queueOf (took row pk s) pk.queue.toNat).taken = _
    rw [hqueue, hidle]

end Sys2Proof.Proofs.Protocol
end

section
/-! PROOFS. Chapter 17, rows that perform: what a row's own checks come to where their conditions hold. -/

namespace Sys2Proof.Proofs.Rows
open Sys2Proof Sys2Proof.Machine

/-! ### A check that passes -/

section
variable {bad k : Ans}

theorem need_ok {c : Bool} (h : c = true) : need c bad k = k := if_pos h

theorem need_dec {P : Prop} [Decidable P] (h : P) : need (decide P) bad k = k := need_ok (decide_eq_true h)

theorem need_dec2 {P Q : Prop} [Decidable P] [Decidable Q] (h : P) (h' : Q) : need (decide P && decide Q) bad k = k :=
  need_ok (by rw [decide_eq_true h, decide_eq_true h', Bool.and_self])

end

theorem needSite_ok {s : State} {pk : Packet} {lo : Nat} {form : Nat → Bool} {k : Nat → Ans} (h : okSite s (parN pk lo 4) = true)
    (hf : form (parN pk lo 4) = true) : needSite s pk lo form k = k (parN pk lo 4) := by
  rw [needSite, h, hf]
  rfl

theorem needJob_ok {pk : Packet} {lo : Nat} {k : Nat → Ans} (h : parN pk lo 2 < 4096) : needJob pk lo k = k (parN pk lo 2) := if_pos h

theorem needMask_ok {pk : Packet} {lo : Nat} {k : List Nat → Ans} (h : maskStray pk lo = none) :
    needMask pk lo k = k (maskParts (parN pk lo 16)) := by
  rw [needMask, h]

theorem needObj_ok {c : Caller} {s : State} {k : Nat → SyncObj → Ans} (h : parN c.pk 0 2 < 32768)
    (ht : c.role = 2 → (objOf s (parN c.pk 0 2)).tenant = c.tenant) : needObj c s k = k (parN c.pk 0 2) (objOf s (parN c.pk 0 2)) := by
  have hmine : ¬ (c.role = 2 ∧ (objOf s (parN c.pk 0 2)).tenant ≠ c.tenant) := fun hr => hr.2 (ht hr.1)
  simp only [needObj, Nat.not_le.mpr h, if_false, if_neg hmine]

theorem needCtx_ok {c : Caller} {s : State} {lo : Nat} {k : Nat → Ctx → Ans} (h : parB c.pk lo < 64)
    (ht : c.role = 2 → (ctxOf s (parB c.pk lo)).tenant = c.tenant) : needCtx c s lo k = k (parB c.pk lo) (ctxOf s (parB c.pk lo)) := by
  have hmine : ¬ (c.role = 2 ∧ (ctxOf s (parB c.pk lo)).tenant ≠ c.tenant) := fun hr => hr.2 (ht hr.1)
  simp only [needCtx, Nat.not_le.mpr h, if_false, if_neg hmine]

theorem needSlot_ok {c : Caller} {s : State} {k : Nat → KSlot → Ans} (h : parN c.pk 0 2 < s.keys.keySlots) :
    needSlot c s k = k (parN c.pk 0 2) (slotOf s (parN c.pk 0 2)) := if_neg (Nat.not_le.mpr h)

theorem mayChange_ok {c : Caller} {s : State} {x : Ctx} {k : Ans} (h : x.state = 0) (hf : isForce c.pk = true ∨ changeWaits s = false) :
    mayChange c s x k = k := by
  rw [mayChange, need_dec h, need_ok (by rcases hf with h | h <;> simp [h])]

/-! ### Pieced loads (R175, R425) -/

theorem piece_first {c : Caller} {s : State} {op target lim : Nat} (fin : List Byte → State → Ans) (h : firstPiece op target lim c s) :
    piece c s op target lim fin = ansOk (pieceKept op target c s) := by
  obtain ⟨hnone, hoff, hlen, hlast⟩ := h
  have hin : ¬ (parN c.pk 4 4 ≠ ([] : List Byte).length ∨ lim < ([] ++ payOf c.pk : List Byte).length) := by
    rw [hoff, List.nil_append, List.length_nil]
    omega
  simp only [piece, hnone, if_neg hin, hlast, Bool.false_eq_true, if_false]
  rfl

theorem piece_whole {c : Caller} {s : State} {op target lim : Nat} (fin : List Byte → State → Ans) (hnone : loadOf s op target = none)
    (hoff : parN c.pk 4 4 = 0) (hlen : (payOf c.pk).length ≤ lim) (hlast : isLast c.pk = true) :
    piece c s op target lim fin = fin (payOf c.pk) (dropLoad op target s) := by
  have hin : ¬ (parN c.pk 4 4 ≠ ([] : List Byte).length ∨ lim < ([] ++ payOf c.pk : List Byte).length) := by
    rw [hoff, List.nil_append, List.length_nil]
    omega
  simp only [piece, hnone, if_neg hin, hlast, if_true, Bool.false_eq_true, if_false]
  rfl

/-! ### Rows whose result is read field by field -/

/-- A packet that is ready is answered by its row. -/
theorem answers_of {row : CmdRow} {c : Packet → Instr} {pk : Packet} {h : HubId} {s : State} {a : Ans}
    (he : ∀ s, exec (c pk) s = nextOf s (runCmd row (c pk) pk s)) (hk : row.op ∈ knownOps) (r : Ready row pk h s)
    (hb : row.body (callerFor row pk h s) (took row pk s) = a) (ha : ansGood a) : Answers row c pk h s a := by
  rw [Answers, he, r.answers hk (c pk) hb ha]
  rfl

/-- Taking a packet changes the command queues alone. -/
theorem took_of_ready {row : CmdRow} {pk : Packet} {h : HubId} {s : State} (r : Ready row pk h s) :
    ∃ n qs, took row pk s = { s with cmd := { s.cmd with rr := n, queues := qs } } :=
  took_fields (r.idle _ pk.queue.isLt) r.slot

/-- A little-endian field of a result, cut to its size. -/
theorem fieldAt_at {n off v : Nat} (l a r : List Byte) (hl : l = a ++ leBytes n v ++ r) (ho : a.length = off) :
    fieldAt l off n = v % 256 ^ n := by
  rw [hl, ← ho, fieldAt_append]

theorem padTo_of_le {n : Nat} {l : List Byte} (h : l.length ≤ n) : padTo n l = l ++ List.replicate (n - l.length) 0 := by
  simp [padTo, slice, List.take_of_length_le h]

@[simp] theorem length_padTo (n : Nat) (l : List Byte) : (padTo n l).length = n := length_slice l 0 n

theorem flag_lt (b : Bool) : flag b < 256 := by cases b <;> decide

theorem roleCode_lt (r : Role) : roleCode r < 256 := by cases r <;> decide

/-! ### Class HUB (R430) -/

/-- The bytes of HUB.STATUS. -/
def statusBytes (s : State) (h : HubId) : List Byte :=
  leBytes 1 (roleCode s.hubA.role) ++ leBytes 1 (roleCode s.hubB.role) ++ leBytes 1 s.boot.profile.id ++ leBytes 1 s.boot.device ++
    leBytes 2 (parts.filter (partInService s)).length ++ leBytes 1 (flag s.keys.dbg.isSome) ++ leBytes 1 0 ++
    (List.range 8).flatMap (fun q => leBytes 1 (queueOf s q).bind) ++ (List.range 8).flatMap (fun q => leBytes 1 (openOf s q)) ++
    leBytes 8 (hubOf s h).hbeat

/-- Rows of one length in a report. -/
theorem length_flatMap_range {f : Nat → List Byte} {k : Nat} (hf : ∀ j, (f j).length = k) (n : Nat) : ((List.range n).flatMap f).length = n * k := by
  induction n with
  | zero => rw [List.range_zero, List.flatMap_nil, List.length_nil, Nat.zero_mul]
  | succ n ih =>
    rw [List.range_succ, List.flatMap_append, List.length_append, ih, List.flatMap_singleton, hf, Nat.succ_mul]

theorem length_octets (f : Nat → Nat) : ((List.range 8).flatMap (fun q => leBytes 1 (f q))).length = 8 :=
  length_flatMap_range (k := 1) (fun _ => rfl) 8

theorem statusBytes_fields (s : State) (h : HubId) :
    let pay := padTo 64 (statusBytes s h)
    fieldAt pay 0 1 = roleCode s.hubA.role ∧ fieldAt pay 1 1 = roleCode s.hubB.role ∧ fieldAt pay 3 1 = s.boot.device % 256 ∧
    fieldAt pay 6 1 = flag s.keys.dbg.isSome ∧ fieldAt pay 24 8 = (hubOf s h).hbeat % 2 ^ 64 := by
  have hlen : (statusBytes s h).length ≤ 64 := by
    simp only [statusBytes, List.length_append, length_leBytes, length_octets]
    decide
  have hpay := padTo_of_le hlen
  rw [hpay]
  refine ⟨?_, ?_, ?_, ?_, ?_⟩
  · exact (fieldAt_at _ [] _ (by simp only [statusBytes, List.append_assoc, List.nil_append]; rfl) rfl).trans (Nat.mod_eq_of_lt (roleCode_lt _))
  · exact (fieldAt_at _ (leBytes 1 (roleCode s.hubA.role)) _ (by simp only [statusBytes, List.append_assoc]; rfl) rfl).trans
      (Nat.mod_eq_of_lt (roleCode_lt _))
  · exact fieldAt_at _ (leBytes 1 (roleCode s.hubA.role) ++ leBytes 1 (roleCode s.hubB.role) ++ leBytes 1 s.boot.profile.id) _
      (by simp only [statusBytes, List.append_assoc]; rfl) rfl
  · exact (fieldAt_at _ (leBytes 1 (roleCode s.hubA.role) ++ leBytes 1 (roleCode s.hubB.role) ++ leBytes 1 s.boot.profile.id ++
      leBytes 1 s.boot.device ++ leBytes 2 (parts.filter (partInService s)).length) _ (by simp only [statusBytes, List.append_assoc]; rfl) rfl).trans
      (Nat.mod_eq_of_lt (flag_lt _))
  · refine fieldAt_at _ (leBytes 1 (roleCode s.hubA.role) ++ leBytes 1 (roleCode s.hubB.role) ++ leBytes 1 s.boot.profile.id ++
      leBytes 1 s.boot.device ++ leBytes 2 (parts.filter (partInService s)).length ++ leBytes 1 (flag s.keys.dbg.isSome) ++ leBytes 1 0 ++
      (List.range 8).flatMap (fun q => leBytes 1 (queueOf s q).bind) ++ (List.range 8).flatMap (fun q => leBytes 1 (openOf s q))) _ rfl ?_
    simp only [List.length_append, length_leBytes, length_octets]

/-- Settles O11: each HUB row's checks pass under its condition, and HUB.STATUS's fields are those of the state it is taken in. -/
theorem hubCommands : Obligations.HubCommands := by
  refine ⟨?nop, ?qbind, ?status, ?profile, ?debugOpen, ?debugClose, ?debugList, ?counters⟩
  case nop => exact performs_of (fun _ _ => rfl) (by decide) (fun _ _ _ => rfl) (fun _ _ => trivial)
  case qbind =>
    refine performs_of (fun _ _ => rfl) (by decide) (fun c s h => ?_) (fun _ _ => trivial)
    obtain ⟨h1, h2, h3, htail, hopen, hheld⟩ := h
    simp only [hubQbindRow, need, h1, h2, h3, htail, hopen, hheld, decide_true, Bool.and_self, Bool.not_false, if_true, ne_eq, not_false_eq_true]
  case status =>
    intro pk h s r
    obtain ⟨n, qs, ht⟩ := took_of_ready r
    refine ⟨padTo 64 (statusBytes (took hubStatusRow pk s) h), answers_of (fun _ => rfl) (by decide) r rfl trivial, length_padTo .., ?_⟩
    obtain ⟨ha, hb, hd, hg, hbeat⟩ := statusBytes_fields (took hubStatusRow pk s) h
    have hhub : ∀ g, hubOf (took hubStatusRow pk s) g = hubOf s g := fun g => by rw [ht]; cases g <;> rfl
    refine ⟨ha.trans ?_, hb.trans ?_, hd.trans ?_, hg.trans ?_, hbeat.trans ?_⟩
    · rw [ht]
    · rw [ht]
    · rw [ht]
    · rw [ht]; rfl
    · rw [hhub]
  case profile =>
    refine performs_of (fun _ _ => rfl) (by decide) (fun c s h => ?_) (fun _ _ => trivial)
    exact (need_dec h.1).trans (by rw [if_neg h.2])
  case debugOpen =>
    refine performs_of (fun _ _ => rfl) (by decide) (fun c s h => ?_) (fun _ _ => trivial)
    simp only [hubDebugRow, h.1, h.2, need_ok Option.isNone_none]
  case debugClose =>
    refine performs_of (fun _ _ => rfl) (by decide) (fun c s h => ?_) (fun _ _ => trivial)
    simp only [hubDebugRow, h.1, need_ok (Option.isSome_iff_ne_none.mpr h.2)]
  case debugList =>
    refine performs_of (fun _ _ => rfl) (by decide) (fun c s h => ?_) (fun _ _ => trivial)
    simp only [hubDebugRow, h]
  case counters =>
    refine performs_of (fun _ _ => rfl) (by decide) (fun c s h => ?_) (fun _ _ => trivial)
    obtain ⟨hscope, hok, hform, hcount, hmine⟩ := h
    have hread : ¬ (c.role = 2 ∧ sitePart (parN c.pk 4 4) ≤ 97 ∧ tenantReads s c.tenant (sitePart (parN c.pk 4 4)) = false) := fun hr => by
      rw [hmine hr.1] at hr
      exact Bool.noConfusion hr.2.2
    have hform' : (if parB c.pk 0 ≤ 1 then isClusterSite else isPartSite) (parN c.pk 4 4) = true := by
      split <;> simp_all
    have hcount' : (if parB c.pk 0 = 1 then decide (1 ≤ parN c.pk 8 2) && decide (parN c.pk 8 2 ≤ 128) &&
        decide (siteCluster (parN c.pk 4 4) + parN c.pk 8 2 ≤ 640) else decide (parN c.pk 8 2 = 0)) = true := by
      split
      · next h1 =>
        rw [if_pos h1] at hcount
        simp only [hcount, decide_true, Bool.and_self]
      · next h1 =>
        rw [if_neg h1] at hcount
        exact decide_eq_true hcount
    simp only [hubCountersRow, if_neg hread]
    rw [need_dec hscope, needSite_ok hok hform', need_ok hcount']

/-! ### Classes SCREEN and SHADOW (R431) -/

/-- Settles O12: a report names one partition or none, a floor one cluster or a partition's 640. -/
theorem screenCommands : Obligations.ScreenCommands := by
  refine ⟨?report, ?device, ?setCluster, ?setPart, ?get⟩
  case report =>
    refine performs_of (fun _ _ => rfl) (by decide) (fun c s h => ?_) (fun _ _ => trivial)
    refine (need_dec (Or.inl h)).trans ?_
    rw [if_neg (by omega)]
  case device =>
    refine performs_of (fun _ _ => rfl) (by decide) (fun c s h => ?_) (fun _ _ => trivial)
    refine (need_dec (Or.inr h)).trans ?_
    rw [if_pos h, List.append_nil]
  case setCluster =>
    refine performs_of (fun _ _ => rfl) (by decide) (fun c s h => ?_) (fun _ _ => trivial)
    obtain ⟨hok, hclu, hpart, hv⟩ := h
    have hform : (isClusterSite (parN c.pk 0 4) || isPartSite (parN c.pk 0 4)) = true := by rw [hclu, Bool.true_or]
    simp only [shadowSetRow, needSite_ok (form := fun x => isClusterSite x || isPartSite x) hok hform, need_dec hv, hpart]
    rfl
  case setPart =>
    refine performs_of (fun _ _ => rfl) (by decide) (fun c s h => ?_) (fun _ _ => trivial)
    obtain ⟨hok, hpart, hv⟩ := h
    have hform : (isClusterSite (parN c.pk 0 4) || isPartSite (parN c.pk 0 4)) = true := by rw [hpart, Bool.or_true]
    simp only [shadowSetRow, needSite_ok (form := fun x => isClusterSite x || isPartSite x) hok hform, need_dec hv, if_pos hpart]
  case get =>
    refine performs_of (fun _ _ => rfl) (by decide) (fun c s h => ?_) (fun _ _ => trivial)
    obtain ⟨hok, hclu, h1, h2, h3⟩ := h
    simp only [shadowGetRow, needSite_ok hok hclu, need, h1, h2, h3, decide_true, Bool.and_self, if_true]
    rfl

/-! ### Class TSTONE (R432) -/

/-- A job that the caller owns, where it is a tenant, is not refused. -/
theorem not_foreign {c : Caller} {s : State} {j : Nat} {P : Prop} (h : c.role = 2 → ownsJob c s j = true) :
    ¬ (c.role = 2 ∧ P ∧ !ownsJob c s j) := fun hr => by
  rw [h hr.1] at hr
  exact absurd hr.2.2 (by decide)

theorem not_other {role a b : Nat} (h : role = 2 → a = b) : ¬ (role = 2 ∧ a ≠ b) := fun hr => hr.2 (h hr.1)

/-- Settles O13: a tenant's own job and kernel pass the ownership checks, and the rest are the row's parameters. -/
theorem touchstoneCommands : Obligations.TouchstoneCommands := by
  refine ⟨?remove, fun d => ?set, ?share, ?shareNone, ?report, fun k => ?kload, ?kloadFirst, ?kunload, fun i => ?kattach, ?kdetach, fun r => ?kresult⟩
  case remove =>
    refine performs_of (fun _ _ => rfl) (by decide) (fun c s h => ?_) (fun _ _ => trivial)
    obtain ⟨hjob, hown, hmode⟩ := h
    simp only [tstoneDescRow, if_neg (not_foreign hown), needJob_ok hjob, need_dec (Nat.le_of_eq hmode), if_pos hmode]
  case set =>
    refine performs_of (fun _ _ => rfl) (by decide) (fun c s h => ?_) (fun _ _ => trivial)
    obtain ⟨hjob, hown, hmode, hparse, hroom⟩ := h
    have hroom' : ((tfind s.tst.descs (descKey (parN c.pk 0 2) (parB c.pk 2))).isSome || decide (s.tst.descs.length < 8192)) = true := by
      rw [decide_eq_true hroom, Bool.or_true]
    simp only [tstoneDescRow, if_neg (not_foreign hown), needJob_ok hjob, hmode, hparse, need_ok hroom']
    rfl
  case share =>
    refine performs_of (fun _ _ => rfl) (by decide) (fun c s h => ?_) (fun _ _ => trivial)
    refine (need_ok (by rw [decide_eq_true h, Bool.true_or])).trans ?_
    rw [if_neg (by omega)]
  case shareNone =>
    refine performs_of (fun _ _ => rfl) (by decide) (fun c s h => ?_) (fun _ _ => trivial)
    refine (need_ok (by rw [decide_eq_true h, Bool.or_true])).trans ?_
    rw [if_pos h]
  case report => exact performs_of (fun _ _ => rfl) (by decide) (fun _ _ _ => rfl) (fun _ _ => trivial)
  case kload =>
    refine performs_of (fun _ _ => rfl) (by decide) (fun c s h => ?_) (fun _ _ => trivial)
    obtain ⟨hslot, hfree, hnone, hoff, hlen, hlast, himage⟩ := h
    simp only [tstoneKloadRow, Nat.not_le.mpr hslot, if_false, hfree, piece_whole _ hnone hoff hlen hlast, himage]
  case kloadFirst =>
    refine performs_of (fun _ _ => rfl) (by decide) (fun c s h => ?_) (fun _ _ => trivial)
    obtain ⟨hslot, hfree, hfirst⟩ := h
    simp only [tstoneKloadRow, Nat.not_le.mpr hslot, if_false, hfree, piece_first _ hfirst]
  case kunload =>
    refine performs_of (fun _ _ => rfl) (by decide) (fun c s h => ?_) (fun _ _ => trivial)
    obtain ⟨hslot, k, hk, hmine⟩ := h
    simp only [tstoneKunloadRow, Nat.not_le.mpr hslot, if_false, hk, if_neg (not_other hmine)]
  case kattach =>
    refine performs_of (fun _ _ => rfl) (by decide) (fun c s h => ?_) (fun _ _ => trivial)
    obtain ⟨hslot, hjob, ⟨k, hk, hmine⟩, hown, hsrc, hcount, hfilter, hroom, hfirst⟩ := h
    simp only [tstoneKattachRow, hk, Option.all_some, hmine, ne_eq, not_true_eq_false, decide_false, Bool.and_false, hown, Bool.not_true,
      Bool.or_self, Bool.false_eq_true, if_false, Nat.not_le.mpr hslot, needJob_ok hjob, need_dec hsrc, need_dec hcount,
      need_dec (Nat.le_of_eq hfilter), need_dec hroom, hfirst, if_pos hfilter]
  case kdetach =>
    refine performs_of (fun _ _ => rfl) (by decide) (fun c s h => ?_) (fun _ _ => trivial)
    obtain ⟨hi, a, ha, hmine⟩ := h
    simp only [tstoneKdetachRow, Nat.not_le.mpr hi, if_false, ha, if_neg (not_other hmine)]
  case kresult =>
    refine performs_of (fun _ _ => rfl) (by decide) (fun c s h => ?_) (fun _ _ => trivial)
    obtain ⟨hfind, hmine⟩ := h
    simp only [tstoneKresultRow, hfind, if_neg (not_other hmine)]

/-! ### Classes TEST and QUARRY (R433, R434) -/

/-- Settles O14: each row's parameter checks pass, and an import's first piece is kept. -/
theorem testCommands : Obligations.TestCommands := by
  refine ⟨?set, ?runCore, ?runCluster, ?status, ?yield, ?import_, fun i x => ?export_, ?list, ?retire⟩
  case set => exact performs_of (fun _ _ => rfl) (by decide) (fun c s h => need_dec2 h.1 h.2) (fun _ _ => trivial)
  case runCore =>
    refine performs_of (fun _ _ => rfl) (by decide) (fun c s h => ?_) (fun _ _ => trivial)
    obtain ⟨hok, hform, hcore⟩ := h
    simp only [testRunRow, needSite_ok hok hform, hcore, if_true]
  case runCluster =>
    refine performs_of (fun _ _ => rfl) (by decide) (fun c s h => ?_) (fun _ _ => trivial)
    obtain ⟨hok, hform, hcore⟩ := h
    simp only [testRunRow, needSite_ok hok hform, hcore, Bool.false_eq_true, if_false]
  case status =>
    refine performs_of (fun _ _ => rfl) (by decide) (fun c s h => ?_) (fun _ _ => trivial)
    simp only [testStatusRow, needSite_ok h.1 h.2]
  case yield =>
    refine performs_of (fun _ _ => rfl) (by decide) (fun c s h => ?_) (fun _ _ => trivial)
    obtain ⟨hjob, hbound⟩ := h
    have hbound' : (decide (parN c.pk 4 4 ≤ 3600000) || decide (parN c.pk 4 4 = 0xFFFFFFFF)) = true := by rcases hbound with h | h <;> simp [h]
    simp only [testYieldRow, needJob_ok hjob, need_ok hbound']
  case import_ => exact performs_of (fun _ _ => rfl) (by decide) (fun c s h => piece_first _ h) (fun _ _ => trivial)
  case export_ =>
    refine performs_of (fun _ _ => rfl) (by decide) (fun c s h => ?_) (fun _ _ => trivial)
    obtain ⟨hfind, hstate, hsource, hchain⟩ := h
    simp only [quarryExportRow, w64, hfind, hstate, hsource, hchain]
    rfl
  case list =>
    exact performs_of (fun _ _ => rfl) (by decide) (fun c s h => (need_dec h.1).trans (need_dec2 h.2.1 h.2.2)) (fun _ _ => trivial)
  case retire =>
    refine performs_of (fun _ _ => rfl) (by decide) (fun c s h => ?_) (fun _ _ => trivial)
    obtain ⟨i, x, hfind, hsource⟩ := h
    simp only [quarryRetireRow, w64, hfind, if_neg hsource]
    rfl

end Sys2Proof.Proofs.Rows
end

section
/-! PROOFS. Chapter 17, rows that perform: classes QUAR, SYNC, FENCE, BOOT and LINK. -/

namespace Sys2Proof.Proofs.Rows
open Sys2Proof Sys2Proof.Machine

/-! ### Class QUAR (R435) -/

theorem needSite_notHub {s : State} {pk : Packet} {k : Nat → Ans} (h : okSite s (parN pk 0 4) = true) (hh : isHubSite (parN pk 0 4) = false) :
    needSite s pk 0 (fun x => !isHubSite x) k = k (parN pk 0 4) := needSite_ok h (by rw [hh]; rfl)

/-- Settles O15: a site in the state asked for is left, a core whose cluster holds no slot for it is withdrawn at once, and a core's restore
starts its test. -/
theorem quarantineCommands : Obligations.QuarantineCommands := by
  refine ⟨?list, ?state, ?setSame, ?setCore, fun i e => ?restore⟩
  case list =>
    exact performs_of (fun _ _ => rfl) (by decide) (fun c s h => (need_dec h.1).trans (need_dec2 h.2.1 h.2.2)) (fun _ _ => trivial)
  case state =>
    refine performs_of (fun _ _ => rfl) (by decide) (fun c s h => ?_) (fun _ _ => trivial)
    obtain ⟨h1, h2, hsites⟩ := h
    simp only [quarStateRow, need_dec2 h1 h2, hsites]
  case setSame =>
    refine performs_of (fun _ _ => rfl) (by decide) (fun c s h => ?_) (fun _ _ => trivial)
    obtain ⟨hok, hhub, hst, hstate⟩ := h
    simp only [quarSetRow, needSite_notHub hok hhub, need_dec hst, hstate, if_true]
  case setCore =>
    refine performs_of (fun _ _ => rfl) (by decide) (fun c s h => ?_) (fun _ _ => trivial)
    obtain ⟨hok, hhub, hst, hstate, hcore, hwait, hslot⟩ := h
    simp only [quarSetRow, needSite_notHub hok hhub, need_dec hst, hstate, hcore, hwait, hslot, need_ok Option.isNone_none, Option.isSome_none,
      Bool.false_and, Bool.false_eq_true, if_true, if_false]
  case restore =>
    refine performs_of (fun _ _ => rfl) (by decide) (fun c s h => ?_) (fun _ _ => trivial)
    obtain ⟨hok, hfind, hno, hcore, htest, hharv, hopen, hserv⟩ := h
    simp only [quarRestoreRow, needSite_ok (form := fun _ => true) hok rfl, hfind, need, hno, unlicensed_core hcore, hcore, htest, hharv, hopen, hserv,
      Option.isNone_none, Bool.not_false, Bool.and_self, if_true]

/-! ### Class SYNC (R238 to R244, R251, R252) -/

@[simp] theorem objOf_modObj (o : Nat) (f : SyncObj → SyncObj) (s : State) : objOf (modObj o f s) o = f (objOf s o) := by
  simp [objOf, modObj, tget_tput]

/-- The mirror's copy of a count changes no object. -/
theorem objOf_mirCount (o k : Nat) (s : State) : objOf (mirCount o s) k = objOf s k := by
  unfold mirCount
  split <;> rfl

/-- R251: a count that is written starts a new epoch of its object. -/
theorem objOf_writeCount (o n : Nat) (s : State) :
    objOf (writeCount o n s) o = { objOf s o with count := n, epoch := ((objOf s o).epoch + 1) % 4294967296 } := by
  rw [writeCount, objOf_mirCount, objOf_modObj]

/-- Settles O16: the object's type, state and owner pass the row's checks. -/
theorem syncCommands : Obligations.SyncCommands := by
  refine ⟨fun o => ?alloc, ?arm, ?free, ?signal, ?saturates, ?flag, ?take, objOf_writeCount, ?query, ?jobend⟩
  case alloc =>
    refine performs_of (fun _ _ => rfl) (by decide) (fun c s h => ?_) (fun _ _ => trivial)
    obtain ⟨hrole, h1, h2, hjob, hfree, hnew⟩ := h
    have hhost : c.role ≠ 2 := by omega
    have hten : (decide (c.role ≠ 2) || decide (parB c.pk 4 = 0)) = true := by rw [decide_eq_true hhost, Bool.true_or]
    have hnew' : ∀ f, tfind (modObj o f s).sync.jobs (parN c.pk 2 2) = none := fun _ => hnew
    simp only [syncAllocRow, hhost, false_and, if_false, need_dec2 h1 h2, need_dec hjob, need_ok hten, hfree, hnew', Option.isSome_none,
      Bool.false_eq_true]
  case arm =>
    refine performs_of (fun _ _ => rfl) (by decide) (fun c s h => ?_) (fun _ _ => trivial)
    obtain ⟨ho, hmine, htype, hstate, hrange, hgate, h1, h2, hmeets, hparts⟩ := h
    have hserve : parts.all (fun p => decide (armCount (payOf c.pk) p = 0) || partInService s p) = true :=
      List.all_eq_true.mpr (fun p hp => by rcases hparts p hp with h | h <;> simp [h])
    have hlive : (decide ((objOf s (parN c.pk 0 2)).type ≠ 0) && decide ((objOf s (parN c.pk 0 2)).state ≠ 4)) = true := by
      rw [htype, hstate]; decide
    have hready : (decide ((objOf s (parN c.pk 0 2)).state = 1) || (decide ((objOf s (parN c.pk 0 2)).state = 2) &&
        decide ((objOf s (parN c.pk 0 2)).count = 0) && !(objOf s (parN c.pk 0 2)).fail)) = true := by
      rw [decide_eq_true hstate, Bool.true_or]
    have hmeets' : (!rangeMeets s (parN c.pk 0 2) (parN c.pk 4 4) (parN c.pk 8 4)) = true := by rw [hmeets]; rfl
    have hbarrier : ¬ (objOf s (parN c.pk 0 2)).type ≠ 1 := Classical.not_not.mpr htype
    simp only [syncArmRow, needObj_ok ho hmine, need_ok hlive, need_dec hrange, if_neg hbarrier, need_ok hready,
      need_dec hgate, need_dec2 h1 h2, need_ok hmeets', need_ok hserve]
  case free =>
    refine performs_of (fun _ _ => rfl) (by decide) (fun c s h => ?_) (fun _ _ => trivial)
    obtain ⟨ho, hmine, htype, hstate⟩ := h
    have hfree : (decide ((objOf s (parN c.pk 0 2)).type ≠ 0) &&
        (decide ((objOf s (parN c.pk 0 2)).type ≠ 1) || decide ((objOf s (parN c.pk 0 2)).state = 1) || decide ((objOf s (parN c.pk 0 2)).state = 4) ||
          (decide ((objOf s (parN c.pk 0 2)).state = 2) && decide ((objOf s (parN c.pk 0 2)).count = 0) && !(objOf s (parN c.pk 0 2)).fail))) = true := by
      rw [decide_eq_true htype, Bool.true_and]
      by_cases hbar : (objOf s (parN c.pk 0 2)).type = 1
      · rcases hstate hbar with h | h <;> simp [h]
      · simp [hbar]
    simp only [syncFreeRow, needObj_ok ho hmine, need_ok hfree]
  case signal =>
    refine performs_of (fun _ _ => rfl) (by decide) (fun c s h => ?_) (fun _ _ => trivial)
    obtain ⟨ho, hmine, htype, hstate, hroom⟩ := h
    simp only [syncSignalRow, needObj_ok ho hmine, need_dec2 (Or.inl htype) hstate, if_pos htype, if_neg (Nat.not_lt.mpr hroom)]
  case saturates =>
    refine performs_of (fun _ _ => rfl) (by decide) (fun c s h => ?_) (fun _ _ => trivial)
    obtain ⟨ho, hmine, htype, hstate, hfull⟩ := h
    simp only [syncSignalRow, needObj_ok ho hmine, need_dec2 (Or.inl htype) hstate, if_pos htype, if_pos hfull]
  case flag =>
    refine performs_of (fun _ _ => rfl) (by decide) (fun c s h => ?_) (fun _ _ => trivial)
    obtain ⟨ho, hmine, htype, hstate, hn⟩ := h
    have hnotsem : (objOf s (parN c.pk 0 2)).type ≠ 2 := by omega
    simp only [syncSignalRow, needObj_ok ho hmine, need_dec2 (Or.inr htype) hstate, if_neg hnotsem, if_neg hn]
  case take =>
    refine performs_of (fun _ _ => rfl) (by decide) (fun c s h => ?_) (fun _ _ => trivial)
    obtain ⟨ho, hmine, htype, hstate, hn, hcount⟩ := h
    simp only [syncTakeRow, needObj_ok ho hmine, need_dec2 htype hstate, need_dec hn, need_dec hcount]
  case query =>
    refine performs_of (fun _ _ => rfl) (by decide) (fun c s h => ?_) (fun _ _ => trivial)
    obtain ⟨hrole, hfirst, h1, h2⟩ := h
    simp only [syncQueryRow, need_dec hfirst, need_dec2 h1 h2, hrole, false_and, if_false]
  case jobend =>
    refine performs_of (fun _ _ => rfl) (by decide) (fun c s h => ?_) (fun _ _ => trivial)
    simp only [syncJobendRow, h.1, Bool.not_true, Bool.false_eq_true, if_false, need_dec h.2]

/-! ### Class FENCE (R436) -/

/-- Settles O17: the three levels of FENCE.RESET take different branches, each with its own site, jobs and state checks. -/
theorem fenceCommands : Obligations.FenceCommands := by
  refine ⟨?large, ?small, ?wafer, ?detour, ?status, ?restore⟩
  case large =>
    refine performs_of (fun _ _ => rfl) (by decide) (fun c s h => ?_) (fun _ _ => trivial)
    obtain ⟨hlv, hok, hform, hbar, hjobs, hreset, hretired⟩ := h
    have h4 : parB c.pk 4 ≠ 4 := by omega
    have hle : parB c.pk 4 ≤ 4 := by omega
    have hge : 2 ≤ parB c.pk 4 := by omega
    have hsite : (okSite s (parN c.pk 0 4) && levelSite (parB c.pk 4) (parN c.pk 0 4)) = true := by rw [hok, hform]; rfl
    have hforce : (isForce c.pk || decide (jobsOn s (sitePart (parN c.pk 0 4)) = [])) = true := by rcases hjobs with h | h <;> simp [h]
    have hidle : (!inReset s (parB c.pk 4) (parN c.pk 0 4) && !(resetOf s (sitePart (parN c.pk 0 4))).barred) = true := by rw [hreset, hretired]; rfl
    simp only [fenceResetRow, need_dec hle, if_neg h4, need_ok hsite, if_pos hge, hbar, Bool.false_eq_true, if_false, need_ok hforce, need_ok hidle]
  case small =>
    refine performs_of (fun _ _ => rfl) (by decide) (fun c s h => ?_) (fun _ _ => trivial)
    obtain ⟨hlv, hok, hform, hjobs, hserve, hreset⟩ := h
    have h4 : parB c.pk 4 ≠ 4 := by omega
    have hle : parB c.pk 4 ≤ 4 := by omega
    have hlt : ¬ 2 ≤ parB c.pk 4 := by omega
    have hsite : (okSite s (parN c.pk 0 4) && levelSite (parB c.pk 4) (parN c.pk 0 4)) = true := by rw [hok, hform]; rfl
    have hforce : (isForce c.pk || decide (domainEpochs s (parN c.pk 0 4) = [])) = true := by rcases hjobs with h | h <;> simp [h]
    have hidle : (partInService s (sitePart (parN c.pk 0 4)) && !inReset s (parB c.pk 4) (parN c.pk 0 4)) = true := by rw [hserve, hreset]; rfl
    simp only [fenceResetRow, need_dec hle, if_neg h4, need_ok hsite, if_neg hlt, need_ok hforce, need_ok hidle]
  case wafer =>
    refine performs_of (fun _ _ => rfl) (by decide) (fun c s h => ?_) (fun _ _ => trivial)
    obtain ⟨h4, hsite, hreset, hlive⟩ := h
    simp only [fenceResetRow, need_dec (Nat.le_of_eq h4), if_pos h4, need_dec hsite, need_dec hreset, if_pos hlive]
  case detour => exact performs_of (fun _ _ => rfl) (by decide) (fun c s h => need_dec h) (fun _ _ => trivial)
  case status => exact performs_of (fun _ _ => rfl) (by decide) (fun _ _ _ => rfl) (fun _ _ => trivial)
  case restore => exact performs_of (fun _ _ => rfl) (by decide) (fun c s h => need_dec h) (fun _ _ => trivial)

/-! ### Classes BOOT and LINK (R437, R453) -/

/-- A report of the links has 32 bytes for each of 48. -/
theorem length_linkBytes (f : Nat → List Byte) (hf : ∀ j, (f j).length = 32) : ((List.range 48).flatMap f).length = 48 * 32 :=
  length_flatMap_range hf 48

/-- Settles O18: pieced loads are kept or completed, and the reports' fields stand at their places. -/
theorem bootCommands : Obligations.BootCommands := by
  refine ⟨?corefw, ?corefwFirst, ?check, ?status, ?fwloadFirst, ?fwload, ?train, ?links⟩
  case corefw =>
    refine performs_of (fun _ _ => rfl) (by decide) (fun c s h => ?_) (fun _ _ => trivial)
    obtain ⟨hnone, hoff, hlen, hlast, hfault, hstep⟩ := h
    have hstep' : fieldAt (payOf c.pk) 12 2 = (dropLoad 0x0A01 0 s).quarry.stepping := hstep
    simp only [bootCorefwRow, piece_whole _ hnone hoff hlen hlast, hfault, hstep', ne_eq, not_true_eq_false, if_false]
  case corefwFirst =>
    refine performs_of (fun _ _ => rfl) (by decide) (fun c s h => ?_) (fun _ _ => trivial)
    simp only [bootCorefwRow, piece_first _ h]
  case check =>
    refine performs_of (fun _ _ => rfl) (by decide) (fun c s h => ?_) (fun _ _ => trivial)
    simp only [bootCheckRow, needMask_ok h]
  case status =>
    intro pk h s r
    obtain ⟨n, qs, ht⟩ := took_of_ready r
    have hhub : ∀ g, hubOf (took bootStatusRow pk s) g = hubOf s g := fun g => by rw [ht]; cases g <;> rfl
    refine ⟨_, answers_of (fun _ => rfl) (by decide) r rfl trivial, ?_, ?_, ?_⟩
    · refine (fieldAt_at _ [] _ (by simp only [List.append_assoc, List.nil_append]; rfl) rfl).trans ?_
      show (hubOf (took bootStatusRow pk s) h).kind % 256 ^ 1 = _
      rw [hhub, Nat.pow_one]
    · refine (fieldAt_at _ (leBytes 1 (hubOf (took bootStatusRow pk s) h).kind ++ leBytes 1 (if (took bootStatusRow pk s).boot.fast then 2 else 1)) _
        (by simp only [List.append_assoc]; rfl) rfl).trans ?_
      rw [ht, Nat.pow_one]
    · refine (fieldAt_at _ (leBytes 1 (hubOf (took bootStatusRow pk s) h).kind ++ leBytes 1 (if (took bootStatusRow pk s).boot.fast then 2 else 1) ++
        leBytes 1 (took bootStatusRow pk s).hubA.fwSlot) _ (by simp only [List.append_assoc]; rfl) rfl).trans ?_
      rw [ht, Nat.pow_one]
  case fwloadFirst =>
    refine performs_of (fun _ _ => rfl) (by decide) (fun c s h => ?_) (fun _ _ => trivial)
    simp only [bootFwloadRow, piece_first _ h]
  case fwload =>
    refine performs_of (fun _ _ => rfl) (by decide) (fun c s h => ?_) (fun _ _ => trivial)
    obtain ⟨hnone, hoff, hlen, hlast, hman, hsha⟩ := h
    have hfault : imageFault (payOf c.pk) = 0 := by simp only [imageFault, hman, hsha, ne_eq, not_true_eq_false, if_false]
    simp only [bootFwloadRow, piece_whole _ hnone hoff hlen hlast, hfault, ne_eq, not_true_eq_false, if_false]
    rfl
  case train =>
    refine performs_of (fun _ _ => rfl) (by decide) (fun c s h => ?_) (fun _ _ => trivial)
    obtain ⟨hok, hform, hstraps, hlic, h1, h3, htrain, hserve⟩ := h
    have hlink : (strapsOk s (sitePart (parN c.pk 0 4)) &&
        s.keys.variant.links.getLsbD (globalLink s (sitePart (parN c.pk 0 4)) (siteIdx (parN c.pk 0 4) / 16))) = true := by rw [hstraps, hlic]; rfl
    have hfree : (!(lnk s (globalLink s (sitePart (parN c.pk 0 4)) (siteIdx (parN c.pk 0 4) / 16))).trainReq) = true := by rw [htrain]; rfl
    simp only [linkTrainRow, needSite_ok hok hform, need_ok hlink, need_dec2 h1 h3, need_ok hfree, need_ok hserve]
  case links =>
    intro pk h s r
    refine ⟨_, answers_of (fun _ => rfl) (by decide) r rfl trivial, length_linkBytes _ (fun j => ?_)⟩
    split
    · rfl
    · rfl

end Sys2Proof.Proofs.Rows
end

section
/-! PROOFS. Chapter 17, rows that perform: classes KEY, SCRUB, TRACE, STOP, STRATA and POWER. -/

namespace Sys2Proof.Proofs.Rows
open Sys2Proof Sys2Proof.Machine

/-! ### Class KEY (R345, R349, R351, R355, R361, R367) -/

/-- Roots kept beside a new one are at most those that stood. -/
theorem roots_room {l : List Root} {t : Nat} (mine : Root → Bool) (hall : l.length < 256)
    (hten : (l.filter (fun r => decide (r.tenant = t))).length < 4) :
    (decide (((l.filter (fun r => !mine r)).filter (fun r => decide (r.tenant = t))).length < 4) &&
      decide ((l.filter (fun r => !mine r)).length < 256)) = true := by
  have h1 : (l.filter (fun r => !mine r)).length ≤ l.length := List.length_filter_le ..
  have h2 : ((l.filter (fun r => !mine r)).filter (fun r => decide (r.tenant = t))).length ≤
      (l.filter (fun r => decide (r.tenant = t))).length := (List.filter_sublist.filter _).length_le
  rw [decide_eq_true (Nat.lt_of_le_of_lt h2 hten), decide_eq_true (Nat.lt_of_le_of_lt h1 hall)]
  rfl

/-- Settles O19: contexts, slots and roots in the state the row asks for pass its checks; the key unit follows a change at once. -/
theorem keyCommands : Obligations.KeyCommands := by
  refine ⟨?id, ?attest, ?assign, ?rotate, ?unbind, ?unwrap, ?bind, ?slotfree, ?troot, ?variantFirst, ?variant, ?contexts, ?channels⟩
  case id =>
    refine performs_of (fun _ _ => rfl) (by decide) (fun c s h => ?_) (fun _ _ => trivial)
    obtain ⟨hhub, hoff, hrole⟩ := h
    simp only [keyIdRow, need_dec hhub, need_dec hoff, need_dec hrole]
  case attest => exact performs_of (fun _ _ => rfl) (by decide) (fun _ _ _ => rfl) (fun _ _ => trivial)
  case assign =>
    refine performs_of (fun _ _ => rfl) (by decide) (fun c s h => ?_) (fun _ _ => trivial)
    obtain ⟨h1, h64, hten, hstate, hfree⟩ := h
    simp only [keyAssignRow, need_dec2 h1 h64, need_dec hten, need_dec2 hstate hfree]
  case rotate =>
    refine performsThen_of (fun _ _ => rfl) (by decide) (fun c s h => ?_) (fun _ _ => trivial)
    obtain ⟨hctx, hmine, hstate, hsrc, hwait⟩ := h
    have hderived : (decide ((ctxOf s (parB c.pk 0)).state ≠ 0) || decide ((ctxOf s (parB c.pk 0)).wsrc = 0)) = true := by
      rw [decide_eq_true hsrc, Bool.or_true]
    simp only [keyRotateRow, needCtx_ok hctx hmine, need_ok hderived, mayChange_ok hstate hwait]
  case unbind =>
    refine performsThen_of (fun _ _ => rfl) (by decide) (fun c s h => ?_) (fun _ _ => trivial)
    obtain ⟨hctx, hmine, hstate, hsrc, hwait⟩ := h
    have hbound : (decide ((ctxOf s (parB c.pk 0)).state ≠ 0) || decide ((ctxOf s (parB c.pk 0)).wsrc = 1)) = true := by
      rw [decide_eq_true hsrc, Bool.or_true]
    simp only [keyUnbindRow, needCtx_ok hctx hmine, need_ok hbound, mayChange_ok hstate hwait]
  case unwrap =>
    refine performsThen_of (fun _ _ => rfl) (by decide) (fun c s h => ?_) (fun _ _ => trivial)
    obtain ⟨hslot, hempty, hfirst⟩ := h
    simp only [keyUnwrapRow, needSlot_ok hslot, hempty, Bool.false_eq_true, if_false, piece_first _ hfirst]
  case bind =>
    refine performsThen_of (fun _ _ => rfl) (by decide) (fun c s h => ?_) (fun _ _ => trivial)
    obtain ⟨hslot, hctx, htenant, hhost, hfilled, hsides, hstate, hsrc, hwait⟩ := h
    have hmine : ¬ (c.role = 2 ∧ (parN c.pk 0 2 < s.keys.keySlots ∧ (slotOf s (parN c.pk 0 2)).owner ≠ c.tenant ∨
        parB c.pk 2 < 64 ∧ (ctxOf s (parB c.pk 2)).tenant ≠ c.tenant)) := by
      rintro ⟨hrole, h⟩
      obtain ⟨hc, ho⟩ := htenant hrole
      rcases h with h | h
      · exact h.2 ho
      · exact h.2 hc
    have howner : ((slotOf s (parN c.pk 0 2)).filled && (decide (c.role = 2) || (decide ((slotOf s (parN c.pk 0 2)).owner = 0) &&
        decide ((ctxOf s (parB c.pk 2)).tenant = 0)))) = true := by
      rw [hfilled, Bool.true_and]
      by_cases hrole : c.role = 2
      · rw [decide_eq_true hrole, Bool.true_or]
      · obtain ⟨ho, ht⟩ := hhost hrole
        rw [decide_eq_true ho, decide_eq_true ht, Bool.and_self, Bool.or_true]
    have hderived : (decide ((ctxOf s (parB c.pk 2)).state ≠ 0) || decide ((ctxOf s (parB c.pk 2)).wsrc = 0)) = true := by
      rw [decide_eq_true hsrc, Bool.or_true]
    have hboth : ∀ b, (!((slotOf s (parN c.pk 0 2)).oneSided && b)) = true := fun b => by rw [hsides]; rfl
    simp only [keyBindRow, if_neg hmine, needSlot_ok hslot, needCtx_ok hctx (fun hrole => (htenant hrole).1), need_ok howner, need_ok hderived,
      need_ok (hboth _), mayChange_ok hstate hwait]
  case slotfree =>
    refine performs_of (fun _ _ => rfl) (by decide) (fun c s h => ?_) (fun _ _ => trivial)
    obtain ⟨hslot, htenant, hnames⟩ := h
    have hmine : ¬ (c.role = 2 ∧ !((slotOf s (parN c.pk 0 2)).filled && decide ((slotOf s (parN c.pk 0 2)).owner = c.tenant))) := by
      rintro ⟨hrole, h⟩
      obtain ⟨hf, ho⟩ := htenant hrole
      rw [hf, decide_eq_true ho] at h
      exact absurd h (by decide)
    simp only [keySlotfreeRow, needSlot_ok hslot, if_neg hmine, need_dec hnames]
  case troot =>
    refine performs_of (fun _ _ => rfl) (by decide) (fun c s h => ?_) (fun _ _ => trivial)
    obtain ⟨hmode, h1, hflags, hall, hten⟩ := h
    have hroom := roots_room (fun r => decide (r.tenant = parB c.pk 1) && decide (r.key = payOf c.pk)) hall hten
    simp only [keyTrootRow, need_dec (show parB c.pk 0 ≤ 1 by omega), need_dec h1, need_dec hflags, if_pos hmode, need_ok hroom]
  case variantFirst =>
    refine performs_of (fun _ _ => rfl) (by decide) (fun c s h => ?_) (fun _ _ => trivial)
    simp only [keyVariantRow, piece_first _ h]
  case variant =>
    refine performs_of (fun _ _ => rfl) (by decide) (fun c s h => ?_) (fun _ _ => trivial)
    obtain ⟨hnone, hoff, hlen, hlast, hfault⟩ := h
    simp only [keyVariantRow, piece_whole _ hnone hoff hlen hlast, hfault, ne_eq, not_true_eq_false, if_false]
  case contexts =>
    refine performs_of (fun _ _ => rfl) (by decide) (fun c s h => ?_) (fun _ _ => trivial)
    simp only [keyStatusRow, h]
  case channels =>
    refine performs_of (fun _ _ => rfl) (by decide) (fun c s h => ?_) (fun _ _ => trivial)
    simp only [keyStatusRow, h.1, need_dec h.2]

/-! ### Classes SCRUB, TRACE and STOP (R357, R358, R363, R364) -/

/-- A stop of level 0 names no cores. -/
theorem needCores_none {c : Caller} {lv nc : Nat} {k : Nat → List (BitVec 22) → Ans} (hlv : parB c.pk lv = 0) (hn : parN c.pk nc 2 = 0) :
    needCores c lv nc k = k 0 [] := by
  simp only [needCores, hlv, hn, need]
  rfl

/-- Settles O20: the scrub's, trace's and stop's parameters pass, and STOP.STATUS's fields stand at their places. -/
theorem scrubTraceStopCommands : Obligations.ScrubTraceStopCommands := by
  refine ⟨?scrub, ?scrubNone, fun x => ?scrubSome, ?set, ?arm, ?trigger, ?traced, ?issue, ?stopArm, ?resume, ?stopped⟩
  case scrub =>
    refine performsThen_of (fun _ _ => rfl) (by decide) (fun c s h => ?_) (fun _ _ => trivial)
    obtain ⟨h1, hmask, hfree, hforce⟩ := h
    have hidle : (!underScrub s (parB c.pk 0)) = true := by rw [hfree]; rfl
    have hjobs : (isForce c.pk || decide (liveJobs s (fun x => decide (tfind s.sync.jobs x.job = some (parB c.pk 0))) = [])) = true := by
      rcases hforce with h | h
      · rw [h, Bool.true_or]
      · rw [decide_eq_true h.1, Bool.or_true]
    have hkeys : (isForce c.pk || decide (ctxsOf s (parB c.pk 0) = []) || !changeWaits s) = true := by
      rcases hforce with h | ⟨_, h | h⟩ <;> simp [h]
    simp only [scrubTenantRow, need_dec h1, needMask_ok hmask, need_ok hidle, need_ok hjobs, need_ok hkeys]
  case scrubNone =>
    refine performs_of (fun _ _ => rfl) (by decide) (fun c s h => ?_) (fun _ _ => trivial)
    simp only [scrubStatusRow, need_dec h.1, h.2]
  case scrubSome =>
    refine performs_of (fun _ _ => rfl) (by decide) (fun c s h => ?_) (fun _ _ => trivial)
    simp only [scrubStatusRow, need_dec h.1, h.2]
  case set =>
    refine performs_of (fun _ _ => rfl) (by decide) (fun c s h => ?_) (fun _ _ => trivial)
    obtain ⟨hmode, hlossy, hclasses, hcores, hlo, hhi, hhubs, hmask⟩ := h
    simp only [traceSetRow, need_dec hmode, need_dec hlossy, need_dec hclasses, need_dec hcores, need_dec2 hlo hhi, need_dec hhubs, needMask_ok hmask]
  case arm =>
    refine performs_of (fun _ _ => rfl) (by decide) (fun c s h => ?_) (fun _ _ => trivial)
    simp only [traceArmRow, need_dec h.1, need_dec h.2.1, need_dec h.2.2]
  case trigger => exact performs_of (fun _ _ => rfl) (by decide) (fun _ _ _ => rfl) (fun _ _ => trivial)
  case traced => exact performs_of (fun _ _ => rfl) (by decide) (fun _ _ _ => rfl) (fun _ _ => trivial)
  case issue =>
    refine performs_of (fun _ _ => rfl) (by decide) (fun c s h => ?_) (fun _ _ => trivial)
    obtain ⟨hlevel, hnone, hstate⟩ := h
    simp only [stopIssueRow, needCores_none hlevel hnone, need_dec hstate]
  case stopArm =>
    refine performs_of (fun _ _ => rfl) (by decide) (fun c s h => ?_) (fun _ _ => trivial)
    obtain ⟨hmode, hlevel, hnone⟩ := h
    simp only [stopArmRow, need_dec hmode, needCores_none hlevel hnone]
    rfl
  case resume =>
    refine performs_of (fun _ _ => rfl) (by decide) (fun c s h => ?_) (fun _ _ => trivial)
    obtain ⟨hmode, hcut | ⟨hscan, habort⟩⟩ := h
    · simp only [stopResumeRow, need_dec hmode, hcut]
    · simp only [stopResumeRow, need_dec hmode, hscan, if_pos habort]
  case stopped =>
    intro pk h s r
    obtain ⟨n, qs, ht⟩ := took_of_ready r
    refine ⟨_, answers_of (fun _ => rfl) (by decide) r rfl trivial, ?_, ?_⟩
    · refine (fieldAt_at _ [] _ (by simp only [List.append_assoc, List.nil_append]; rfl) rfl).trans ?_
      rw [ht, Nat.pow_one]
    · refine (fieldAt_at _ (leBytes 1 (took stopStatusRow pk s).cairn.state ++ leBytes 1 (flag (took stopStatusRow pk s).cairn.complete)) _
        (by simp only [List.append_assoc]; rfl) rfl).trans ?_
      rw [ht] <;> rfl

/-! ### Classes STRATA and POWER (R399, R404 to R409, R333, R334) -/

/-- The bytes of STRATA.STATUS. -/
def strataBytes (s : State) (h : HubId) : List Byte :=
  leBytes 8 (oldestHeld s) ++ leBytes 8 (newestHeld s) ++ leBytes 2 s.strata.perm.length ++ leBytes 2 (hubOf s h).pfail.length ++
    leBytes 1 (flag s.strata.frozen) ++ leBytes 1 0 ++ leBytes 2 s.strata.hold.length ++ leBytes 4 s.strata.lostAll ++ leBytes 4 0 ++ leBytes 8 s.strata.countNv

theorem strataBytes_fields (s : State) (h : HubId) :
    let pay := padTo 64 (strataBytes s h)
    fieldAt pay 0 8 = oldestHeld s % 2 ^ 64 ∧ fieldAt pay 8 8 = newestHeld s % 2 ^ 64 ∧ fieldAt pay 16 2 = s.strata.perm.length % 65536 ∧
    fieldAt pay 20 1 = flag s.strata.frozen := by
  have hlen : (strataBytes s h).length ≤ 64 := by
    simp only [strataBytes, List.length_append, length_leBytes]
    decide
  rw [padTo_of_le hlen]
  refine ⟨?_, ?_, ?_, ?_⟩
  · exact fieldAt_at _ [] _ (by simp only [strataBytes, List.append_assoc, List.nil_append]; rfl) rfl
  · exact fieldAt_at _ (leBytes 8 (oldestHeld s)) _ (by simp only [strataBytes, List.append_assoc]; rfl) rfl
  · exact fieldAt_at _ (leBytes 8 (oldestHeld s) ++ leBytes 8 (newestHeld s)) _ (by simp only [strataBytes, List.append_assoc]; rfl) rfl
  · exact (fieldAt_at _ (leBytes 8 (oldestHeld s) ++ leBytes 8 (newestHeld s) ++ leBytes 2 s.strata.perm.length ++ leBytes 2 (hubOf s h).pfail.length) _
      (by simp only [strataBytes, List.append_assoc]; rfl) rfl).trans (Nat.mod_eq_of_lt (flag_lt _))

/-- Settles O21: the rows' parameters pass, and STRATA.STATUS's fields are those of the state it is taken in. -/
theorem strataPowerCommands : Obligations.StrataPowerCommands := by
  refine ⟨?status, ?read, ?freeze, ?unfreeze, ?timepair, ?codes, ?power, ?mask, ?bankUp, ?bankDown⟩
  case status =>
    intro pk h s r
    obtain ⟨n, qs, ht⟩ := took_of_ready r
    refine ⟨padTo 64 (strataBytes (took strataStatusRow pk s) h), answers_of (fun _ => rfl) (by decide) r rfl trivial, length_padTo .., ?_⟩
    obtain ⟨hold, hnew, hperm, hfrozen⟩ := strataBytes_fields (took strataStatusRow pk s) h
    refine ⟨hold.trans ?_, hnew.trans ?_, hperm.trans ?_, hfrozen.trans ?_⟩
    · rw [ht]; rfl
    · rw [ht]; rfl
    · rw [ht]
    · rw [ht]; rfl
  case read =>
    refine performs_of (fun _ _ => rfl) (by decide) (fun c s h => ?_) (fun _ _ => trivial)
    obtain ⟨hmode, h1, h60, hsev⟩ := h
    simp only [strataReadRow, need_dec hmode, need_dec2 h1 h60, need_dec hsev]
  case freeze =>
    refine performs_of (fun _ _ => rfl) (by decide) (fun c s h => ?_) (fun _ _ => trivial)
    simp only [strataFreezeRow, beginFreeze, h, Bool.false_eq_true, if_false]
    rfl
  case unfreeze => exact performs_of (fun _ _ => rfl) (by decide) (fun _ _ _ => rfl) (fun _ _ => trivial)
  case timepair => exact performs_of (fun _ _ => rfl) (by decide) (fun c s h => need_dec h) (fun _ _ => trivial)
  case codes => exact performs_of (fun _ _ => rfl) (by decide) (fun c s h => need_dec2 h.1 h.2) (fun _ _ => trivial)
  case power => exact performs_of (fun _ _ => rfl) (by decide) (fun _ _ _ => rfl) (fun _ _ => trivial)
  case mask =>
    refine performs_of (fun _ _ => rfl) (by decide) (fun c s h => ?_) (fun _ _ => trivial)
    simp only [powerMaskRow, needSite_ok h.1 h.2.1, need_dec h.2.2]
  case bankUp =>
    refine performs_of (fun _ _ => rfl) (by decide) (fun c s h => ?_) (fun _ _ => trivial)
    obtain ⟨hok, hform, hstate, hoff, hheard, hup⟩ := h
    have hidle : (!(war s (sitePart (parN c.pk 0 4))).bankOff.any (fun b => b.bank = siteIdx (parN c.pk 0 4))) = true := by rw [hoff]; rfl
    simp only [powerBankRow, needSite_ok hok hform, need_dec hstate, need_dec (Nat.le_of_eq hup), need_ok hidle, need_ok hheard, if_pos hup]
  case bankDown =>
    refine performs_of (fun _ _ => rfl) (by decide) (fun c s h => ?_) (fun _ _ => trivial)
    obtain ⟨hok, hform, hstate, hoff, hheard, hdown, hpowered⟩ := h
    have hidle : (!(war s (sitePart (parN c.pk 0 4))).bankOff.any (fun b => b.bank = siteIdx (parN c.pk 0 4))) = true := by rw [hoff]; rfl
    have hnotup : parB c.pk 4 ≠ 1 := by omega
    have hle : parB c.pk 4 ≤ 1 := by omega
    simp only [powerBankRow, needSite_ok hok hform, need_dec hstate, need_dec hle, need_ok hidle, need_ok hheard, if_neg hnotup, if_pos hpowered]

end Sys2Proof.Proofs.Rows
end

section
/-! PROOFS. The register window (chapter 18): writes by row and by address, dropped writes, queue memory, reads with an effect. -/

namespace Sys2Proof.Proofs.Registers
open Sys2Proof Sys2Proof.Machine

/-! ### Requests of a command port -/

/-- A row that writes one register is a request at its port, and its effect is a register write (R40, R43). -/
theorem exec_of_writeRow {i : Instr} {h : HubId} {strb : BitVec 8} (hw : writeRow i = some (h, strb)) :
    ∃ f, ∀ s, exec i s = .next (ended s (onPort h (regWrite h strb f) s)) := by
  unfold writeRow at hw
  split at hw <;> cases hw <;> exact ⟨_, fun _ => rfl⟩

/-- Every other request at a port is one too (R40). -/
theorem exec_of_otherRequest {i : Instr} {h : HubId} (hw : otherRequest i = some h) :
    ∃ f, ∀ s, exec i s = .next (ended s (onPort h f s)) := by
  unfold otherRequest at hw
  split at hw <;> cases hw <;> exact ⟨_, fun _ => rfl⟩

/-- R40, R41: while cmd_ready is 0 no request transfers. -/
theorem onPort_of_not_ready {h : HubId} {s : State} (hp : (hubOf s h).rstLow = true ∨ 16 ≤ (hubOf s h).reads.length)
    (f : State → State) : onPort h f s = s := by
  refine if_neg fun ht => ?_
  simp only [portTakes, Bool.and_eq_true, Bool.not_eq_true', decide_eq_true_eq] at ht
  obtain ⟨hr, hl⟩ := ht
  exact hp.elim (fun hrst => Bool.noConfusion (hr.symm.trans hrst)) (fun hfull => absurd hl (by omega))

theorem portTakes_of_ready {x : Hub} (hr : x.rstLow = false) (hl : x.reads.length < 16) : portTakes x = true := by
  simp [portTakes, hr, hl]

/-- R44: a hub that does not serve drops a write. -/
theorem regWrite_of_not_serving {h : HubId} {s : State} (hs : isServing (hubOf s h) = false) (strb : BitVec 8) (f : State → State) :
    regWrite h strb f s = s := if_pos (by simp [hs])

/-- R43: a partial write is dropped and counted. -/
theorem regWrite_partial {h : HubId} {s : State} (hs : isServing (hubOf s h) = true) {strb : BitVec 8} (hb : strb ≠ 0xFF)
    (f : State → State) : regWrite h strb f s = portErr h s :=
  (if_neg (by simp [hs])).trans (if_pos hb)

/-- R43, R446: a port error changes the registers of its hub alone. -/
theorem portErr_frame (h : HubId) (s : State) :
    portErr h s = { s with hubA := (portErr h s).hubA, hubB := (portErr h s).hubB } := by cases h <;> rfl

theorem ended_portErr_frame (h : HubId) (s : State) :
    ended s (portErr h s) = { s with hubA := (ended s (portErr h s)).hubA, hubB := (ended s (portErr h s)).hubB } := by
  cases h <;> rfl

/-- Settles O30: a request that finds cmd_ready at 0 is `onPort`'s other branch, a dropped write one of `regWrite`'s. -/
theorem droppedWrites : Obligations.DroppedWrites := by
  intro i h strb s
  refine ⟨fun hw hp => ?_, fun hw hr hl => ?_⟩
  · obtain ⟨f, hf⟩ : ∃ f, ∀ s, exec i s = .next (ended s (onPort h f s)) :=
      hw.elim (fun hw => (exec_of_writeRow hw).imp' (regWrite h strb) fun _ hf => hf) exec_of_otherRequest
    rw [hf, onPort_of_not_ready hp]
  · obtain ⟨f, hf⟩ := exec_of_writeRow hw
    have hf : exec i s = .next (ended s (regWrite h strb f s)) := by rw [hf, onPort_of_takes (portTakes_of_ready hr hl)]
    refine ⟨fun hs => by rw [hf, regWrite_of_not_serving hs], fun hs hb => ⟨_, hf, ?_⟩⟩
    rw [regWrite_partial hs hb]
    refine ⟨?_, ?_, ?_, ended_portErr_frame h s⟩
    · rw [hubOf_ended]
      simp only [portErr, irqBit, irqSet, hubOf_modHub, pinsOf]
      split <;> simp_all
    · rw [hubOf_ended]
      simp only [portErr, irqBit, irqSet, hubOf_modHub, pinsOf]
    · rw [hubOf_ended]
      simp only [portErr, irqBit, irqSet, hubOf_modHub_other]

/-! ### Whole writes at the serving hub -/

section
variable {h : HubId} {s : State} (hs : isServing (hubOf s h) = true) (hp : portTakes (hubOf s h) = true)
include hs hp

/-- R40, R43: a request that transfers, with all its byte enables, at the serving hub. -/
theorem onPort_regWrite (f : State → State) : onPort h (regWrite h 0xFF f) s = f s := by
  rw [onPort_of_takes hp, regWrite_of_serving hs]

end

/-- Bit 0 of IRQ_CFG's class field is bit 32 of the word. -/
theorem irqClass_none (v : BitVec 64) : ((v >>> 32).setWidth 18).getLsbD 0 = v.getLsbD 32 := by
  simp

/-- Settles O29: each row is its register's write, and the two with reserved values test them first. -/
theorem registerWrites : Obligations.RegisterWrites := by
  intro h v s hs hp
  have hw : ∀ f, nextOf s (onPort h (regWrite h 0xFF f) s) = .next (ended s (f s)) :=
    fun f => congrArg (nextOf s) (onPort_regWrite hs hp f)
  refine ⟨hw _, hw _, fun h4 h0 => (hw _).trans ?_, fun hbad => (hw _).trans ?_, fun hle => (hw _).trans ?_, fun hgt => (hw _).trans ?_,
    fun h3 => (hw _).trans ?_, hw _⟩
  · rw [if_neg]
    simp only [irqClass_none, h0, Bool.false_eq_true, or_false]
    omega
  · rw [if_pos]
    rwa [irqClass_none]
  · rw [if_neg (by omega)]
  · rw [if_pos hgt]
  · simp only [if_neg h3]

/-! ### Queue memory (R449) -/

/-- The first `n` bytes of a word, written under their enables. -/
def putBytes (t : Tab Byte) (addr : Nat) (v : BitVec 64) (strb : BitVec 8) (n : Nat) : Tab Byte :=
  (List.range n).foldl (fun t i => if strb.getLsbD i then tput 0 t (addr + i) ((v >>> (8 * i)).setWidth 8) else t) t

theorem memPutWord_eq (t : Tab Byte) (addr : Nat) (v : BitVec 64) (strb : BitVec 8) :
    memPutWord t addr v strb = putBytes t addr v strb 8 := rfl

theorem putBytes_succ (t : Tab Byte) (addr : Nat) (v : BitVec 64) (strb : BitVec 8) (n : Nat) :
    putBytes t addr v strb (n + 1) =
      if strb.getLsbD n then tput 0 (putBytes t addr v strb n) (addr + n) ((v >>> (8 * n)).setWidth 8) else putBytes t addr v strb n := by
  simp only [putBytes, List.range_succ, List.foldl_append, List.foldl_cons, List.foldl_nil]

/-- What a byte reads as after a write under byte enables: the word's byte where it is enabled, itself elsewhere. -/
theorem tget_putBytes (t : Tab Byte) (addr : Nat) (v : BitVec 64) (strb : BitVec 8) (n a : Nat) :
    tget 0 (putBytes t addr v strb n) a =
      if addr ≤ a ∧ a < addr + n ∧ strb.getLsbD (a - addr) = true then (v >>> (8 * (a - addr))).setWidth 8 else tget 0 t a := by
  induction n with
  | zero => rw [if_neg (by omega)]; rfl
  | succ n ih =>
    rw [putBytes_succ]
    by_cases ha : a = addr + n
    · subst ha
      have hlast : addr + n - addr = n := by omega
      rw [hlast] at ih ⊢
      by_cases hb : strb.getLsbD n = true
      · rw [if_pos hb, tget_tput, if_pos rfl, if_pos ⟨by omega, by omega, hb⟩]
      · rw [if_neg hb, ih, if_neg (by omega), if_neg (fun hc => hb hc.2.2)]
    · have hsame : tget 0 (if strb.getLsbD n then tput 0 (putBytes t addr v strb n) (addr + n) ((v >>> (8 * n)).setWidth 8)
          else putBytes t addr v strb n) a = tget 0 (putBytes t addr v strb n) a := by
        split
        · rw [tget_tput, if_neg ha]
        · rfl
      rw [hsame, ih]
      have hlt : a < addr + (n + 1) ↔ a < addr + n := by omega
      simp only [hlt]

theorem tabWf_putBytes (t : Tab Byte) (addr : Nat) (v : BitVec 64) (strb : BitVec 8) (n : Nat) (hwf : tabWf 0 t = true) :
    tabWf 0 (putBytes t addr v strb n) = true := by
  induction n with
  | zero => exact hwf
  | succ n ih =>
    rw [putBytes_succ]
    split
    · exact tabWf_tput _ _ _ _ ih
    · exact ih

/-- A write to a slot's words at the serving hub, the slot not taken. -/
theorem queueWriteAt_free {h : HubId} {s : State} (hs : isServing (hubOf s h) = true) {q slot word : Nat} (hw : word < 520)
    (ht : slotTaken (queueOf s q) slot = false) (v : BitVec 64) (strb : BitVec 8) :
    queueWriteAt h q slot word v strb s =
      modQueue q (fun x => { x with mem := memPutWord x.mem (4160 * slot + 8 * word) v strb }) s := by
  rw [queueWriteAt, if_neg (by simp [hs, hw]), if_neg (by simp [ht])]

theorem queueWriteAt_taken {h : HubId} {s : State} (hs : isServing (hubOf s h) = true) {q slot word : Nat} (hw : word < 520)
    (ht : slotTaken (queueOf s q) slot = true) (v : BitVec 64) (strb : BitVec 8) :
    queueWriteAt h q slot word v strb s = portErr h s := by
  rw [queueWriteAt, if_neg (by simp [hs, hw]), if_pos ht]

/-- Settles O32: the bytes are written one by one under their enables (`tget_putBytes`), at the word's own eight addresses. -/
theorem queueMemoryWrites : Obligations.QueueMemoryWrites := by
  intro h q slot word v strb s hs hp hw
  have hx : exec (.queueMemoryWrite h q slot word v strb) s = .next (ended s (queueWriteAt h q.toNat slot.toNat word v strb s)) :=
    congrArg (nextOf s) (onPort_of_takes hp _)
  refine ⟨fun ht => by rw [hx, queueWriteAt_taken hs hw ht], fun ht => ⟨_, by rw [hx, queueWriteAt_free hs hw ht]; rfl, ?_⟩⟩
  rw [memPutWord_eq]
  refine ⟨fun i hi => ?_, fun a ha => ?_, tabWf_putBytes _ _ _ _ _⟩
  · rw [tget_putBytes, Nat.add_sub_cancel_left]
    have hin : 4160 * slot.toNat + 8 * word ≤ 4160 * slot.toNat + 8 * word + i ∧
        4160 * slot.toNat + 8 * word + i < 4160 * slot.toNat + 8 * word + 8 := by omega
    simp only [hin, true_and]
    rfl
  · rw [tget_putBytes, if_neg (by omega)]
    rfl

/-! ### Writes by address (R443) -/

/-- The write of a word that is neither queue memory nor a queue's pointer: `registerWriteAt_other` ties it to the model. -/
def wordWrite (h : HubId) (a : Nat) (v : BitVec 64) (strb : BitVec 8) (s : State) : State :=
  match a with
  | 0x02000 => irqStatAt h v strb s
  | 0x02008 => irqMaskAt h v strb s
  | 0x02010 => irqTestAt h v strb s
  | 0x02018 => irqCfgAt h v strb s
  | 0x02108 => sntSelAt h v strb s
  | 0x03000 => strAreaAt h v strb s
  | 0x03008 => strPosAt h v strb s
  | _ => if isServing (hubOf s h) then portErr h s else s

section
variable (h : HubId) (addr : BitVec 20) (v : BitVec 64) (strb : BitVec 8) (s : State)

/-- A word below queue memory that is no queue's tail or status head. -/
theorem registerWriteAt_other (h1 : ¬ (0x20000 ≤ addr.toNat / 8 * 8 ∧ addr.toNat / 8 * 8 < 0xA2000))
    (h2 : ¬ (0x1000 ≤ addr.toNat / 8 * 8 ∧ addr.toNat / 8 * 8 < 0x1200 ∧ (addr.toNat / 8 * 8 % 64 = 0 ∨ addr.toNat / 8 * 8 % 64 = 0x10))) :
    registerWriteAt h addr v strb s = wordWrite h (addr.toNat / 8 * 8) v strb s := by
  unfold registerWriteAt
  simp only [h1, if_false]
  rw [if_neg (by omega), if_neg (by omega)]
  rfl

theorem registerWriteAt_tail {q : Nat} (hq : q < 8) (ha : addr.toNat / 8 * 8 = 0x1000 + 64 * q) :
    registerWriteAt h addr v strb s = doorbellAt h q v strb s := by
  have hdiv : (0x1000 + 64 * q - 0x1000) / 64 = q := by omega
  unfold registerWriteAt
  simp only [ha]
  rw [if_neg (by omega), if_pos (by omega), hdiv]

theorem registerWriteAt_sqHead {q : Nat} (hq : q < 8) (ha : addr.toNat / 8 * 8 = 0x1010 + 64 * q) :
    registerWriteAt h addr v strb s = sqHeadAt h q v strb s := by
  have hdiv : (0x1010 + 64 * q - 0x1000) / 64 = q := by omega
  unfold registerWriteAt
  simp only [ha]
  rw [if_neg (by omega), if_neg (by omega), if_pos (by omega), hdiv]

/-- R443: a word with no writable field. -/
theorem registerWriteAt_readOnly (hr : readOnlyWord (addr.toNat / 8 * 8)) :
    registerWriteAt h addr v strb s = if isServing (hubOf s h) then portErr h s else s := by
  obtain ⟨hmem, hptr, n0, n8, n10, n18, n108, nArea, nPos⟩ := hr
  rw [registerWriteAt_other h addr v strb s hmem hptr]
  unfold wordWrite
  split
  · next e => exact absurd e n0
  · next e => exact absurd e n8
  · next e => exact absurd e n10
  · next e => exact absurd e n18
  · next e => exact absurd e n108
  · next e => exact absurd e nArea
  · next e => exact absurd e nPos
  · rfl

end

/-- Settles O33: each address is decoded to the write of its register, which the register's own row makes too. -/
theorem registerAddresses : Obligations.RegisterAddresses := by
  intro h addr v strb s hp
  have hx : ∀ t, registerWriteAt h addr v strb s = t → exec (.registerWrite h addr v strb) s = .next (ended s t) :=
    fun t ht => (congrArg (nextOf s) (onPort_of_takes hp _)).trans (by rw [ht]; rfl)
  have row : ∀ (f : State → State), registerWriteAt h addr v strb s = f s →
      exec (.registerWrite h addr v strb) s = nextOf s (onPort h f s) :=
    fun f ht => by rw [hx _ ht, onPort_of_takes hp]; rfl
  have word : ∀ n, addr.toNat / 8 * 8 = n → n < 0x20000 → ¬ (0x1000 ≤ n ∧ n < 0x1200) → _ :=
    fun n hn h1 h2 => registerWriteAt_other h addr v strb s (by omega) (by omega)
  refine ⟨fun ha => row _ ?_, fun ha => row _ ?_, fun ha => row _ ?_, fun ha => row _ ?_, fun ha => row _ ?_, fun ha => row _ ?_,
    fun ha hs hb => hx _ ?_, fun q ha => row _ (registerWriteAt_tail h addr v strb s q.isLt ha),
    fun q ha => row _ (registerWriteAt_sqHead h addr v strb s q.isLt ha), fun hr => hx _ (registerWriteAt_readOnly h addr v strb s hr)⟩
  · rw [word _ ha (by omega) (by omega), ha]; rfl
  · rw [word _ ha (by omega) (by omega), ha]; rfl
  · rw [word _ ha (by omega) (by omega), ha]; rfl
  · rw [word _ ha (by omega) (by omega), ha]; rfl
  · rw [word _ ha (by omega) (by omega), ha]; rfl
  · rw [word _ ha (by omega) (by omega), ha]; rfl
  · rw [word _ ha (by omega) (by omega), ha, hb]
    exact regWrite_of_serving hs _

/-! ### Reads that change state -/

/-- R42: what a serving hub answers to a read of a register of its own. -/
theorem portRead_of_serving {h : HubId} {s : State} (hs : isServing (hubOf s h) = true) {a n : Nat} (hv : regValue s h a = some n) :
    portRead s h a = (0, w64 n) := by
  have hrole : (hubOf s h).role = .primary ∨ (hubOf s h).role = .sole := by simpa [isServing] using hs
  rcases hrole with hr | hr <;> simp [portRead, hr, hv]

theorem reads_respond (h : HubId) (a : Nat) (s : State) :
    (hubOf (respond h a s) h).reads = (hubOf s h).reads ++ [((portRead s h a).1, a, (portRead s h a).2)] := by
  simp [respond]

/-- R42, R453, R454: word 0 of a slot of the Strata window is a register of the window. -/
theorem regValue_window (s : State) (h : HubId) {k : Nat} (hk : k < 64) : ∃ n, regValue s h (0x4000 + 64 * k) = some n := by
  have hc : readClocked s h (0x4000 + 64 * k) = none := by
    unfold readClocked
    split
    iterate 7 omega
    rfl
  have ho : readOther s h (0x4000 + 64 * k) = none := by
    unfold readOther
    split
    iterate 19 omega
    rfl
  rw [regValue, hc]
  simp only
  rw [if_neg (by omega), ho]
  simp only [readMemory]
  rw [if_pos (by omega)]
  exact ⟨_, rfl⟩

/-- Settles O34: each read answers and then has its effect on its own register; cmd_rst_n and a full status queue as R444 and R415 say. -/
theorem readsAndResets : Obligations.ReadsAndResets := by
  intro h slot q s hs
  have hdown : (hubOf s h).role ≠ .down := by intro hd; simp [isServing, hd] at hs
  have htold : (serving s).isNone = false := by
    cases h <;> simp only [hubOf] at hs <;> simp only [serving, hs, if_true]
    · rfl
    · split <;> rfl
  refine ⟨fun hp => ⟨⟨_, congrArg (nextOf s) (onPort_of_takes hp _), ?_, ?_⟩, ⟨_, congrArg (nextOf s) (onPort_of_takes hp _), ?_, ?_⟩,
    ⟨_, congrArg (nextOf s) (onPort_of_takes hp _), ?_, ?_⟩⟩, rfl, fun hfull hnew => ?_⟩
  · rw [hubOf_ended]
    simp [pinsOf, snapshotAt, hs, respond]
  · obtain ⟨n, hn⟩ := regValue_window (modHub h (fun x => { x with snaps := tset x.snaps slot.toNat (windowBytes s h slot.toNat) }) s) h slot.isLt
    refine ⟨w64 n, ?_⟩
    rw [hubOf_ended]
    simp only [pinsOf, snapshotAt, hs, if_true, reads_respond]
    rw [portRead_of_serving (by simpa [isServing] using hs) hn]
    simp
  · rw [hubOf_ended]
    simp [pinsOf, portErrReadAt, hdown]
  · rw [hubOf_ended]
    simp only [pinsOf, portErrReadAt, hdown, if_false, hubOf_modHub, reads_respond]
    rw [portRead_of_serving hs rfl]
    rfl
  · rw [hubOf_ended]
    simp [pinsOf, trcLossReadAt, hs]
  · rw [hubOf_ended]
    simp only [pinsOf, trcLossReadAt, hs, if_true, hubOf_modHub, reads_respond]
    rw [portRead_of_serving hs rfl]
    rfl
  · show nextOf s (statusFullAt q.toNat s) = _
    rw [statusFullAt]
    simp only [hfull, hnew, htold]
    rfl

end Sys2Proof.Proofs.Registers
end

section
/-! PROOFS. Events of the hubs' own parts (R398, R401, R404, R408). -/

namespace Sys2Proof.Proofs.Strata
open Sys2Proof Sys2Proof.Machine

/-- The site that a hub gives an event of its own changes nothing of how many records it takes. -/
theorem recCount_sited (h : HubId) (e : Ev) : recCount (sited h e) = recCount e := by
  unfold sited
  split <;> rfl

/-- Strata after an event that no trigger and no armed stop matches. -/
theorem strata_raise_quiet {e : Ev} {s : State} {h : HubId} (hs : serving s = some h) (hn : noMatch s) :
    (raise e s).strata = strataPut (sited h e) (max (hubOf s h).time (lastStamp s)) s.strata := by
  obtain ⟨ha, hb, hc⟩ := hn
  rw [raise_quiet hs ha hb hc, strata_ingestOne, sited]

section
variable (e : Ev) (t : Nat) (b : StrataB)

theorem strataPut_running (hf : b.frozen = false) :
    (strataPut e t b).circ = newestRecs 32768 (b.circ ++ recsOf e b.nextCount t) ∧
    (strataPut e t b).perm = permFill b.perm (recsOf e b.nextCount t) ∧
    (strataPut e t b).nextCount = b.nextCount + recCount e ∧ (strataPut e t b).hold = b.hold := by
  simp [strataPut, hf, appendRecs, recCount]

theorem strataPut_frozen (hf : b.frozen = true) : (strataPut e t b).circ = b.circ ∧ (strataPut e t b).perm = b.perm := by
  simp only [strataPut, hf, if_true]
  split
  all_goals exact ⟨(apply_ite _ _ _ _).trans (ite_self _), (apply_ite _ _ _ _).trans (ite_self _)⟩

theorem strataPut_hold (hf : b.frozen = true) (hroom : b.hold.length + recCount e ≤ 4096) :
    (strataPut e t b).hold = b.hold ++ recsOf e b.nextCount t ∧ (strataPut e t b).lost = b.lost := by
  rw [recCount] at hroom
  simp only [strataPut, hf, if_true, if_pos hroom, and_self]

theorem strataPut_lost (hf : b.frozen = true) (hfull : 4096 < b.hold.length + recCount e) :
    (strataPut e t b).hold = b.hold ∧ (strataPut e t b).lost = b.lost + 1 ∧ (strataPut e t b).nextCount = b.nextCount := by
  rw [recCount] at hfull
  simp only [strataPut, hf, if_true, if_neg (Nat.not_le.2 hfull), and_self]

end

/-- Settles O39: Strata takes the event as `strataPut` says, and the frame is that of `raise`. -/
theorem raisedEvents : Obligations.RaisedEvents := by
  intro e s
  refine ⟨raise_held, fun h hs hn => ?_, raise_cmd e s, raise_wardens e s, raise_sync e s, raise_defects e s, raise_quarry e s,
    raise_test e s, raise_gov e s, raise_tst e s, raise_boot e s, raise_links e s, raise_vein e s, raise_mir e s, raise_free e s,
    fun h => ⟨hub_raise_role e s h, hub_raise_time e s h⟩⟩
  simp only [strata_raise_quiet hs hn, ← recCount_sited h e]
  refine ⟨strataPut_running _ _ _, fun hf => ?_⟩
  obtain ⟨hcirc, hperm⟩ := strataPut_frozen (sited h e) (max (hubOf s h).time (lastStamp s)) s.strata hf
  exact ⟨hcirc, hperm, strataPut_hold _ _ _ hf, strataPut_lost _ _ _ hf⟩

end Sys2Proof.Proofs.Strata
end

section
/-! PROOFS. The wafer reset (R65, R267, R287, R404). -/

namespace Sys2Proof.Proofs.Starts
open Sys2Proof Sys2Proof.Machine

/-- The state in which a wafer reset closes an open debug session: no hub serves. -/
def asStarting (s : State) : State :=
  { s with hubA := { s.hubA with role := .starting }, hubB := { s.hubB with role := .starting } }

theorem waferResetAt_eq (s : State) :
    waferResetAt s =
      let u := resetSession (asStarting s)
      { pending := u.pending, free := u.free, outs := u.outs, hubA := keepHub u.hubA, hubB := keepHub u.hubB
        wardens := u.wardens.map (fun e => (e.1, keepWarden e.2))
        sync := keepSync u.sync, defects := keepDefects u.defects, quarry := keepQuarry u.quarry, gov := keepGov u.gov
        strata := keepStrata u.strata, keys := keepKeys u.keys
        boot := { wafers := u.boot.wafers, nvTable := u.boot.nvTable, profiles := u.boot.profiles } } := rfl

/-- What the close of a session at a wafer reset leaves: every part but the list of sessions and the events that wait. -/
theorem resetSession_frame {s : State} (hs : serving s = none) : ∃ d l evs,
    resetSession s = { s with keys := { s.keys with dbg := d, sessions := l }, strata := { s.strata with hubHeld := evs } } := by
  unfold resetSession
  split
  · split
    · exact ⟨_, _, _, rfl⟩
    · exact ⟨_, _, _, rfl⟩
  · unfold closeDebug
    split
    · exact ⟨_, _, _, rfl⟩
    · refine ⟨none, _, _, (raise_held ?_).trans rfl⟩
      exact hs

theorem tget_map_keepWarden (l : Tab Warden) (p : Nat) :
    tget {} (l.map (fun e => (e.1, keepWarden e.2))) p = keepWarden (tget {} l p) := by
  have hfind : tfind (l.map (fun e => (e.1, keepWarden e.2))) p = (tfind l p).map keepWarden := by
    induction l with
    | nil => rfl
    | cons e r ih =>
      simp only [List.map_cons, tfind]
      split
      · rfl
      · exact ih
  rw [tget, tget, hfind]
  cases tfind l p <;> rfl

/-- Settles O40: a wafer reset rebuilds every part from the parts it keeps, and closing a session changes none of these. -/
theorem waferResetKeeps : Obligations.WaferResetKeeps := by
  intro s
  obtain ⟨d, l, evs, hu⟩ := resetSession_frame (s := asStarting s) rfl
  refine ⟨ended s (waferResetAt s), rfl, ?_⟩
  rw [waferResetAt_eq, hu]
  refine ⟨⟨rfl, rfl, rfl, rfl, rfl, rfl, rfl, rfl, rfl, rfl, rfl, rfl, rfl, rfl, rfl, rfl, rfl, rfl, rfl, rfl, rfl⟩,
    ⟨rfl, rfl, rfl, rfl, rfl, rfl, rfl, rfl, rfl, rfl, rfl, rfl, rfl, rfl, rfl, rfl, rfl, rfl, rfl, rfl, rfl⟩,
    rfl, rfl, rfl, rfl, rfl, rfl, rfl, rfl, rfl, rfl, rfl, fun p => ?_, rfl, rfl, rfl, rfl, rfl, rfl, rfl, rfl, rfl, rfl⟩
  rw [war_ended]
  simp only [war, tget_map_keepWarden]
  exact ⟨rfl, rfl, rfl⟩

end Sys2Proof.Proofs.Starts
end

section
/-! PROOFS. The start of a hub and the events of its own parts (R67, R68, R290, R291, R298 to R302, R363). -/

namespace Sys2Proof.Proofs.Starts
open Sys2Proof Sys2Proof.Machine

/-! ### The start of a hub -/

section
variable {h : HubId} {s : State}

/-- R300: no slot where neither verifies. -/
theorem chooseSlot_none (ha : slotFault s h 0 ≠ 0) (hb : slotFault s h 1 ≠ 0) : chooseSlot s h = none := by
  simp only [chooseSlot, ha, hb, and_self, if_false]

/-- R300: the slot that verifies, of two the one with the higher IMGVER, of equal ones the first. -/
theorem chooseSlot_some (hv : ¬ (slotFault s h 0 ≠ 0 ∧ slotFault s h 1 ≠ 0)) :
    chooseSlot s h = some (if slotFault s h 0 ≠ 0 then 1 else if slotFault s h 1 ≠ 0 then 0
      else if (slotImage s h 0).1 < (slotImage s h 1).1 then 1 else 0) := by
  by_cases ha : slotFault s h 0 = 0
  · by_cases hb : slotFault s h 1 = 0
    · simp only [chooseSlot, ha, hb, and_self, if_true, ne_eq, not_true, if_false]
    · simp only [chooseSlot, ha, hb, and_false, if_true, ne_eq, not_true, not_false_eq_true, if_false]
  · have hb : slotFault s h 1 = 0 := Classical.not_not.mp fun hb => hv ⟨ha, hb⟩
    simp only [chooseSlot, ha, hb, false_and, if_true, ne_eq, not_false_eq_true, if_false]

end

/-- Settles O41: a start chooses its slot as `chooseSlot_some` says; each further event is its row's one branch. -/
theorem hubEvents : Obligations.HubEvents := by
  intro h inp ns core s
  refine ⟨fun hr hst => ?_, fun hl => ?_, fun hl => ?_, fun hc hr ho hm => ?_, fun hc hr hn ho => ?_, fun hr hn => ?_, fun hs hl => ?_,
    fun hr hrst hl => ?_, fun d hs hl hd => ?_⟩
  · show nextOf s (hubStartAt h inp s) = _
    unfold hubStartAt
    simp only [hr, hst]
    by_cases hv : slotFault s h 0 ≠ 0 ∧ slotFault s h 1 ≠ 0
    · rw [chooseSlot_none hv.1 hv.2]
      simp only [if_pos hv]
      rfl
    · rw [chooseSlot_some hv]
      simp only [if_neg hv]
      by_cases ha : slotFault s h 0 = 0
      · by_cases hb : slotFault s h 1 = 0
        · simp only [ha, hb, ne_eq, not_true, if_false]
          cases identityOk (isB h) <;> rfl
        · simp only [ha, hb, ne_eq, not_true, not_false_eq_true, if_false, if_true]
          cases identityOk (isB h) <;> rfl
      · simp only [ha, ne_eq, not_false_eq_true, if_true]
        cases identityOk (isB h) <;> rfl
  · show nextOf s (refclkLostAt h s) = _
    simp only [refclkLostAt, hl]
    rfl
  · show nextOf s (refclkBackAt h ns s) = _
    simp only [refclkBackAt, hl]
    rfl
  · show nextOf s (lockstepAt h core s) = _
    rw [lockstepAt]
    simp only [ho, hm]
    rw [if_neg, if_neg]
    · rfl
    · simp; omega
    · simp [hr]; omega
  · show nextOf s (lockstepAt h core s) = _
    rw [lockstepAt]
    simp only
    rw [if_neg, if_pos (.inl ho)]
    · rfl
    · simp [hr, hn]; omega
  · show nextOf s (lockstepAt h 3 s) = _
    rw [lockstepAt]
    simp only
    rw [if_neg, if_pos (by simp)]
    · rfl
    · simp [hr, hn]
  · show nextOf s (hbeatAt s) = _
    simp only [hbeatAt, hs, hl]
    rfl
  · show nextOf s (peerHbAt h s) = _
    rw [peerHbAt]
    rw [if_neg]
    · rfl
    · simp [hr, hrst, hl]
  · show nextOf s (debugIdleAt s) = _
    simp only [debugIdleAt, clockRuns, hs, hl, closeDebug, hd]
    rfl

end Sys2Proof.Proofs.Starts
end

section
/-! PROOFS. Power at the hubs and a warden's own supply (R23, R63, R329 to R335). -/

namespace Sys2Proof.Proofs.Power
open Sys2Proof Sys2Proof.Machine

/-! ### What the items of a flush leave alone (R330) -/

section
variable (h : HubId) (r : Nat) (s : State)

/-- A stale region is noted at the peer, not at the hub that flushes. -/
theorem hubOf_flushStale : hubOf (flushStale h r s) h = hubOf s h := by
  unfold flushStale
  split
  · exact hubOf_other_modHub h _ s
  · rfl

theorem flushStale_sync : (flushStale h r s).sync = s.sync := by
  unfold flushStale
  split
  · exact modHub_sync ..
  · rfl

theorem hubOf_flushTable : hubOf (flushTable h s) h = hubOf s h := by
  unfold flushTable
  split
  · rfl
  · rw [hubOf_flushStale]
    split
    · cases h <;> rfl
    · rfl

theorem flushTable_sync : (flushTable h s).sync = s.sync := by
  unfold flushTable
  split
  · rfl
  · rw [flushStale_sync]
    split <;> rfl

theorem hubOf_flushCounters : hubOf (flushCounters h s) h = hubOf s h := by
  rw [flushCounters, hubOf_flushStale]
  cases h <;> rfl

theorem flushCounters_rsnNv : (flushCounters h s).sync.rsnNv = s.sync.nextRsn - 1 := by
  rw [flushCounters, flushStale_sync]

end

/-- A hub that has been told of the warning flushes once (Table 13.2 step 5). -/
theorem flushDoneAt_warned {h : HubId} {s : State} (hw : (hubOf s h).pwr.warn = true) (hf : (hubOf s h).pwr.flushed = false) :
    ∃ e, flushDoneAt h s = raise e (flushCounters h (flushStale h nvPowerFail (flushTable h
      (modHub h (fun x => { x with pfail := flushRecs h s.strata.circ, pfailDone := true, pwr := { x.pwr with flushed := true } }) s)))) := by
  simp only [flushDoneAt, hw, hf]
  exact ⟨_, rfl⟩

/-! ### A warden that stops (R23, R69, R335) -/

/-- What a warden's interior holds once it has stopped, its clamps in force. -/
def stopInterior (w : Warden) : Warden :=
  let f := fun (k : Chan) => { k with fenceReq := true, drainErr := true, bankEn := 0xFFFFFFFFFFFFFFFF#64 }
  { w with
    alive := false, stopped := true, pmap := 0, ch0 := f w.ch0, ch1 := f w.ch1, lnkFence := true
    droop := { w.droop with req := false }, staging := [], stagOcc := 0, heldW := [], evs := []
    shdQ := [], patBuf := [], patNext := none, haltReq := false, pcsWait := [] }

/-- The state in which the wafer order and the detour table are looked at again: the interior is lost, the node is out, and no wafer order
waits for the warden (R286). -/
def stoppedState (p : Nat) (s : State) : State :=
  modReset p (fun r => { r with wafer := false })
    { modW p stopInterior s with vein := { s.vein with nodesOut := insertOnce s.vein.nodesOut (nodeOfPart p) } }

theorem war_stoppedState (p : Nat) (s : State) :
    war (stoppedState p s) p = { stopInterior (war s p) with reset := { (stopInterior (war s p)).reset with wafer := false } } := by
  have hw : ∀ v, war { modW p stopInterior s with vein := v } p = stopInterior (war s p) := fun _ => war_modW p stopInterior s
  rw [stoppedState, modReset, war_modW, hw]

theorem war_stoppedState_ne {p r : Nat} (hr : r ≠ p) (s : State) : war (stoppedState p s) r = war s r :=
  (war_modW_ne hr _ _).trans (war_modW_ne hr stopInterior s)

theorem stopWarden_alive {p : Nat} {s : State} (ha : (war s p).alive = true) :
    stopWarden p s = (match serving (waferCheck (stoppedState p s)) with
      | some g => loadDetour g (waferCheck (stoppedState p s)) | none => waferCheck (stoppedState p s)) := by
  simp only [stopWarden, ha]
  rfl

/-- Settles O42: each row is its handler's branch; the frames of the flush and of a stop are the lemmas above. -/
theorem powerEvents : Obligations.PowerEvents := by
  intro h reading ns p s
  refine ⟨fun hr hrst hw => ?_, fun hs hrst hw => ⟨_, ?_, rfl, ?_⟩, rfl, fun hw hf => ?_, fun hr hw hp hf => ?_, fun hr hrst hl => ?_,
    fun hr hrst hl => ?_, fun hrst => ⟨?_, ?_, ?_⟩, rfl, fun ha => ?_⟩
  · have hs : isServing (hubOf s h) = false := by simp [isServing, hr]
    show nextOf s (failWarnAt h s) = _
    simp only [failWarnAt, hs, hr, hrst, hw, reduceCtorEq, Bool.false_eq_true, or_self, if_false]
    rfl
  · have hr : (hubOf s h).role ≠ .down := by intro hd; simp [isServing, hd] at hs
    show nextOf s (failWarnAt h s) = _
    simp only [failWarnAt, hr, hrst, hw, hs]
    rfl
  · simp
  · obtain ⟨e, he⟩ := flushDoneAt_warned hw hf
    refine ⟨ended s (flushDoneAt h s), rfl, ?_⟩
    rw [hubOf_ended, he]
    simp [pinsOf, hubOf_flushCounters, hubOf_flushStale, hubOf_flushTable, ended, flushCounters_rsnNv, flushStale_sync, flushTable_sync]
  · show nextOf s (rideThrough performHeld h s) = _
    unfold rideThrough
    simp only [hw, hp, hf, isServing, hr, hub_raise_role, hubOf_modHub]
    rfl
  · show nextOf s (railLowAt h reading s) = _
    simp only [railLowAt, hr, hrst, hl]
    rfl
  · show nextOf s (railOkAt h ns s) = _
    simp only [railOkAt, hr, hrst, hl]
    rfl
  · show nextOf s (failWarnAt h s) = _
    simp only [failWarnAt, hrst, or_true, if_true]
    rfl
  · show nextOf s (railLowAt h reading s) = _
    simp only [railLowAt, hrst, true_or, or_true, if_true]
    rfl
  · show nextOf s (railOkAt h ns s) = _
    simp only [railOkAt, hrst, true_or, or_true, if_true]
    rfl
  · refine ⟨stoppedState p s, ?_, rfl, ?_⟩
    · show nextOf s (stopWarden p s) = _
      rw [stopWarden_alive ha]
      rfl
    · rw [war_stoppedState]
      refine ⟨rfl, rfl, rfl, rfl, rfl, rfl, rfl, rfl, rfl, rfl, rfl, rfl, rfl, rfl, rfl, rfl, rfl, rfl, rfl, rfl, ?_, fun r hr => war_stoppedState_ne hr s, rfl⟩
      simp only [stoppedState, insertOnce]
      split
      · assumption
      · simp

end Sys2Proof.Proofs.Power
end

section
/-! PROOFS. Droop windows, the stretch, the work held back, stuck sensors (R324 to R328, R337). -/

namespace Sys2Proof.Proofs.Droops
open Sys2Proof Sys2Proof.Machine

/-! ### Inputs -/

/-- What an unmasked input that reads 1 adds to those that stood stays unmasked. -/
theorem live_or {a b m : BitVec 40} (h : b &&& ~~~m ≠ 0) : (a ||| b) &&& ~~~m ≠ 0 := by
  have hb : b &&& ~~~m = (a ||| b) &&& ~~~m &&& b := by
    ext i
    simp only [BitVec.getElem_and, BitVec.getElem_or, BitVec.getElem_not]
    cases a[i] <;> cases b[i] <;> cases m[i] <;> rfl
  intro h0
  exact h (by rw [hb, h0]; exact BitVec.zero_and)

/-- Inputs under the mask are none that count. -/
theorem live_masked (a m f : BitVec 40) : (a &&& m &&& f) &&& ~~~m = 0 := by
  ext i
  simp only [BitVec.getElem_and, BitVec.getElem_not]
  cases m[i] <;> simp

/-! ### What transfers leave alone -/

/-- The window, the work held back and the pattern's next beat at a warden. -/
def steady (p : Nat) (s : State) : Droop × List HeldWork × Option Nat := ((war s p).droop, (war s p).heldW, (war s p).patNext)

theorem war_drive (o : Out) (s : State) (p : Nat) : war (drive o s) p = war s p := rfl

/-- With no pattern under way, a transfer that leaves its queue changes none of these. -/
theorem steady_transfer {p : Nat} {s : State} (hn : (war s p).patNext = none) (g : Nat) (d : Disp) :
    steady p (transfer p g d s) = steady p s := by
  simp only [steady, transfer, war_drive, war_modW, hn, Option.map_none, ite_self]

theorem patNext_of_steady {p : Nat} {s t : State} (h : steady p t = steady p s) (hn : (war s p).patNext = none) : (war t p).patNext = none :=
  (congrArg (·.2.2) h).trans hn

theorem steady_pumpN {p g : Nat} (n : Nat) : ∀ {s : State}, (war s p).patNext = none → steady p (pumpN p g n s) = steady p s := by
  induction n with
  | zero => intro s _; rfl
  | succ n ih =>
    intro s hn
    unfold pumpN
    split
    · rfl
    · next d _ =>
      have ht := steady_transfer hn g d
      exact (ih (patNext_of_steady ht hn)).trans ht

theorem beatsDone_none {p : Nat} {s : State} (hn : (war s p).patNext = none) : beatsDone p s = s := by
  unfold beatsDone
  rw [hn]
  split
  · next h => cases h
  · rfl

theorem steady_pumpGroup {p : Nat} {s : State} (g : Nat) (hn : (war s p).patNext = none) : steady p (pumpGroup p g s) = steady p s := by
  unfold pumpGroup
  simp only
  split
  · have hp := steady_pumpN (g := g) ((dispQueue (war s p) g).length + patBeats (war s p)) hn
    rw [beatsDone_none (patNext_of_steady hp hn), hp]
  · rfl

theorem steady_enqueue {p : Nat} {s : State} (g : Nat) (d : Disp) (hn : (war s p).patNext = none) : steady p (enqueue p g d s) = steady p s := by
  unfold enqueue
  split
  · rfl
  · split
    · rfl
    · have hq : steady p (modW p (fun w => { w with shdQ := tput [] w.shdQ g (putDisp d (dispQueue w g)) }) s) = steady p s := by
        simp only [steady, war_modW]
      rw [steady_pumpGroup g (patNext_of_steady hq hn), hq]

/-- Held transfers that proceed leave the window as it is. -/
theorem steady_proceed_all {p : Nat} {l : List HeldWork} (hl : ∀ x ∈ l, ∃ g fr d, x = .disp g fr d) :
    ∀ {s : State}, (war s p).patNext = none → steady p (l.foldl (proceed p) s) = steady p s := by
  induction l with
  | nil => intro s _; rfl
  | cons x r ih =>
    intro s hn
    obtain ⟨g, fr, d, rfl⟩ := hl x (List.mem_cons_self ..)
    have hx : steady p (proceed p s (.disp g fr d)) = steady p s := steady_enqueue g d hn
    exact (ih (fun y hy => hl y (List.mem_cons_of_mem _ hy)) (patNext_of_steady hx hn)).trans hx

/-- The window closes: with no slice held and no pattern under way, what was held is gone and the window's own state stands. -/
theorem steady_releaseHeld {p : Nat} {s : State} (hn : (war s p).patNext = none) (hs : ∀ src, HeldWork.slice src ∉ (war s p).heldW) :
    steady p (releaseHeld p s) = ((war s p).droop, [], none) := by
  unfold releaseHeld
  simp only
  rw [steady_proceed_all]
  · simp only [steady, war_modW, hn]
  · intro x hx
    cases x with
    | disp g fr d => exact ⟨g, fr, d, rfl⟩
    | slice src =>
      have hmem : HeldWork.slice src ∈ (war s p).heldW := by simpa using hx
      exact absurd hmem (hs src)
    | swap c => simp at hx
  · simp only [war_modW, hn]

/-! ### The close of a window -/

/-- An event at a warden leaves its window and its held work. -/
theorem raiseW_droop (p : Nat) (e : Ev) (s : State) : (war (raiseW p e s) p).droop = (war s p).droop ∧ (war (raiseW p e s) p).heldW = (war s p).heldW := by
  rw [raiseW, war_modW]
  split <;> exact ⟨rfl, rfl⟩

theorem windowEvent_cases (p : Nat) (s : State) : windowEvent p s = s ∨ ∃ e, windowEvent p s =
    raiseW p e (modDroop p (fun d => { d with evAt := some (war s p).timer, sinceEv := 0, longest := 0, opened := 0, markEv := 0 }) s) :=
  (Classical.em _).imp (fun h => if_pos h) fun h => ⟨_, if_neg h⟩

/-- The event of a window changes only what it counts (R337). -/
theorem windowEvent_window (p : Nat) (s : State) :
    (war (windowEvent p s) p).droop.open_ = (war s p).droop.open_ ∧ (war (windowEvent p s) p).droop.closing = (war s p).droop.closing ∧
    (war (windowEvent p s) p).droop.req = (war s p).droop.req ∧ (war (windowEvent p s) p).heldW = (war s p).heldW := by
  rcases windowEvent_cases p s with h | ⟨e, h⟩
  · rw [h]
    exact ⟨rfl, rfl, rfl, rfl⟩
  · obtain ⟨hd, hh⟩ := raiseW_droop p e (modDroop p (fun d => { d with evAt := some (war s p).timer, sinceEv := 0, longest := 0, opened := 0, markEv := 0 }) s)
    rw [h, hd, hh, modDroop, war_modW]
    exact ⟨rfl, rfl, rfl, rfl⟩

theorem war_modDroop (p : Nat) (f : Droop → Droop) (s : State) : (war (modDroop p f s) p).droop = f (war s p).droop := by
  rw [modDroop, war_modW]

/-- A window as it closes, at a tick of its warden's timer. -/
def closeWindow (now : Nat) (d : Droop) : Droop :=
  { d with
    open_ := false, closing := false
    wins := d.wins.filter (fun x => decide (now < x.2 + hourTicks)) ++ [(d.openAt, now)]
    sinceEv := d.sinceEv + 1, longest := max d.longest (now - d.openAt) }

theorem windowCloseAt_closing {p : Nat} {s : State} (ho : (war s p).droop.open_ = true) (hc : (war s p).droop.closing = true) :
    windowCloseAt p s = windowEvent p (if (war s p).droop.order then modDroop p (closeWindow (war s p).timer) s
      else closeEffect p (modDroop p (closeWindow (war s p).timer) s)) := by
  simp only [windowCloseAt, ho, hc]
  rfl

/-- Holds and stretch end with the window (R327, R328). -/
theorem steady_closeEffect {p : Nat} {s : State} (hn : (war s p).patNext = none) (hs : ∀ src, HeldWork.slice src ∉ (war s p).heldW) :
    steady p (closeEffect p s) = ({ (war s p).droop with req := false, again := false }, [], none) := by
  have hw := war_modW p (fun w => { w with droop := { w.droop with req := false, again := false } }) s
  rw [closeEffect, steady_releaseHeld, war_modDroop]
  · exact (congrArg Warden.patNext hw).trans hn
  · intro src hmem
    exact hs src ((congrArg Warden.heldW hw) ▸ hmem)

theorem modDroop_const (p : Nat) (f : Droop → Droop) (s : State) :
    modDroop p f s = modDroop p (fun _ => (war (modDroop p f s) p).droop) s := by
  simp only [modDroop, war_modW]
  rfl

/-- R326: the inputs as they stand open a window that is closed. -/
theorem evalInputs_opens {p : Nat} {s : State} (hl : liveInputs (war s p).droop ≠ 0) (ho : (war s p).droop.open_ = false) :
    evalInputs p s =
      let u := modW p (fun w => { w with droop := { w.droop with
        open_ := true, openAt := w.timer, closing := false, opened := w.droop.opened ||| liveInputs w.droop } }) s
      if (war s p).droop.order then u else openEffect p u := by
  simp only [evalInputs, hl, ho, if_false, Bool.false_eq_true]

theorem evalInputs_extends {p : Nat} {s : State} (hl : liveInputs (war s p).droop ≠ 0) (ho : (war s p).droop.open_ = true) :
    evalInputs p s = modDroop p (fun d => { d with closing := false }) s := by
  simp only [evalInputs, hl, ho, if_false, if_true]

theorem evalInputs_clear {p : Nat} {s : State} (hl : liveInputs (war s p).droop = 0) :
    evalInputs p s = if (war s p).droop.open_ then modDroop p (fun d => { d with closing := true }) s else s := by
  simp only [evalInputs, hl, if_true]

/-- Settles O43: the inputs go through `evalInputs`, a close through `windowEvent` and `releaseHeld`, and the other rows each through one branch. -/
theorem droopEvents : Obligations.DroopEvents := by
  intro p droop margin s
  refine ⟨fun ha => ⟨fun hz => ?_, fun hz ho => ?_, fun hz ho => ?_, ?_, fun level hl => ?_⟩, fun ho hc => ?_, fun hw => ?_,
    fun bit hb hi hs => ?_, fun hr ha hg => ?_, fun g fr d r hh hn => ⟨?_, fun ha hf => ?_⟩, fun src r hh hn => ?_, fun c r hh hn => ?_⟩
  · show nextOf s (windowOpenAt p droop margin s) = _
    simp only [windowOpenAt, ha, hz]
    rfl
  · show nextOf s (windowOpenAt p droop margin s) = _
    simp only [windowOpenAt, ha, hz]
    rw [evalInputs_opens]
    · simp only [war_modDroop]
      rfl
    · rw [war_modDroop]
      exact live_or hz
    · rw [war_modDroop]
      exact ho
  · show nextOf s (windowOpenAt p droop margin s) = _
    simp only [windowOpenAt, ha, hz]
    rw [evalInputs_extends]
    · rfl
    · rw [war_modDroop]
      exact live_or hz
    · rw [war_modDroop]
      exact ho
  · show nextOf s (inputClearAt p s) = _
    simp only [inputClearAt, ha]
    rw [evalInputs_clear]
    · simp only [war_modDroop]
      rfl
    · rw [war_modDroop]
      exact live_masked _ _ _
  · show nextOf s (stretchAckAt p level s) = _
    rcases hl with hl | hl <;> simp only [stretchAckAt, ha, hl, Bool.and_false, Bool.not_true, Bool.false_and, Bool.false_eq_true, if_false] <;> rfl
  · refine ⟨modDroop p (closeWindow (war s p).timer) s, _, congrArg (nextOf s) (windowCloseAt_closing ho hc), rfl, modDroop_const _ _ _, ?_, ?_, ?_, ?_⟩
    · rw [war_modDroop]
      rfl
    · rw [war_modDroop]
      rfl
    · rw [war_modDroop]
      rfl
    · intro h
      simp only [war_ended, windowEvent_window]
      cases hord : (war s p).droop.order with
      | true =>
        simp only [if_true, war_modDroop]
        exact ⟨rfl, rfl, fun h => nomatch h⟩
      | false =>
        obtain ⟨hn, hs⟩ := h.resolve_left (by simp [hord])
        have hw := war_modW p (fun w => { w with droop := closeWindow (war s p).timer w.droop }) s
        have hst := steady_closeEffect (s := modDroop p (closeWindow (war s p).timer) s) ((congrArg Warden.patNext hw).trans hn)
          (fun src hmem => hs src ((congrArg Warden.heldW hw) ▸ hmem))
        rw [war_modDroop] at hst
        have hd := congrArg (·.1) hst
        have hh := congrArg (·.2.1) hst
        simp only [steady] at hd hh
        simp only [Bool.false_eq_true, if_false, hd, hh]
        exact ⟨rfl, rfl, fun _ => ⟨trivial, trivial⟩⟩
  · show nextOf s (markingEndAt p s) = _
    simp only [markingEndAt, hw]
    rfl
  · show nextOf s (sensorStuckAt p bit s) = _
    simp only [sensorStuckAt, hb, hi, hs]
    rfl
  · show nextOf s (stretchNoAckAt p s) = _
    simp only [stretchNoAckAt, hr, ha, hg]
    rfl
  · show nextOf s (holdExpiryAt p s) = _
    simp only [holdExpiryAt, isHalted, hn, hh]
    rfl
  · show nextOf s (holdExpiryAt p s) = _
    have hw := war_modW p (fun w => { w with heldW := r }) s
    have ha' : (war (modW p (fun w => { w with heldW := r }) s) p).alive = true := hw ▸ ha
    have hf' : chanFree (war (modW p (fun w => { w with heldW := r }) s) p) g = true := hw ▸ hf
    simp only [holdExpiryAt, isHalted, hn, hh, proceed, enqueue, ha', hf']
    rfl
  · show nextOf s (holdExpiryAt p s) = _
    simp only [holdExpiryAt, isHalted, hn, hh]
    rfl
  · show nextOf s (holdExpiryAt p s) = _
    simp only [holdExpiryAt, isHalted, hn, hh]
    rfl

end Sys2Proof.Proofs.Droops
end

section
/-! PROOFS. Wardens' starts and leases, claims and roles (R19, R21, R22, R265, R293, R303). -/

namespace Sys2Proof.Proofs.Roles
open Sys2Proof Sys2Proof.Machine

/-! ### The start of a warden -/

/-- What a table filled key by key reads as. -/
theorem tfind_foldl_tset {α : Type} (f : Nat → α) (n i : Nat) (hi : i < n) :
    tfind ((List.range n).foldl (fun t j => tset t j (f j)) []) i = some (f i) := by
  induction n with
  | zero => omega
  | succ n ih =>
    rw [List.range_succ, List.foldl_append, List.foldl_cons, List.foldl_nil, tfind_tset]
    split
    · next h => rw [h]
    · exact ih (by omega)

/-- R303: what a warden that starts takes from its straps and its seeds. -/
def startWarden (inp : WardenIn) (w : Warden) : Warden :=
  { w with
    alive := true, linkBase := inp.linkBase % 64, linkCount := inp.linkCount % 16
    prng := (List.range 21).foldl (fun t i => tset t i ((inp.seeds[i]?).getD 0)) [] }

theorem startWarden_prng (inp : WardenIn) (w : Warden) (i : Nat) (hi : i < 21) :
    tfind (startWarden inp w).prng i = some ((inp.seeds[i]?).getD 0) := by
  simp only [startWarden]
  exact tfind_foldl_tset (fun i => (inp.seeds[i]?).getD 0) 21 i hi

theorem wardenStartAt_starts {p : Nat} {s : State} (hp : p ≤ 97) (ha : (war s p).alive = false) (hs : (war s p).stopped = false) (inp : WardenIn) :
    ∃ links, wardenStartAt p inp s = modW p (startWarden inp)
      { s with vein := { s.vein with linksOut := links, nodesOut := s.vein.nodesOut.filter (· ≠ nodeOfPart p) } } := by
  simp only [wardenStartAt, ha, hs, Nat.not_lt.2 hp]
  exact ⟨_, rfl⟩

/-! ### Leases and claims -/

section
variable {h : HubId} {p : Nat} {s : State}

theorem dropLease_eq : dropLease h p s =
    let u := modHub h (fun x => { x with leases := tdel x.leases p }) s
    if isServing (hubOf u h) && !hasQuorum u h then settleRole (other h) (settleRole h (setRole h .starting u)) else u := rfl

/-- R22, R303: a claim that reaches a warden with a lease ends there. -/
theorem claimAt_held (hf : inFlight (.claim h p) s = true) (hl : (war s p).lease.isSome = true) :
    claimAt h p s = recv (.claim h p) s := by
  have hl' : (war (recv (.claim h p) s) p).lease.isSome = true := hl
  simp only [claimAt, hf, hl', Bool.not_true, Bool.false_and, Bool.false_eq_true, if_false, Bool.or_true, Bool.true_or, if_true]

/-- A warden that holds no lease grants one to a hub in Claiming. -/
theorem claimAt_grants (hf : inFlight (.claim h p) s = true) (hc : claimable s p = true) (hr : (hubOf s h).role = .claiming)
    (hl : (war s p).lease = none) :
    claimAt h p s = modHub h (fun x => { x with leases := tset x.leases p x.time })
      (settleEntries p (modW p (fun w => { w with lease := some h, lapsed := false }) (idleTime p (recv (.claim h p) s)))) := by
  have hc' : claimable (recv (.claim h p) s) p = true := hc
  have hl' : (war (recv (.claim h p) s) p).lease = none := hl
  have hr' : (hubOf (recv (.claim h p) s) h).role = .claiming := by cases h <;> exact hr
  have hs : isServing (hubOf s h) = false := by simp [isServing, hr]
  simp [claimAt, hf, hc', hl', hr', hs]

end

/-- Settles O44: a start is `startWarden`, and each lease row one branch of its handler. -/
theorem wardenEvents : Obligations.WardenEvents := by
  intro h p inp s
  refine ⟨fun hp ha hst => ?_, fun hs hc hl => ?_, fun hany => ?_, fun hl => ⟨fun hany => ?_, fun hany => ?_⟩,
    fun hf hc hr => ⟨fun hl => ?_, fun hl => ?_⟩, fun hs hq => ?_, fun hs hq => ?_, fun hs => ?_⟩
  · obtain ⟨links, ht⟩ := wardenStartAt_starts hp ha hst inp
    refine ⟨ended s (wardenStartAt p inp s), rfl, ?_⟩
    have hw : ∀ v, war (ended s (modW p (startWarden inp) { s with vein := v })) p = startWarden inp (war s p) :=
      fun v => war_modW p (startWarden inp) { s with vein := v }
    rw [ht, hw]
    refine ⟨rfl, rfl, rfl, startWarden_prng inp (war s p), rfl, ?_, fun r hr => war_modW_ne hr _ _, rfl, rfl⟩
    intro hmem
    exact of_decide_eq_true (List.mem_filter.1 hmem).2 rfl
  · show nextOf s (leaseRenewalAt h p s) = _
    simp only [leaseRenewalAt, hs, hc, hl]
    rfl
  · show nextOf s (leaseExpiryAt h p s) = _
    rw [leaseExpiryAt, if_pos hany]
    rfl
  · show nextOf s (leaseLapseAt p s) = _
    simp only [leaseLapseAt, hl, leaseExpiryAt]
    rw [if_neg]
    · rfl
    · have hh : hubOf (modW p (fun w => { w with lease := none, lapsed := true, lapseAt := w.timer }) s) h = hubOf s h := by cases h <;> rfl
      rw [hh, hany]
      simp
  · show nextOf s (leaseLapseAt p s) = _
    simp only [leaseLapseAt, hl, leaseExpiryAt]
    rw [if_pos]
    · rfl
    · have hh : hubOf (modW p (fun w => { w with lease := none, lapsed := true, lapseAt := w.timer }) s) h = hubOf s h := by cases h <;> rfl
      rw [hh, hany]
  · exact congrArg (nextOf s) (claimAt_held hf hl)
  · exact congrArg (nextOf s) (claimAt_grants hf hc hr hl)
  · simp only [quorumCheck, hs, hq]
    rfl
  · simp only [quorumCheck, hs, hq]
    rfl
  · simp only [quorumCheck, hs]

/-! ### Roles -/

/-- Settles O45: each row is one branch of its handler. -/
theorem roleEvents : Obligations.RoleEvents := by
  intro h cause s
  refine ⟨fun hr => ?_, fun hr hq => ?_, fun hr hst => ?_, fun hr hn => ?_, fun hr hn hq hs => ?_, fun hr => ?_, fun hc hr => ?_, fun hc hr => ?_,
    fun hr ho => ?_⟩
  · show nextOf s (claimTickAt h s) = _
    simp only [claimTickAt, hr]
    rfl
  · show nextOf s (claimWithdrawnAt h s) = _
    simp only [claimWithdrawnAt, hr, hq]
    rfl
  · show nextOf s (claimRetryAt h s) = _
    simp only [claimRetryAt, hr, hst]
    rfl
  · show nextOf s (claimQuorumAt h s) = _
    rw [claimQuorumAt, if_pos (.inr (.inl hn))]
    rfl
  · intro role u v hd
    show nextOf s (claimQuorumAt h s) = _
    have hgo : ¬ ((hubOf s h).role ≠ .claiming ∨ (hubOf s h).stale ≠ [] ∨ (!hasQuorum s h) = true ∨ (serving s).isSome = true) := by
      simp [hr, hn, hq, hs]
    rw [claimQuorumAt, if_neg hgo]
    have hw : nextOf s (if (hubOf v h).role = .down then v else settleRole (other h) { v with boot := { v.boot with lastServ := some h } }) =
        .next (ended s (settleRole (other h) { v with boot := { v.boot with lastServ := some h } })) := by rw [if_neg hd]; rfl
    refine Eq.trans ?_ hw
    simp only [v, u, role, modHub_boot] <;> rfl
  · show nextOf s (peerProbeAt h s) = _
    simp only [peerProbeAt, hr]
    rfl
  · show nextOf s (hubFailoverAt h cause s) = _
    simp only [hubFailoverAt, hr]
    rw [if_neg (by omega)]
    rfl
  · show nextOf s (hubFailoverAt h cause s) = _
    simp only [hubFailoverAt, hr]
    rw [if_neg (by omega)]
    rfl
  · show nextOf s (peerSecondaryAt h s) = _
    simp only [peerSecondaryAt, hr, ho]
    rfl

end Sys2Proof.Proofs.Roles
end

section
/-! PROOFS. The mirror between the hubs and the flits of the Vein (R19, R25 to R29, R34, R263, R292, R377). -/

namespace Sys2Proof.Proofs.Mirrors
open Sys2Proof Sys2Proof.Machine

theorem mem_insertOnce {α : Type} [DecidableEq α] (l : List α) (a : α) : a ∈ insertOnce l a := by
  unfold insertOnce
  split
  · assumption
  · simp

theorem mirActs_release {rsn : Nat} {r : RelRec} {s : State} (hw : waitingRel s rsn = some r) :
    mirActs (.release rsn) s =
      let s1 := if (gatherOf s r.obj).releasing = some rsn then commitRelease r s else s
      sendReleases r { s1 with sync := { s1.sync with relWait := s1.sync.relWait.filter (fun r => r.rsn ≠ rsn) } } := by
  simp only [mirActs, hw]

/-- R251: a post acts on a flag or semaphore that is there. -/
theorem postActs_live {o : Nat} {s : State} (ht : (objOf s o).type = 2) (hs : (objOf s o).state ≠ 4) :
    postActs o s = if (objOf s o).count = 4294967295 then semSaturated o (refusePost o s) else writeCount o ((objOf s o).count + 1) s := by
  simp only [postActs, ht, hs, ne_eq, not_true, or_self, if_false]

/-- Settles O46: the Secondary takes what `mirApply` says, and each acknowledgement does what `mirActs` says. -/
theorem mirrorEvents : Obligations.MirrorEvents := by
  intro h i rest rsn s
  refine ⟨fun ho hr => ?_, fun ha hr => ?_, fun r hmem hw => ⟨fun hq => ?_, fun hq => ?_, ?_⟩, fun q v => ⟨rfl, congrArg Queue.sqHeadMir (queueOf_modQueue q _ s)⟩,
    fun o n p num => ⟨rfl, rfl, fun hs => ?_, fun ht hst => ⟨fun hc => ?_, fun hc => ?_⟩⟩, fun o e n => ?_, fun p n => ⟨mem_insertOnce _ _, rfl⟩⟩
  · show nextOf s (mirrorWriteAt h s) = _
    simp only [mirrorWriteAt, ho, hr]
    rfl
  · show nextOf s (mirrorAckAt h s) = _
    simp only [mirrorAckAt, ha, hr]
    rfl
  · have hany : (serving s).any (hasQuorum s) = true := by
      obtain ⟨g, hg, hgq⟩ := hq
      rw [hg]
      exact hgq
    show nextOf s (releaseAckAt rsn s) = _
    rw [releaseAckAt, if_pos ⟨hmem, hany⟩, mirActs_release]
    · rfl
    · exact hw
  · have hany : (serving s).any (hasQuorum s) = false := by
      cases hg : serving s with
      | none => rfl
      | some g => exact hq g hg
    show nextOf s (releaseAckAt rsn s) = _
    rw [releaseAckAt, if_neg (by simp [hany])]
    rfl
  · simp only [mirApply, hw]
  · rw [mirCount, if_pos hs]
    exact tfind_tset_self _ _ _
  · rw [postActs_live ht hst, if_neg (by omega)]
  · rw [postActs_live ht hst, if_pos hc]
  · exact tfind_tset_self _ _ _

end Sys2Proof.Proofs.Mirrors

namespace Sys2Proof.Proofs.Veins
open Sys2Proof Sys2Proof.Machine

/-- The last write of a key stands. -/
theorem tset_tset {α : Type} (t : Tab α) (k : Nat) (a b : α) : tset (tset t k a) k b = tset t k b := by
  induction t with
  | nil => simp [tset]
  | cons e r ih =>
    obtain ⟨j, w⟩ := e
    unfold tset
    by_cases hk : k = j
    · simp [hk, tset]
    · by_cases hl : k < j
      · simp [hk, hl, tset]
      · simp [hk, hl, tset, ih]

theorem modNode_modNode (n : Nat) (f g : VNode → VNode) (s : State) : modNode n g (modNode n f s) = modNode n (fun v => g (f v)) s := by
  simp only [modNode, tmod, tget_tset_self, tset_tset]

theorem nodeOf_modNode (n : Nat) (f : VNode → VNode) (s : State) : nodeOf (modNode n f s) n = f (nodeOf s n) :=
  tget_tmod_self ..

section
variable {n port : Nat} {f : Flit} {s : State} (hup : nodeUp s n = true)
include hup

/-- A flit of classes 0 to 3 at a node in service goes on its way (R28). -/
theorem veinFlitAt_passes (hc : f.cls < 4) (hp : port ≤ 4) (hd : f.dst < 100) (hr : (port, f) ∉ (nodeOf s n).resent) :
    veinFlitAt n port f s = passFlit n f s := by
  have h4 : f.cls ≠ 4 := by omega
  have hg : ¬ (4 < f.cls ∨ 4 < port ∨ 100 ≤ f.dst) := by omega
  simp only [veinFlitAt, hup, hr, h4, if_false, false_and, Bool.not_true, Bool.false_eq_true]
  rw [if_neg (by simpa [or_assoc] using hg)]

/-- R377: the head of a trace packet that does not fit its input's buffer. -/
theorem veinFlitAt_drops (hc : f.cls = 4) (hp : port = 4) (hd : f.dst < 100) (hne : f.dst ≠ n) (hh : f.head = true)
    (hr : (port, f) ∉ (nodeOf s n).resent) (hfull : 512 < tget 0 (nodeOf s n).bufs port + f.len) :
    veinFlitAt n port f s = countDrop n f (modNode n (fun v => { v with dropping := insertOnce v.dropping port }) s) := by
  subst hp
  have hno : ¬ tget 0 (nodeOf s n).bufs 4 + f.len ≤ traceBufFlits := by simp only [traceBufFlits]; omega
  have hg : ¬ (100 ≤ f.dst) := by omega
  simp [veinFlitAt, hup, hr, hc, hne, hg, neighbour, dropFlit, hh, hno]

end

/-- Settles O47: a flit goes by `passFlit`; a trace packet without room and a refused flit by the branch of their handler. -/
theorem veinEvents : Obligations.VeinEvents := by
  intro n port f s hup
  refine ⟨fun hc hp hd hr => ⟨fun ht => ?_, fun i vc ht hroute => ?_, fun ht hroute => ?_⟩, fun hc hp hd ht hh hr hfull => ?_,
    fun m i hm hl hport hrefused => ⟨fun hr => ?_, fun hr => ?_⟩⟩
  · show nextOf s (veinFlitAt n port f s) = _
    rw [veinFlitAt_passes hup hc hp hd hr, passFlit, if_pos ht]
    rfl
  · show nextOf s (veinFlitAt n port f s) = _
    rw [veinFlitAt_passes hup hc hp hd hr, passFlit, if_neg ht, hroute]
    rfl
  · show nextOf s (veinFlitAt n port f s) = _
    rw [veinFlitAt_passes hup hc hp hd hr, passFlit, if_neg ht, hroute]
    rfl
  · show nextOf s (veinFlitAt n port f s) = _
    rw [veinFlitAt_drops hup hc hp hd ht hh hr hfull, countDrop, modNode_modNode]
    rfl
  · show nextOf s (flitRefusedAt n port f s) = _
    simp only [flitRefusedAt, hm, hup, hl, hrefused, nodeOf_modNode, hr, hport]
    rfl
  · show nextOf s (flitRefusedAt n port f s) = _
    simp only [flitRefusedAt, hm, hup, hl, hrefused, nodeOf_modNode, hr]
    rfl

end Sys2Proof.Proofs.Veins
end

section
/-! PROOFS. Resets and recovery (R23, R57, R69, R270, R277, R281 to R285, R295, R296). -/

namespace Sys2Proof.Proofs.Resets
open Sys2Proof Sys2Proof.Machine

/-! ### Inputs of a warden (R69) -/

section
variable {p : Nat} {s : State}

theorem onAlive_stopped (ha : (war s p).alive = false) (f : State → State) : onAlive p f s = s := if_neg (by simp [ha])

theorem onAlive_alive (ha : (war s p).alive = true) (f : State → State) : onAlive p f s = f s := if_pos ha

/-- An input that a live warden takes, in the answer of its row. -/
theorem nextOf_onAlive (ha : (war s p).alive = true) {f : State → State} {t : State} (hf : f s = t) :
    nextOf s (onAlive p f s) = .next (ended s t) := by
  rw [onAlive_alive ha, hf]
  rfl

theorem nextOf_onAlive_stopped (ha : (war s p).alive = false) (f : State → State) : nextOf s (onAlive p f s) = .next (ended s s) := by
  rw [onAlive_stopped ha]
  rfl

end

/-! ### Fence and drain (R277) -/

section
variable {p m : Nat} {s : State}

/-- The registers of a channel as its fence is raised. -/
def fenceChan (k : Chan) : Chan :=
  { k with fenceReq := true, fenceAck := false, drainErr := false, drain := 1, stuck := 0, ready := false }

theorem quiesceEnd_eq (hq : (resetOf s p).quiesce = true) : quiesceEnd p s = modW p (fun w =>
    { w with ch0 := fenceChan w.ch0, ch1 := fenceChan w.ch1, lnkFence := true, reset := { w.reset with quiesce := false } }) s := by
  simp only [quiesceEnd, hq]
  rfl

theorem memoryFenceAckAt_drain (hm : m < 2) (hf : (chanOf s (2 * p + m)).fenceReq = true) (hd : (chanOf s (2 * p + m)).drain = 1) :
    memoryFenceAckAt p m s = modChan (2 * p + m) (fun k => { k with fenceAck := true, drain := 2 }) s := by
  simp only [memoryFenceAckAt, hf, hd, if_true]
  rw [if_neg (by simp; omega)]

theorem memoryFenceAckAt_ready (hm : m < 2) (hf : (chanOf s (2 * p + m)).fenceReq = true) (hd : (chanOf s (2 * p + m)).drain ≠ 1)
    (hs : (resetOf s p).step = 3) (hr : (chanOf s (2 * p + m)).ready = false) :
    memoryFenceAckAt p m s = step3Check p (modChan (2 * p + m) (fun k => { k with fenceAck := true, ready := true }) s) := by
  simp only [memoryFenceAckAt, hf, hd, hs, hr]
  rw [if_neg (by simp; omega), if_neg (by simp), if_pos (by simp)]

theorem memoryDrainedAt_eq (hm : m < 2) (hf : (chanOf s (2 * p + m)).fenceReq = true) :
    memoryDrainedAt p m s =
      let u := modChan (2 * p + m) (fun k => { k with drained := true }) s
      if (chanOf s (2 * p + m)).drain = 2 ∨ (chanOf s (2 * p + m)).drain = 3 then endDrain p m 0 u else u := by
  simp only [memoryDrainedAt, hf]
  rw [if_neg (by simp; omega)]

/-! ### The order of a reset (R270) -/

/-- The channels of a partition hold no reset state. -/
theorem reset_modChan (ch : Nat) (f : Chan → Chan) (s : State) (q : Nat) : (war (modChan ch f s) q).reset = (war s q).reset := by
  by_cases hq : q = ch / 2
  · rw [hq, modChan, war_modW]
    split <;> rfl
  · rw [modChan, war_modW_ne hq]

theorem reset_clearKeys (p : Nat) (s : State) (q : Nat) : (war (clearKeys p s) q).reset = (war s q).reset := by
  simp only [clearKeys, forEach, List.foldl_cons, List.foldl_nil, reset_modChan]

theorem orderReset_orders (p : Nat) (s : State) :
    (∃ sl, Out.rst p sl 0x1F ∈ (orderReset p s).outs) ∧ (war (orderReset p s) p).reset.step = 2 := by
  constructor
  · exact ⟨_, List.mem_cons_self ..⟩
  · show (war (clearKeys p (modW p _ s)) p).reset.step = 2
    rw [reset_clearKeys, war_modW]

end

/-! ### The failure of a recovery (R285) -/

theorem recoveryFailAt_fails {p : Nat} {s : State} (h : (resetOf s p).step ≠ 0 ∨ (resetOf s p).done ≠ none) (hw : (resetOf s p).wafer = false)
    (hh : (resetOf s p).holdReset = false) (hf : (resetOf s p).failDue = none) (hc : (resetOf s p).step ≠ 6 ∨ s.cairn.state = 0) :
    recoveryFailAt p s = recoveryFail p s := by
  have hw' : (war s p).reset.wafer = false := hw
  have hh' : (war s p).reset.holdReset = false := hh
  have hf' : (war s p).reset.failDue = none := hf
  have hgo : ¬ ((war s p).reset.step = 0 ∧ (war s p).reset.done.isNone = true) := by
    rw [Option.isNone_iff_eq_none]
    exact Classical.not_and_iff_not_or_not.2 h
  have hheld : (decide ((war s p).reset.step = 6) && decide (s.cairn.state ≠ 0)) = false := by
    rcases hc with hc | hc
    · simp [show (war s p).reset.step ≠ 6 from hc]
    · simp [hc]
  simp only [recoveryFailAt, hw', hh', hf', hheld, Bool.false_and]
  exact if_neg (by simpa using hgo)

/-- A change of a warden's reset is told by what it makes of the reset as it stands. -/
theorem modReset_congr {p : Nat} {s : State} {f g : Reset → Reset} (h : f (resetOf s p) = g (resetOf s p)) : modReset p f s = modReset p g s := by
  have h' : f (tget {} s.wardens p).reset = g (tget {} s.wardens p).reset := h
  simp only [modReset, modW, tmod, h']

theorem stepNow_eq {r : Reset} (hf : r.failDue = none) : stepNow r = if r.done.isSome then 6 else r.step := by
  rw [stepNow, hf]
  rfl

/-- Settles O48: each stage is one branch of its handler, at a live warden; the failures go through `recoveryFail` and `failWarden`. -/
theorem resetEvents : Obligations.ResetEvents := by
  intro p m s hm
  refine ⟨fun ha site i hi => ?_, fun ha => ⟨fun hq => ?_, fun hf hd => ?_, fun hf hd hs hr => ?_, fun hd => ?_, fun hf => ⟨fun hd => ?_, fun h2 h3 => ?_⟩,
    fun hd => ?_, fun hd => ?_, fun ht => ⟨?_, ?_⟩, fun hs => ?_⟩, fun hd => ?_, fun hr hw hh hf hc => ⟨fun hs => ?_, fun hs => ?_⟩,
    fun ha hl hlap hh => ?_, fun cause hf hs => ?_⟩
  · simp only [List.mem_cons, List.not_mem_nil, or_false] at hi
    rcases hi with rfl | rfl | rfl | rfl | rfl | rfl | rfl | rfl <;> exact nextOf_onAlive_stopped ha _
  · refine ⟨_, nextOf_onAlive ha (quiesceEnd_eq hq), ?_⟩
    rw [war_ended, war_modW]
    exact ⟨rfl, rfl, rfl, rfl, rfl, rfl, rfl, fun r hr => (war_ended ..).trans (war_modW_ne hr _ _)⟩
  · exact nextOf_onAlive ha (memoryFenceAckAt_drain hm hf hd)
  · exact nextOf_onAlive ha (memoryFenceAckAt_ready hm hf hd hs hr)
  · exact nextOf_onAlive ha (if_pos ⟨hm, hd⟩)
  · exact nextOf_onAlive ha ((memoryDrainedAt_eq hm hf).trans (if_pos hd))
  · exact nextOf_onAlive ha ((memoryDrainedAt_eq hm hf).trans (if_neg (not_or.2 ⟨h2, h3⟩)))
  · exact nextOf_onAlive ha (if_pos ⟨hm, hd⟩)
  · exact nextOf_onAlive ha (if_pos ⟨hm, hd⟩)
  · exact nextOf_onAlive ha (if_pos ht)
  · obtain ⟨⟨sl, hsl⟩, hstep⟩ := orderReset_orders p s
    exact ⟨sl, hsl, hstep⟩
  · refine nextOf_onAlive ha ?_
    show resetAckAt p 0x7FFF s = _
    rw [resetAckAt]
    exact (if_pos (.inl rfl)).trans (if_pos ⟨hs, rfl⟩)
  · exact congrArg (nextOf s) (if_pos hd)
  · show nextOf s (recoveryFailAt p s) = _
    rw [recoveryFailAt_fails hr hw hh hf hc]
    have hsome : (serving s).isNone = false := by
      cases hv : serving s with
      | none => exact absurd hv hs
      | some g => rfl
    simp only [recoveryFail, hsome, stepNow_eq hf, nextOf, Bool.false_eq_true, if_false]
    cases (resetOf s p).retry <;> simp only [Bool.not_true, Bool.not_false, Bool.false_eq_true, if_false, if_true]
  · show nextOf s (recoveryFailAt p s) = _
    rw [recoveryFailAt_fails hr hw hh hf hc]
    simp only [recoveryFail, hs, Option.isNone_none, if_true, nextOf]
    rw [modReset_congr (g := fun r => { r with failDue := some (if (resetOf s p).done.isSome then 6 else (resetOf s p).step) })]
    rw [stepNow_eq hf]
  · show nextOf s (holdExpiredAt p s) = _
    have hh' : (war s p).reset.holdReset = false := hh
    simp only [holdExpiredAt, ha, hl, hlap, hh']
    rfl
  · show nextOf s (failWarden p cause s) = _
    simp only [failWarden, hf, Option.isNone_eq_false_iff.2 hs, Bool.or_self, Bool.false_eq_true, if_false, nextOf]

end Sys2Proof.Proofs.Resets
end

section
/-! PROOFS. Bring-up, join and probation; links, banks, key loads and scrub orders (R57, R58, R222, R278, R304 to R314, R336, R350). -/

namespace Sys2Proof.Proofs.BringUp
open Sys2Proof Sys2Proof.Machine Sys2Proof.Proofs.Resets

/-! ### The self-test and the firmware -/

section
variable {p i : Nat} {s : State}

/-- A site with no entry has no entry of a state. -/
theorem defState?_of_no_entry {site : Nat} (h : hasEntry s site = false) : defState? s site = none := by
  simpa [hasEntry, defState?] using h

theorem selfTestDoneAt_engine (hs : (resetOf s p).step = 4) (hok : okSite s (engineSite p i) = true) (he : hasEntry s (engineSite p i) = false) :
    selfTestDoneAt p [i] [] s = enterFirmware p (withdrawEngine p i 3 (if (resetOf s p).bringup then 4 else 3) 4 s) := by
  simp [selfTestDoneAt, hs, hok, he, defState?_of_no_entry he, forEach]

theorem selfTestDoneAt_unknown (hs : (resetOf s p).step = 4) (hok : okSite s (engineSite p i) = false) :
    selfTestDoneAt p [i] [] s = enterFirmware p s := by
  simp [selfTestDoneAt, hs, hok, forEach]

theorem selfTestDoneAt_control (hs : (resetOf s p).step = 4) (hok : okSite s (unitSite p 4 i) = true) :
    selfTestDoneAt p [] [i] s = enterFirmware p (addEntry (unitSite p 4 i) 3 (if (resetOf s p).bringup then 4 else 3) 4 false s) := by
  simp [selfTestDoneAt, hs, hok, forEach]

theorem selfTestDoneAt_clean (hs : (resetOf s p).step = 4) : selfTestDoneAt p [] [] s = enterFirmware p s := by
  simp [selfTestDoneAt, hs, forEach]

end

/-! ### The join -/

/-- A channel of a partition whose fences open. -/
def openChan (k : Chan) : Chan :=
  { k with fenceReq := false, fenceAck := false, drained := false, ready := false, drain := 0, stuck := 0 }

theorem war_joinOpen (p : Nat) (fast : Bool) (s : State) : war (joinOpen p fast s) p = { war s p with
    ch0 := openChan (war s p).ch0, ch1 := openChan (war s p).ch1, lnkFence := false, probation := true, fastJoin := fast
    joinedAt := (war s p).timer, startOpen := !fast, startTested := 0, startQuar := 0, startNoRot := 0, cores := (war (joinOpen p fast s) p).cores
    reset := { (war s p).reset with level := none, step := 0, retry := false } } := by
  simp only [joinOpen, war_modW, openChan]

theorem readyToJoin_of {p : Nat} {s : State} (ha : (war s p).alive = true) (hs : (resetOf s p).step = 6) (hf : (resetOf s p).failDue = none)
    (hd : s.boot.device = 0) (hc : s.cairn.state = 0) (h0 : (war s p).ch0.keyQ = []) (h1 : (war s p).ch1.keyQ = [])
    (hr0 : (war s p).ch0.drained = true) (hr1 : (war s p).ch1.drained = true) : readyToJoin s p = true := by
  have hs' : (war s p).reset.step = 6 := hs
  have hf' : (war s p).reset.failDue = none := hf
  simp [readyToJoin, ha, hs', hf', hd, hc, h0, h1, hr0, hr1]

/-- Settles O49: each row is one branch of its handler, the join's frame that of `joinOpen`. -/
theorem bringUpEvents : Obligations.BringUpEvents := by
  intro p digest s
  refine ⟨fun ha => ⟨fun hs => ?_, fun i hs hok he => ?_, fun i hs hok => ?_, fun i hs hok => ?_, fun hs hf => ?_,
    fun hs hc => ⟨fun hd => ?_, fun hd hr => ?_, fun hd hr => ?_⟩⟩, fun l hg hb => ?_, fun hs ha hc => ?_,
    fun ha hs hf hd hc h0 h1 hr0 hr1 => ⟨fun hw => ?_, fun hb hw => ?_, ?_⟩, fun hp hst => ⟨fun hb => ?_, fun hb => ?_⟩⟩
  · exact nextOf_onAlive ha (selfTestDoneAt_clean hs)
  · exact nextOf_onAlive ha (selfTestDoneAt_engine hs hok he)
  · exact nextOf_onAlive ha (selfTestDoneAt_unknown hs hok)
  · exact nextOf_onAlive ha (selfTestDoneAt_control hs hok)
  · refine nextOf_onAlive ha ?_
    show resetAckAt p 0x7FBF s = _
    rw [resetAckAt]
    exact (if_neg (by decide)).trans ((if_pos rfl).trans (if_pos ⟨hs, hf, rfl⟩))
  · refine nextOf_onAlive ha ?_
    simp only [corefwDigestAt, hs, hc, ne_eq, not_true, Bool.not_true, Bool.false_eq_true, or_self, if_false, hd, if_true]
  · refine nextOf_onAlive ha ?_
    simp only [corefwDigestAt, hs, hc, ne_eq, not_true, Bool.not_true, Bool.false_eq_true, or_self, if_false, hd, hr]
  · refine nextOf_onAlive ha ?_
    simp only [corefwDigestAt, hs, hc, ne_eq, not_true, Bool.not_true, Bool.false_eq_true, or_self, if_false, hd, hr, if_true]
  · show nextOf s (corefwRequestAt s) = _
    simp only [corefwRequestAt, hg, hb, if_true, nextOf]
  · show nextOf s (corefwFailAt p s) = _
    simp only [corefwFailAt, hs, ha, hc, Bool.not_false, and_self, if_true, nextOf]
  · show nextOf s (partitionJoinAt p s) = _
    have hw' : (!mayBegin s || mapWaits s p) = true := by
      rcases hw with hw | hw <;> simp [hw]
    simp only [partitionJoinAt, readyToJoin_of ha hs hf hd hc h0 h1 hr0 hr1, Bool.not_true, Bool.false_eq_true, if_false, hw', if_true, nextOf]
  · show nextOf s (partitionJoinAt p s) = _
    simp only [partitionJoinAt, readyToJoin_of ha hs hf hd hc h0 h1 hr0 hr1, Bool.not_true, Bool.false_eq_true, if_false, hb, hw, Bool.or_self, nextOf]
  · have hu := war_joinOpen p ((resetOf s p).bringup && fastStart s) (joinMap p s)
    rw [hu]
    exact ⟨rfl, rfl, rfl, rfl, rfl, rfl, rfl, rfl, rfl, rfl⟩
  · show nextOf s (probationEndAt p s) = _
    simp only [probationEndAt, hp, hst, hb, Bool.not_false, Bool.and_self, if_true, nextOf]
  · show nextOf s (probationEndAt p s) = _
    simp only [probationEndAt, hp, hst, hb, Bool.not_false, Bool.and_self, if_true, Bool.false_eq_true, if_false, nextOf]

end Sys2Proof.Proofs.BringUp

namespace Sys2Proof.Proofs.Links
open Sys2Proof Sys2Proof.Machine Sys2Proof.Proofs.Resets

/-! ### Links (R58, R222, R307) -/

/-- A change of a link is told by what it makes of the link as it stands. -/
theorem modLink_congr {j : Nat} {s : State} {f g : Link → Link} (h : f (lnk s j) = g (lnk s j)) : modLink j f s = modLink j g s := by
  have h' : f (tget {} s.links j) = g (tget {} s.links j) := h
  simp only [modLink, tmod, h']

section
variable {j p l : Nat} {s : State}

theorem onLink_alive (hp : linkPlace s j = some (p, l)) (ha : (war s p).alive = true) (f : State → State) : onLink j f s = f s := by
  simp only [onLink, hp, onAlive_alive ha]

theorem onLink_stopped (hp : linkPlace s j = some (p, l)) (ha : (war s p).alive = false) (f : State → State) : onLink j f s = s := by
  simp only [onLink, hp, onAlive_stopped ha]

theorem nextOf_onLink (hp : linkPlace s j = some (p, l)) (ha : (war s p).alive = true) {f : State → State} {t : State} (hf : f s = t) :
    nextOf s (onLink j f s) = .next (ended s t) := by
  rw [onLink_alive hp ha, hf]
  rfl

/-- The training goes on for another attempt. -/
theorem linkAgain_train (hk : (lnk s j).attempts < 3) (hw : (lnk s j).why ≠ 2) :
    linkAgain j s = (true, drive (.train j (lnk s j).limit) (modLink j (fun k => { k with attempts := k.attempts + 1 }) s)) := by
  simp only [linkAgain, hk, hw, if_true, if_false]
  rw [modLink_congr (g := fun k => { k with attempts := k.attempts + 1 })]
  simp only [hw, if_false]

theorem linkAgain_retrain (hk : (lnk s j).attempts < 3) (hw : (lnk s j).why = 2) :
    linkAgain j s = (true, drive (.retrain j) (modLink j (fun k => { k with attempts := k.attempts + 1, retrains := k.retrains + 1 }) s)) := by
  simp only [linkAgain, hk, hw, if_true]
  rw [modLink_congr (g := fun k => { k with attempts := k.attempts + 1, retrains := k.retrains + 1 })]
  simp only [hw, if_true]

theorem linkAgain_out (hk : 3 ≤ (lnk s j).attempts) : linkAgain j s = (false, linkOut j 3 s) := if_neg (Nat.not_lt.2 hk)

/-- An attempt that failed, told of by its end or by its limit. -/
theorem linkTrainFails (hr : (lnk s j).trainReq = true) (lanes : BitVec 8) {b : Bool} {u : State} (h : linkAgain j s = (b, u)) :
    linkTrainDoneAt j 0 lanes s = (if b then u else trainDone j false u) ∧ linkTrainTimeoutAt j s = (if b then u else trainDone j false u) := by
  simp [linkTrainDoneAt, linkTrainTimeoutAt, hr, h]

end

/-! ### Channels -/

theorem channel_half {p m : Nat} (hm : m < 2) : (2 * p + m) / 2 = p := by omega

theorem channel_side {p m : Nat} (hm : m < 2) : (2 * p + m) % 2 = m := by omega

/-- The defect table stands as a bank's channel and its list change. -/
theorem defState?_chan (ch p site : Nat) (f : Chan → Chan) (g : Warden → Warden) (s : State) :
    defState? (modChan ch f (modW p g s)) site = defState? s site := rfl

/-- Settles O50: the link rows go through `linkAgain`, the others are one branch of their handler, at a live warden. -/
theorem linkAndMemoryEvents : Obligations.LinkAndMemoryEvents := by
  intro j p l m bank s
  refine ⟨fun ha width lanes err => ⟨fun hp => ⟨?_, ?_, ?_⟩, nextOf_onAlive_stopped ha _, nextOf_onAlive_stopped ha _, nextOf_onAlive_stopped ha _,
      nextOf_onAlive_stopped ha _, nextOf_onAlive_stopped ha _, nextOf_onAlive_stopped ha _⟩,
    fun hr hp ha width lanes => ⟨fun hw => ?_, fun hk hw => ?_, fun hk hw => ?_, fun hk => ?_⟩, fun hp ha hl hr hm => ?_,
    fun kind lane cnt hp ha hk h3 => ?_, fun ha => nextOf_onAlive ha rfl, fun ha hb => ?_, fun b ha hb => ?_, fun ha hb hen hon => ?_,
    fun page hm hb hpage hh => ?_, fun ha hm c tag op key rest hq hop hbeat => ?_, fun ha hm n cs hpass hn => ?_⟩
  · exact congrArg (nextOf s) (onLink_stopped hp ha _)
  · exact congrArg (nextOf s) (onLink_stopped hp ha _)
  · show nextOf s (linkDownAt j s) = _
    simp only [linkDownAt, hp, ha, Bool.not_false, Bool.true_or, if_true, nextOf]
  · refine nextOf_onLink hp ha ?_
    simp only [linkTrainDoneAt, hr, hw, Bool.not_true, Bool.false_eq_true, ne_eq, not_false_eq_true, if_false, if_true]
  · obtain ⟨hdone, htimeout⟩ := linkTrainFails hr lanes (linkAgain_train hk hw)
    exact ⟨nextOf_onLink hp ha hdone, nextOf_onLink hp ha htimeout⟩
  · obtain ⟨hdone, htimeout⟩ := linkTrainFails hr lanes (linkAgain_retrain hk hw)
    exact ⟨nextOf_onLink hp ha hdone, nextOf_onLink hp ha htimeout⟩
  · obtain ⟨hdone, htimeout⟩ := linkTrainFails hr lanes (linkAgain_out hk)
    exact ⟨nextOf_onLink hp ha hdone, nextOf_onLink hp ha htimeout⟩
  · show nextOf s (linkDownAt j s) = _
    simp only [linkDownAt, hp, ha, hl, hr, hm, Bool.not_true, decide_false, Bool.or_self, Bool.false_eq_true, if_false, nextOf]
  · have h3' : kind.toNat ≠ 3 := fun h => h3 (BitVec.eq_of_toNat_eq h)
    have hk' : ¬ 4 < kind.toNat := by omega
    show nextOf s (linkErrorAt j kind.toNat lane.toNat cnt.toNat s) = _
    simp only [linkErrorAt, hp, ha, hk', h3', Bool.not_true, decide_false, Bool.or_self, Bool.false_eq_true, ne_eq, not_false_eq_true, if_false, if_true, nextOf]
  · refine nextOf_onAlive ha ?_
    simp only [bankIdleAt, hb, Bool.not_true, Bool.false_eq_true, if_false, defState?_chan]
    cases defState? s (bankSite p bank) with
    | none => rfl
    | some st =>
      by_cases h5 : st = 5
      · simp only [h5, if_true]
      · simp only [h5, if_false, Option.some.injEq]
  · refine nextOf_onAlive ha ?_
    simp only [bankOffWaitAt, hb]
  · refine nextOf_onAlive ha ?_
    rw [bankPowerOnAt]
    exact if_neg (by simp [hen, hon]; omega)
  · show nextOf s (if m < 2 ∧ bank < 64 ∧ page.toNat < 5505024 then memoryPoisonAt p (64 * m + bank) s else s) = _
    have hb' : ¬ 128 ≤ 64 * m + bank := by omega
    rw [if_pos ⟨hm, hb, hpage⟩]
    simp only [memoryPoisonAt, hh, hb', Bool.not_true, decide_false, Bool.or_self, Bool.false_eq_true, if_false, nextOf]
  · refine nextOf_onAlive ha ?_
    simp only [keyLoadAckAt, hm, if_true, keyLoadAckOps, hq, hop, hbeat, ne_eq, not_false_eq_true, and_self]
  · refine nextOf_onAlive ha ?_
    simp only [scrubOrderDoneAt, hpass, Option.isNone_some, Bool.false_eq_true, or_false, scrubDoneOps, hn, if_true, channel_half hm, channel_side hm]
    exact if_neg (by omega)

end Sys2Proof.Proofs.Links
end

section
/-! PROOFS. The sentry map: decisions, batches, acknowledgements, the table's commit, governor values (R24, R49, R51, R121, R216, R227 to R229). -/

namespace Sys2Proof.Proofs.Sentry
open Sys2Proof Sys2Proof.Machine

/-! ### The oldest message in flight -/

/-- The first message in flight that a selector admits is the one it takes, where that stands at the front. -/
theorem takeMsg_head {α : Type} {f : Msg → Option α} {s : State} {m : Msg} {rest : List Msg} {a : α} (hn : s.net = m :: rest) (hf : f m = some a) :
    takeMsg f s = some (a, { s with net := rest }) := by
  have hfind : s.net.find? (fun m => (f m).isSome) = some m := by
    rw [hn, List.find?_cons_of_pos]
    rw [hf]
    rfl
  rw [takeMsg, hfind]
  simp only [hf, Option.map_some, recv, hn, List.erase_cons_head]

/-! ### What pushes and pin updates leave alone -/

theorem war_drive (o : Out) (s : State) (p : Nat) : war (drive o s) p = war s p := rfl

theorem war_send (m : Msg) (s : State) (p : Nat) : war (send m s) p = war s p := rfl

theorem war_forEach {α : Type} {f : α → State → State} {q : Nat} (h : ∀ a s, war (f a s) q = war s q) (l : List α) (s : State) :
    war (forEach l f s) q = war s q := by
  induction l generalizing s with
  | nil => rfl
  | cons a r ih => exact (ih (f a s)).trans (h a s)

theorem war_pushDiff (p : Nat) (old new : Tab Nat) (l : List Nat) (s : State) (q : Nat) : war (pushDiff p old new l s) q = war s q := by
  unfold pushDiff
  refine war_forEach (fun src s => ?_) l s
  split <;> rfl

theorem war_pushAll (p : Nat) (s : State) (q : Nat) : war (pushAll p s) q = war s q := by
  unfold pushAll
  exact war_forEach (fun _ _ => war_drive ..) _ _

/-- The pins of a warden whose map is in force: the fields of the partitions in a list, from its map. -/
def pmapOf (w : Warden) (qs : List Nat) : BitVec 196 := if w.valid then qs.foldl (pmapField (mapNow w)) w.pmap else w.pmap

/-- The fields of snt_pmap that follow a change of some sites. -/
def pmapParts (first : Bool) (sites : List Nat) : List Nat :=
  if first then parts else ((sites.filter isPartSite).map sitePart).filter (fun q => decide (q < 98))

theorem drivePmap_eq (p : Nat) (first : Bool) (sites : List Nat) (s : State) :
    drivePmap p first sites s = if pmapOf (war s p) (pmapParts first sites) = (war s p).pmap then s
      else drive (.pmap p (pmapOf (war s p) (pmapParts first sites)))
        (modW p (fun w => { w with pmap := pmapOf (war s p) (pmapParts first sites) }) s) := rfl

theorem war_drivePmap (p : Nat) (first : Bool) (sites : List Nat) (s : State) :
    war (drivePmap p first sites s) p = { war s p with pmap := pmapOf (war s p) (pmapParts first sites) } := by
  rw [drivePmap_eq]
  generalize pmapOf (war s p) (pmapParts first sites) = v
  split
  · next h => rw [h]
  · rw [war_drive, war_modW]

/-! ### Entries (R51, R227) -/

/-- A warden whose map holds another state of a site. -/
def putState (site st : Nat) (w : Warden) : Warden :=
  { w with map0 := mapPut w.map0 site st, map1 := mapPut w.map1 site st, sticky := w.sticky.filter (· ≠ siteKey site) }

theorem mapNow_putState (site st : Nat) (w : Warden) : mapNow (putState site st w) = mapPut (mapNow w) site st := by
  unfold mapNow putState
  split <;> rfl

theorem war_setEntry (p site st : Nat) (s : State) :
    war (setEntry p site st s) p = { putState site st (war s p) with
      pmap := pmapOf (putState site st (war s p)) (pmapParts false [site]) } := by
  have hd := war_drivePmap p false [site] (modW p (putState site st) s)
  rw [war_modW] at hd
  have hs : war (setEntry p site st s) p = war (drivePmap p false [site] (modW p (putState site st) s)) p := by
    unfold setEntry
    simp only
    split
    · exact war_pushDiff ..
    · rfl
  exact hs.trans hd

/-- R51: a partition's field of snt_pmap follows its entry. -/
theorem pmap_setEntry {p site : Nat} {s : State} (hv : (war s p).valid = true) (hs : isPartSite site = true) (hp : sitePart site < 98) (st : Nat) :
    (war (setEntry p site st s) p).pmap = pmapField (mapPut (mapNow (war s p)) site st) (war s p).pmap (sitePart site) := by
  have hv' : (putState site st (war s p)).valid = true := hv
  rw [war_setEntry]
  simp only [pmapParts, Bool.false_eq_true, if_false, List.filter_cons, hs, if_true, List.filter_nil, List.map_cons, List.map_nil, hp, decide_true, pmapOf, hv', List.foldl_cons,
    List.foldl_nil, mapNow_putState]
  rfl

/-! ### Batches (R49, R227) -/

/-- The map that a batch makes: its entries but those that the warden fenced itself. -/
def batchMap (es : List (Nat × Nat)) (w : Warden) : Tab Nat :=
  es.foldl (fun m e => if e.1 ∈ w.sticky then m else mapPut m e.1 e.2) (mapNow w)

/-- A warden after its switch: both generations hold the new map. -/
def switchTo (new : Tab Nat) (w : Warden) : Warden :=
  { w with map0 := new, map1 := new, gen := !w.gen, valid := true, batch := none, sticky := [] }

theorem switchBatch_eq {p : Nat} {s : State} {es : List (Nat × Nat)} (hb : (war s p).batch = some es) (all : Bool) : ∃ srcs,
    switchBatch p all s = send (.switched p true es)
      (if (all || !(war s p).valid) = true
        then pushAll p (drivePmap p (!(war s p).valid) (es.map (·.1)) (modW p (fun w => switchTo (batchMap es (war s p)) w) s))
        else pushDiff p (mapNow (war s p)) (batchMap es (war s p)) srcs
          (drivePmap p (!(war s p).valid) (es.map (·.1)) (modW p (fun w => switchTo (batchMap es (war s p)) w) s))) := by
  refine ⟨sortNat ((es.flatMap (fun e => pushSrcs e.1)).eraseDups), ?_⟩
  simp only [switchBatch, hb, batchMap, switchTo]

theorem war_switchBatch {p : Nat} {s : State} {es : List (Nat × Nat)} (hb : (war s p).batch = some es) (all : Bool) :
    ∃ v, war (switchBatch p all s) p = { switchTo (batchMap es (war s p)) (war s p) with pmap := v } := by
  have hd := war_drivePmap p (!(war s p).valid) (es.map (·.1)) (modW p (fun w => switchTo (batchMap es (war s p)) w) s)
  rw [war_modW] at hd
  obtain ⟨srcs, h⟩ := switchBatch_eq hb all
  refine ⟨_, Eq.trans ?_ hd⟩
  rw [h, war_send]
  generalize drivePmap p (!(war s p).valid) (es.map (·.1)) (modW p (fun w => switchTo (batchMap es (war s p)) w) s) = u
  split
  · exact war_pushAll p u p
  · exact war_pushDiff p _ _ srcs u p

/-! ### The table's commit (R216) -/

theorem defects_nvWrite (r : Nat) (s : State) : (nvWrite r s).defects = s.defects := by
  unfold nvWrite markStale addStale
  split
  · split
    · exact modHub_defects ..
    · rfl
  · rfl

/-- What a decision on an entry makes of the state, once its message is taken and heard (R227, R228). -/
def updateEffect (p site st : Nat) (u : State) : State :=
  let s2 :=
    if resetKeeps u p site then
      if isCoreSite site then modCore p (siteSrc site) (fun c => { c with before := some st }) u else u
    else setEntry p site st u
  let s3 := send (.switched p false [(siteKey site, st)]) s2
  let s4 := if isCoreSite site && decide (st = stQuarantined) then judgeAll s3 else s3
  if isCoreSite site && decide (st = stSpare) && decide ((cluOf s4 p (siteCluster site)).rot = 6) && !isShort s4 p (siteCluster site)
  then makeReady p (siteCluster site) s4 else s4

theorem sentryUpdateAt_takes {p site st : Nat} {s : State} {rest : List Msg} (hn : s.net = .sentry p site st :: rest)
    (ha : (war s p).alive = true) : sentryUpdateAt p site s =
      if (war s p).lease = none ∧ st ≠ stFenced then s else updateEffect p site st { s with net := rest } := by
  have ha' : (war { s with net := rest } p).alive = true := ha
  rw [sentryUpdateAt, takeMsg_head (a := st) hn (if_pos ⟨rfl, rfl⟩)]
  simp only [ha', Bool.not_true, Bool.false_eq_true, if_false]
  by_cases hc : (war s p).lease = none ∧ st ≠ stFenced
  · rw [if_pos hc, if_pos]
    exact Bool.and_eq_true_iff.2 ⟨Option.isNone_iff_eq_none.2 hc.1, decide_eq_true hc.2⟩
  · rw [if_neg hc, if_neg]
    · rfl
    · intro h
      obtain ⟨hl, hst⟩ := Bool.and_eq_true_iff.1 h
      exact hc ⟨Option.isNone_iff_eq_none.1 hl, of_decide_eq_true hst⟩

/-- Settles O53: an update, a batch and an acknowledgement take the oldest message and are one branch of their handler; the maps are those of
`war_setEntry` and `war_switchBatch`. -/
theorem sentryEvents : Obligations.SentryEvents := by
  intro p c site s rest
  refine ⟨fun st hn ha hl hst => ?_, fun st hn ha hl => ⟨fun hk hs => ?_, fun hk hcs hs => ?_⟩, fun st hv hs hp => pmap_setEntry hv hs hp st,
    fun st => ⟨fun hl => ?_, fun hl => ?_⟩, fun es hb ha => ⟨fun hl => ?_, fun hl => ?_, rfl, ?_⟩, fun b es hn hs => ?_, fun hs hd => ?_, fun n hn => ?_⟩
  · show nextOf s (joinEnds (sentryUpdateAt p site.toNat s)) = _
    rw [sentryUpdateAt_takes hn ha, if_pos ⟨hl, hst⟩]
    rfl
  · have hready : (isCoreSite site.toNat && decide (st = stSpare)) = false := by
      rcases hs with hs | hs <;> simp [hs]
    show nextOf s (joinEnds (sentryUpdateAt p site.toNat s)) = _
    rw [sentryUpdateAt_takes hn ha, if_neg fun h => hl.elim (fun hl => hl h.1) h.2]
    have hk' : resetKeeps { s with net := rest } p site.toNat = false := hk
    simp only [updateEffect, hk', hready, Bool.false_and, Bool.false_eq_true, if_false, nextOf]
  · show nextOf s (joinEnds (sentryUpdateAt p site.toNat s)) = _
    rw [sentryUpdateAt_takes hn ha, if_neg fun h => hl.elim (fun hl => hl h.1) h.2]
    have hk' : resetKeeps { s with net := rest } p site.toNat = true := hk
    simp only [updateEffect, hk', hcs, hs, decide_false, Bool.and_false, Bool.false_and, Bool.false_eq_true, if_false, if_true, nextOf]
  · simp only [ownEntry, Option.isNone_iff_eq_none, hl, if_false]
  · have hw := war_modW p (fun w => { w with entryDue := w.entryDue ++ [(site.toNat, st)] }) s
    rw [ownEntry, if_pos (Option.isNone_iff_eq_none.2 hl), hw]
    exact ⟨rfl, rfl, rfl⟩
  · show nextOf s (joinEnds (sentryBatchAt p s)) = _
    have hl' : (war s p).lease.isNone = false := by
      cases h : (war s p).lease with
      | none => exact absurd h hl
      | some g => rfl
    simp only [sentryBatchAt, ha, hl', hb, Option.isNone_some, Bool.not_true, Bool.or_self, Bool.false_eq_true, if_false, nextOf]
  · show nextOf s (joinEnds (sentryBatchAt p s)) = _
    rw [sentryBatchAt, if_pos (by simp [hl])]
    rfl
  · obtain ⟨v, hv⟩ := war_switchBatch hb false
    rw [hv]
    refine ⟨rfl, rfl, rfl, rfl, fun x st hes hx => ?_⟩
    rw [hes]
    exact if_neg hx
  · show nextOf s (joinsGoOn p (switchAckAt p s)) = _
    have hs' : (serving s).isNone = false := by simpa using hs
    rw [switchAckAt, takeMsg_head (a := (b, es)) hn (if_pos rfl)]
    simp only [hs', Bool.false_eq_true, if_false, nextOf]
  · refine ⟨ended s (commitDefects s), congrArg (nextOf s) (if_pos hs), ?_⟩
    have h : (commitDefects s).defects = { s.defects with
        committed := s.defects.tab, gen := !s.defects.gen, dirty := false, commits := s.defects.commits + 1 } := by
      rw [commitDefects, if_pos hd]
      exact defects_nvWrite _ _
    have h' : (ended s (commitDefects s)).defects = _ := h
    rw [h']
    exact ⟨rfl, rfl, rfl, rfl, rfl⟩
  · refine ⟨ended s (fractionUpdateAt p c s), rfl, ?_⟩
    rw [fractionUpdateAt, takeMsg_head (a := n) hn (if_pos ⟨rfl, rfl⟩)]
    simp only [war_ended, war_modW]
    refine ⟨tfind_tset_self .., ?_, rfl⟩
    cases hp : inProbation s p c with
    | true => simp [Mirrors.mem_insertOnce]
    | false => simp

end Sys2Proof.Proofs.Sentry
end

section
/-! PROOFS. Certificates, shadows, loss strobes, engine records and poison notices at their warden (R53, R106 to R117, R127 to R133). -/

namespace Sys2Proof.Proofs.Screens
open Sys2Proof Sys2Proof.Machine

/-! ### What a report's tally, marks and events leave alone -/

/-- What a warden reads of itself as it judges a report: failures and triages that wait, shadows under way, its marking, its cores and its map. -/
def judging (w : Warden) : (List First × List Triage × List Triage × List Pend) × Bool × Tab Core × Tab Nat × Tab Nat × Bool :=
  ((w.firsts, w.triages, w.triWait, w.pend), w.droop.marking, w.cores, w.map0, w.map1, w.gen)

section
variable (p e : Nat) (s : State)

theorem judging_openTally : judging (war (openTally p e s) p) = judging (war s p) := by
  unfold openTally
  simp only
  split
  · rfl
  · split
    · rw [war_modW]
      rfl
    · rfl

theorem judging_modTally (f : Tally → Tally) : judging (war (modTally p e f s) p) = judging (war s p) := by
  rw [modTally, war_modW]
  rfl

theorem judging_markTile : judging (war (markTile p s) p) = judging (war s p) := by
  unfold markTile
  split
  · rw [war_modW]
    rfl
  · rfl

theorem judging_raiseW (ev : Ev) : judging (war (raiseW p ev s) p) = judging (war s p) := by
  rw [raiseW, war_modW]
  split <;> rfl

theorem judging_sendFailure (tri : Option Nat) (inp : Bool) : judging (war (sendFailure p e tri inp s) p) = judging (war s p) := by
  unfold sendFailure
  simp only
  split
  · rfl
  · split <;> rfl

theorem judging_failTally (k : BitVec 8) (site : Nat) : judging (war (failTally p e k site s) p) = judging (war s p) := by
  rw [failTally, judging_sendFailure, judging_modTally]

theorem judging_engEvent (idx : Nat) (r : BitVec 128) : judging (war (engEvent p idx e r s) p) = judging (war s p) := by
  unfold engEvent
  simp only
  split <;> exact judging_raiseW ..

theorem judging_atVerdict (src : Nat) : judging (war (atVerdict p src e s) p) = judging (war s p) := by
  rw [atVerdict, judging_markTile, outUp, judging_modTally, noteCore, judging_modTally, judging_openTally]

theorem defects_openTally : (openTally p e s).defects = s.defects := by
  unfold openTally
  simp only
  split
  · rfl
  · split <;> rfl

/-- A core is withdrawn by the table and its warden's map, which a tally changes no entry of (R220). -/
theorem isWithdrawn_openTally (src : Nat) : isWithdrawn (openTally p e s) p src = isWithdrawn s p src := by
  have hj := judging_openTally p e s
  have hcores := congrArg (·.2.2.1) hj
  have hmap0 := congrArg (·.2.2.2.1) hj
  have hmap1 := congrArg (·.2.2.2.2.1) hj
  have hgen := congrArg (·.2.2.2.2.2) hj
  simp only [judging] at hcores hmap0 hmap1 hgen
  have hst : coreState (openTally p e s) p src = coreState s p src := by simp only [coreState, heldState, mapNow, hmap0, hmap1, hgen]
  have hb : beneath (openTally p e s) p src = beneath s p src := by simp only [beneath, hst, hcores]
  have he : hasEntry (openTally p e s) (coreSite p src) = hasEntry s (coreSite p src) := by simp only [hasEntry, defFind, defects_openTally]
  simp only [isWithdrawn, coreGone, he, hb]

theorem tileHolder_openTally (e' tid : Nat) : tileHolder (war (openTally p e s) p) e' tid = tileHolder (war s p) e' tid := by
  have hj := judging_openTally p e s
  have htri := congrArg (·.1.2.1) hj
  have hwait := congrArg (·.1.2.2.1) hj
  have hpend := congrArg (·.1.2.2.2) hj
  simp only [judging] at htri hwait hpend
  simp only [tileHolder, htri, hwait, hpend]

end

section
variable {p : Nat} {s : State}

theorem firsts_of_judging {w w' : Warden} (h : judging w = judging w') : w.firsts = w'.firsts := congrArg (·.1.1) h

theorem triages_of_judging {w w' : Warden} (h : judging w = judging w') : w.triages = w'.triages := congrArg (·.1.2.1) h

theorem marking_of_judging {w w' : Warden} (h : judging w = judging w') : w.droop.marking = w'.droop.marking := congrArg (·.2.1) h

/-- With no failure of an execution before, a report settles none (Table 4.8). -/
theorem replayCheck_none (hf : (war s p).firsts = []) (e : Nat) (core : Bool) (id rslt data : Nat) (own : State → State) :
    replayCheck p e core id rslt data own s = (false, s) := by
  simp only [replayCheck, hf, List.find?_nil]

theorem withTally_open {e : Nat} (hf : tallyFull s p e = false) (f : State → State) : withTally p e f s = f (openTally p e s) :=
  if_neg (by simp [hf])

theorem withTally_full {e : Nat} (hf : tallyFull s p e = true) (f : State → State) : withTally p e f s = refuseTally p e s := if_pos hf

end

/-! ### Original certificates (Table 4.5, R107, R115, R117) -/

section
variable {p g src e : Nat} {c : BitVec 128} {s : State}

theorem originalAt_heard (h : originalHeard s p g src e c) : originalAt p g src e c s = settleReport p (judgeOriginal p src e c (openTally p e s)) := by
  obtain ⟨hh, hfull, hw, ht, -⟩ := h
  simp only [originalAt, hh, Bool.not_true, Bool.false_eq_true, if_false, withTally_open hfull, isWithdrawn_openTally, hw, tileHolder_openTally, ht]

theorem judgeOriginal_first (hf : (war s p).firsts = []) : judgeOriginal p src e c (openTally p e s) =
    match certVerdict c with
    | .poisoned => poisonEpoch p e (coreSite p src) (certTid c) 1 (atVerdict p src e s)
    | .metaFault =>
      noteFirst p { epoch := e, core := true, unit := src, id := certTid c, rslt := 4, data := 0, row := 1, attempt := attemptOf (war (atVerdict p src e s) p) e }
        (failTally p e fkCert (coreSite p src) (certEvent p src e c (certVerdict c) false (atVerdict p src e s)))
    | .unchecked => outDown p e (drawTile p src e c true (war s p).droop.marking (atVerdict p src e s))
    | .clean => outDown p e (drawTile p src e c false (war s p).droop.marking (atVerdict p src e s))
    | _ =>
      openTriage p { kind := 1, tid := certTid c, epoch := e, o := src, sigO := certSig c, o2 := { core := src }, check := certCheck (certVerdict c), dev := certDev c, cert := c }
        (failTriage p e (certTid c) fkCert (coreSite p src) (certEvent p src e c (certVerdict c) false (atVerdict p src e s))) := by
  have hu : markTile p (outUp p e (noteCore p e src (openTally p e s))) = atVerdict p src e s := rfl
  have hfirst : (war (atVerdict p src e s) p).firsts = [] := (firsts_of_judging (judging_atVerdict p e s src)).trans hf
  have hmark : (war (openTally p e s) p).droop.marking = (war s p).droop.marking := marking_of_judging (judging_openTally p e s)
  simp only [judgeOriginal, hu, replayCheck_none hfirst, ite_self, Bool.false_eq_true, if_false, hmark] <;> rfl

end

/-! ### Engine records (R111 to R113, R117) -/

section
variable {p idx e rows : Nat} {r : BitVec 128} {s : State}

theorem engineRecordAt_heard (h : recordHeard s p e r) (hok : okSite s (engineSite p idx) = true) :
    engineRecordAt p idx e r rows s = settleReport p (
      let site := engineSite p idx
      let u := outUp p e (openTally p e s)
      let failed := failTally p e fkCert site (engEvent p idx e r u)
      if engRslt r = 0 then outDown p e (engineRows p idx e r rows u)
      else if engRslt r = 7 then poisonEpoch p e site (engOpid r) 3 u
      else if isInvariant r then
        openTriage p { kind := 2, tid := engOpid r, epoch := e, o := idx, sigO := w64 (engData r),
                       o2 := { core := idx, ordered := false }, check := 4, dev := engDev r, cert := r, attempt := attemptOf (war failed p) e } failed
      else
        noteFirst p { epoch := e, core := false, unit := idx, id := engOpid r, rslt := engRslt r, data := engData r,
                      row := if engRslt r = 3 ∨ engRslt r = 4 then 1 else 0, attempt := attemptOf (war failed p) e } failed) := by
  obtain ⟨hh, hfull, hk0, hk6, hr7, hrsv, hf, ht⟩ := h
  have hj : judging (war (outUp p e (openTally p e s)) p) = judging (war s p) := by rw [outUp, judging_modTally, judging_openTally]
  have hfirst := (firsts_of_judging hj).trans hf
  have htri := (triages_of_judging hj).trans ht
  have hjf : judging (war (failTally p e fkCert (engineSite p idx) (engEvent p idx e r (outUp p e (openTally p e s)))) p) = judging (war s p) := by
    rw [judging_failTally, judging_engEvent, hj]
  have htriF := (triages_of_judging hjf).trans ht
  have hgood : ¬ (engKind r = 0 ∨ 6 < engKind r ∨ 7 < engRslt r ∨ r.extractLsb' 96 16 ≠ 0) := by
    rintro (h | h | h | h)
    · exact hk0 h
    · omega
    · omega
    · exact h hrsv
  have hrow : replayedRow p idx e r (outUp p e (openTally p e s)) = outUp p e (openTally p e s) := by
    simp only [replayedRow, htri, List.find?_nil]
  simp only [engineRecordAt, hh, hok, Bool.not_true, Bool.or_self, Bool.false_eq_true, if_false, withTally_open hfull, hgood,
    replayCheck_none hfirst, ite_self, hrow, htriF, List.any_nil]

end

/-- Settles O54: a report that is heard goes through `judgeOriginal_first`, `engineRecordAt_heard`, or one branch of its handler. -/
theorem screenEvents : Obligations.ScreenEvents := by
  intro p g rows src dst idx epoch tid c r s
  refine ⟨fun h => ?_, fun hh hfull => ?_, fun hh hw => ⟨fun x hx => ?_, fun hp ht => ?_⟩, fun x hx hag hhalt hun => ?_, fun hh hg hfull => ?_,
    fun h hok => ?_, fun hs hh hw hfull => ?_⟩
  · have hx : exec (.certificate p g src epoch c) s = .next (ended s (settleReport p (judgeOriginal p src.toNat epoch.toNat c (openTally p epoch.toNat s)))) :=
      congrArg (nextOf s) (originalAt_heard h)
    obtain ⟨-, -, -, -, hf⟩ := h
    rw [judgeOriginal_first hf] at hx
    refine ⟨fun hv => ?_, fun hv => ?_, fun hv => ?_, fun hv => ?_⟩
    · rcases hv with hv | hv <;> rw [hx, hv] <;> rfl
    · rw [hx, hv]
    · rw [hx, hv]
    · rcases hv with hv | hv | hv <;> rw [hx, hv]
  · show nextOf s (originalAt p g src.toNat epoch.toNat c s) = _
    simp only [originalAt, hh, Bool.not_true, Bool.false_eq_true, if_false, withTally_full hfull, nextOf]
  · show nextOf s (shadowAt p g src.toNat epoch.toNat c s) = _
    simp only [shadowAt, hh, hw, Bool.not_true, Bool.false_eq_true, if_false, hx, nextOf]
  · show nextOf s (shadowAt p g src.toNat epoch.toNat c s) = _
    simp only [shadowAt, hh, hw, Bool.not_true, Bool.false_eq_true, if_false, hp, List.find?_nil, triageFor, ht, nextOf]
  · show nextOf s (shadowTimeoutAt p dst.toNat tid.toNat epoch.toNat s) = _
    simp only [shadowTimeoutAt, isHalted, hhalt, hun, Option.isSome_none, Bool.or_self, Bool.false_eq_true, if_false, hx, hag, if_true, nextOf]
  · intro u hdue
    show nextOf s (certificateLossAt p g epoch.toNat s) = _
    have hg' : ¬ 20 ≤ g := by omega
    simp only [certificateLossAt, hh, hg', Bool.not_true, decide_false, Bool.or_self, Bool.false_eq_true, if_false, withTally_open hfull]
    rw [if_pos hdue]
    rfl
  · have hx : exec (.engineRecord p idx epoch r rows) s = _ := congrArg (nextOf s) (engineRecordAt_heard (rows := rows) h hok)
    refine ⟨fun h0 => ?_, fun h7 => ?_, fun h0 h7 hi => ?_, fun h0 h7 hi => ?_⟩
    · rw [hx]
      simp only [h0, if_true, nextOf]
    · rw [hx]
      simp only [h7, (by decide : ¬ (7 = 0)), if_false, if_true, nextOf]
    · rw [hx]
      simp only [h0, h7, hi, Bool.false_eq_true, if_false, nextOf]
    · rw [hx]
      simp only [h0, h7, hi, if_false, if_true, nextOf]
  · show nextOf s (poisonNoticeAt p src.toNat epoch.toNat s) = _
    simp only [poisonNoticeAt, hs, hh, Bool.and_self, Bool.not_true, Bool.false_eq_true, if_false, withTally_open hfull, isWithdrawn_openTally, hw, nextOf]

end Sys2Proof.Proofs.Screens
end

section
/-! PROOFS. Yields, swaps, offers, debts and the replay order (R191 to R199, R256 to R258, R266, R328, R471). -/

namespace Sys2Proof.Proofs.Rotations
open Sys2Proof Sys2Proof.Machine

/-! ### A yield and its swap -/

section
variable {s : State} {p src d : Nat} (hy : yieldHeard s p src d)
include hy

/-- A yield that is heard comes down to whose it is: a withdrawn core's, or the candidate's of an open offer. -/
theorem yieldNoticeAt_of_heard :
    yieldNoticeAt p src s =
      if isWithdrawn s p src then (if (cluOf s p (src / 32)).rot ≤ 1 then swapDue p (src / 32) (src % 32) d 2 s else s)
      else if (cluOf s p (src / 32)).rot = 1 ∧ ((cluOf s p (src / 32)).cand = some (src % 32) ∨ mayTake s p (src / 32) (src % 32)) then
        swapDue p (src / 32) (src % 32) d 0 s
      else s := by
  obtain ⟨hh, hm, hw, ht, hs, hd⟩ := hy
  have hslot : (slotOfPos s p (src / 32) (src % 32)).isNone = false := by simpa [Option.isNone_eq_false_iff, Option.isSome_iff_ne_none] using hs
  simp only [yieldNoticeAt, maySwap, hh, hm, hw, ht, hslot, hd, Option.isNone_none, Bool.and_self, Bool.not_true, Bool.or_self, Bool.false_eq_true, if_false]

theorem yieldNoticeAt_candidate (hwd : isWithdrawn s p src = false) (hr : (cluOf s p (src / 32)).rot = 1)
    (hc : (cluOf s p (src / 32)).cand = some (src % 32)) : yieldNoticeAt p src s = swapDue p (src / 32) (src % 32) d 0 s := by
  rw [yieldNoticeAt_of_heard hy, if_neg (by simp [hwd]), if_pos ⟨hr, .inl hc⟩]

theorem yieldNoticeAt_withdrawn (hwd : isWithdrawn s p src = true) (hr : (cluOf s p (src / 32)).rot ≤ 1) :
    yieldNoticeAt p src s = swapDue p (src / 32) (src % 32) d 2 s := by
  rw [yieldNoticeAt_of_heard hy, if_pos hwd, if_pos hr]

end

section
variable {s : State} {p c : Nat} (src dst why : Nat)

theorem swapDue_now (h : windowOpen (war s p) = false ∨ (cluOf s p c).holdOver = true) :
    swapDue p c src dst why s = swapRequest p c src dst why 0 s := by
  have hg : (windowOpen (war s p) && !(cluOf s p c).holdOver) = false := by
    cases h with
    | inl h => rw [h, Bool.false_and]
    | inr h => rw [h, Bool.not_true, Bool.and_false]
  rw [swapDue, if_neg (by simp [hg])]

theorem swapDue_held (hw : windowOpen (war s p) = true) (ho : (cluOf s p c).holdOver = false) :
    swapDue p c src dst why s = modW p (fun w => { w with heldW := insertOnce w.heldW (.swap c) }) s := by
  rw [swapDue, if_pos (by simp [hw, ho])]

end

/-! ### A swap's acknowledgement and failure -/

section
variable {s : State} {p : Nat} {sw : Swap} (hsw : (war s p).swap = some sw)
include hsw

theorem swapAckAt_test (hwhy : sw.why = 0) (hq : (coreOf (afterSwap p sw s) p (srcOf sw.cluster sw.src_)).quarSet = none)
    (hw : isWithdrawn (afterSwap p sw s) p (srcOf sw.cluster sw.src_) = false) :
    swapAckAt p s = replayAll p
      ((if mayBegin (afterSwap p sw s) then startTest p (srcOf sw.cluster sw.src_) 0 else keepDue (.test p (srcOf sw.cluster sw.src_)))
        (ownEntry p (coreSite p (srcOf sw.cluster sw.src_)) stTesting
          (modClu p sw.cluster (fun k => { k with rot := 3, cand := none }) (afterSwap p sw s)))) := by
  rw [afterSwap] at hq hw ⊢
  simp only [swapAckAt, hsw, hwhy, hq, hw, ne_eq, not_true_eq_false, if_false, Bool.false_eq_true]

theorem swapAckAt_short (hwhy : sw.why ≠ 0) :
    swapAckAt p s = replayAll p (modClu p sw.cluster (fun k => { k with rot := 6, cand := none }) (afterSwap p sw s)) := by
  rw [afterSwap]
  simp only [swapAckAt, hsw, ne_eq, hwhy, not_false_eq_true, if_true]

end

theorem swapFailAt_whole {s : State} {p : Nat} {sw : Swap} (hsw : (war s p).swap = some sw) (hh : (war s p).halt = none) (hwhy : sw.why ≠ 1)
    {v : State} (hv : modClu p sw.cluster (fun k => { k with rot := 6, cand := none }) (withdrawCore p (srcOf sw.cluster sw.dst) 0x3FF 6 7 4
      (raiseW p (evAt evSwapFail (clusterSite p sw.cluster) [(4, clusterSite p sw.cluster), (2, sw.src_), (2, sw.dst)])
        (modW p (fun w => { w with swap := none }) s))) = v)
    (hq : (coreOf v p (srcOf sw.cluster sw.src_)).quarSet = none) (hw : isWithdrawn v p (srcOf sw.cluster sw.src_) = false) :
    swapFailAt p s = replayAll p v := by
  simp only [swapFailAt, isHalted, hh, hsw, hv, hq, hw, hwhy, Option.isSome_none, Bool.false_eq_true, if_false]

/-! ### The timers of a cluster -/

section
variable {s : State} {p c : Nat}

theorem openOffer_of_candidate {d i : Nat} (hr : (cluOf s p c).rot = 0) (hd : spareOf s p c = some d) (hs : (serving s).isSome = true)
    (hi : candidateOf s p c = some i) :
    openOffer p c s =
      modClu p c (fun k => { k with rot := 1, cand := some i, offerAt := (war s p).timer, passed := false, late := false }) s := by
  have hn : (serving s).isNone = false := by rw [← Option.not_isSome, hs, Bool.not_true]
  simp only [openOffer, hr, hd, hn, hi, Option.isNone_some, ne_eq, not_true_eq_false, Bool.false_eq_true, or_self, if_false]

theorem rotationTimerAt_ready (hp : hearsPart s p = true) (hr : (cluOf s p c).rot = 0) :
    rotationTimerAt p c s = if mayBegin s then openOffer p c s else keepDue (.offer p c) s := by
  simp only [rotationTimerAt, hp, hr, decide_true, Bool.and_self, if_true]

theorem spareTestDueAt_ready {d : Nat} (hp : hearsPart s p = true) (hr : (cluOf s p c).rot = 0) (hd : spareOf s p c = some d) :
    spareTestDueAt p c s =
      if mayBegin s then startTest p (srcOf c d) 1 (modClu p c (fun k => { k with rot := 4 }) s) else keepDue (.spareTest p c) s := by
  simp only [spareTestDueAt, hp, hr, hd, decide_true, Bool.and_self, if_true]

theorem offerPassAt_open (hr : (cluOf s p c).rot = 1) (hh : (war s p).halt = none) :
    offerPassAt p c s = modClu p c (fun k => { k with passed := true }) s := by
  rw [offerPassAt, if_pos ⟨hr, by simp [isHalted, hh]⟩]

theorem yieldLateAt_open {i j b : Nat} (hr : (cluOf s p c).rot = 1) (hc : (cluOf s p c).cand = some i) (hl : (cluOf s p c).late = false)
    (hj : liveJob s p (srcOf c i) = some j) (hy : tfind s.test.yields j = some b) (hb : b ≠ 0xFFFFFFFF) (hh : (war s p).halt = none) :
    yieldLateAt p c s = raiseW p
      { evJob evYieldLate j 0 [(4, coreSite p (srcOf c i)), (2, j), (4, b), (8, 10 * ((war s p).timer - (cluOf s p c).offerAt))] with
        site := coreSite p (srcOf c i), tenant := tget 0 s.sync.jobs j }
      (modClu p c (fun k => { k with late := true }) s) := by
  simp only [yieldLateAt, hc, hr, hl, isHalted, hh, hj, hy, hb, Option.isSome_none, ne_eq, not_true_eq_false, Bool.false_eq_true, or_self, if_false]

theorem testDebtAt_idle {src : Nat} (hd : (cluOf s p (src / 32)).inDebt = false) (hc : src / 32 < 640) (hj : liveJob s p src = none) :
    testDebtAt p src s = raiseW p (evAt evTestDebt (clusterSite p (src / 32))
        [(4, clusterSite p (src / 32)), (4, f32n (clusterDebt s p (src / 32))), (2, 0)])
      (modClu p (src / 32) (fun k => { k with inDebt := true }) s) := by
  simp only [testDebtAt, hd, Nat.not_le.2 hc, hj, Bool.false_eq_true, or_self, if_false, Option.isSome_none, Option.getD_none, evAt]

end

/-! ### The replay order -/

theorem tfind_map_at {α : Type} (f : α → α) (t : Tab α) (k : Nat) :
    tfind (t.map (fun e => if e.1 = k then (e.1, f e.2) else e)) k = (tfind t k).map f := by
  induction t with
  | nil => rfl
  | cons e t ih =>
    obtain ⟨j, v⟩ := e
    by_cases h : j = k
    · simp [tfind, h]
    · simp [tfind, h, ih]

theorem tfind_objs_modLobj (p o : Nat) (f : LocalObj → LocalObj) (s : State) :
    tfind (war (modLobj p o f s) p).objs o = (tfind (war s p).objs o).map f := by
  rw [modLobj, war_modW]
  exact tfind_map_at f _ o

/-- While an object's replay stands and no slot it needs is vacated, the replay strobes. -/
theorem replayNext_of_whole {p o : Nat} {s : State} {l : LocalObj} {a : Nat} (hl : tfind (war s p).objs o = some l) (hr : l.replay = some a)
    (hv : vacatedSlot s p o = none) : replayNext p o s = replayStrobe p o s := by
  simp only [replayNext, hl, hr, hv, Option.bind_some]

section
variable {s : State} {p o e a : Nat} {l : LocalObj} {rest : List Msg} (hn : s.net = .replay p o e a :: rest)
  (hl : tfind (war s p).objs o = some l)
include hn hl

theorem replayOrderAt_new (he : l.epoch = e) (hf : l.state ≠ 4) (ha : l.acted < a) (hr : l.replay.getD 0 < a) :
    replayOrderAt p o s = replayNext p o (modW p (fun w => { w with pend := w.pend.filter (fun x => x.epoch ≠ e) })
      (modLobj p o (fun l => { l with replay := some a }) { s with net := rest })) := by
  have hl' : tfind (war { s with net := rest } p).objs o = some l := hl
  rw [replayOrderAt, Sentry.takeMsg_head (a := (e, a)) hn (if_pos ⟨rfl, rfl⟩)]
  simp only [hl', he, hf, Nat.not_le.2 ha, Nat.not_le.2 hr, ne_eq, not_true_eq_false, or_self, if_false]

end

/-- Settles O55: the answer of each row in the cases the statement names, by the lemmas above. -/
theorem rotationEvents : Obligations.RotationEvents := by
  intro p c d src obj s
  refine ⟨fun hy hw hr hc => ⟨fun h => ?_, fun h ho => ?_⟩, fun hy hw hr h => ?_, fun sw hsw => ⟨fun h0 hq hw => ?_, fun h0 => ?_, fun hq hw h1 hh => ?_⟩,
    fun hp hr => ?_, fun i hr hd hs hi => openOffer_of_candidate hr hd hs hi, fun hp hr hd => ?_, fun hr hh => ?_,
    fun i j b hr hc hl hj hy hb hh => ?_, fun hd hc hj => ?_, fun e a l rest hn hl he hf ha hr => ⟨?_, fun hv => ?_⟩⟩
  · exact congrArg (nextOf s) ((yieldNoticeAt_candidate hy hw hr hc).trans (swapDue_now _ _ _ h))
  · exact congrArg (nextOf s) ((yieldNoticeAt_candidate hy hw hr hc).trans (swapDue_held _ _ _ h ho))
  · exact congrArg (nextOf s) ((yieldNoticeAt_withdrawn hy hw hr).trans (swapDue_now _ _ _ h))
  · exact congrArg (nextOf s) (swapAckAt_test hsw h0 hq hw)
  · exact congrArg (nextOf s) (swapAckAt_short hsw h0)
  · exact congrArg (nextOf s) (swapFailAt_whole hsw hh h1 rfl hq hw)
  · exact congrArg (nextOf s) (rotationTimerAt_ready hp hr)
  · exact congrArg (nextOf s) (spareTestDueAt_ready hp hr hd)
  · exact congrArg (nextOf s) (offerPassAt_open hr hh)
  · exact congrArg (nextOf s) (yieldLateAt_open hr hc hl hj hy hb hh)
  · exact congrArg (nextOf s) (testDebtAt_idle hd hc hj)
  · exact congrArg (nextOf s) (replayOrderAt_new hn hl he hf ha hr)
  · refine replayNext_of_whole (l := { l with replay := some a }) (a := a) ?_ rfl hv
    rw [war_modW]
    exact (tfind_objs_modLobj ..).trans (congrArg (Option.map _) hl)

end Sys2Proof.Proofs.Rotations
end

section
/-! PROOFS. The directed phase, patterns on spares, and slices of a test (R187 to R190, R194, R207, R219, R472). -/

namespace Sys2Proof.Proofs.Tests
open Sys2Proof Sys2Proof.Machine

/-! ### The directed phase and pattern runs -/

section
variable {s : State} {p : Nat}

theorem directedPhaseStartAt_waiting {x : Nat} {rest : List Nat} (ha : (war s p).alive = true) (hd : (war s p).directed = none)
    (hw : (war s p).dirWait = x :: rest) :
    directedPhaseStartAt p s = loadPattern p x (modTest p x (fun t => { t with step := 4 })
      (modW p (fun w => { w with directed := some x, dirWait := rest }) s)) := by
  simp only [directedPhaseStartAt, ha, hd, hw, Bool.not_true, Option.isSome_none, Bool.or_self, Bool.false_eq_true, if_false]

theorem directedPhaseStartAt_confirm {x : Nat} {k : Core} (ha : (war s p).alive = true) (hd : (war s p).directed = none)
    (hw : (war s p).dirWait = []) (ho : (war s p).startOpen = false)
    (hf : (war s p).cores.find? (fun k => k.2.confirm && k.2.test.isNone && !harvesting s p k.1 && decide (beneath s p k.1 = stQuarantined)) = some (x, k)) :
    directedPhaseStartAt p s =
      if mayBegin s then startTest p x 2 (modCore p x (fun c => { c with confirm := false }) s) else keepDue (.directed p) s := by
  simp only [directedPhaseStartAt, ha, hd, hw, ho, hf, Bool.not_true, Option.isSome_none, Bool.or_self, Bool.false_eq_true, if_false]

theorem patternRunAt_ready {c d : Nat} {o : BitVec 64} {q : BitVec 32} (hp : hearsPart s p = true) (hr : (cluOf s p c).rot = 0)
    (hm : mayRun s p o q = true) (hd : spareOf s p c = some d) :
    patternRunAt p c o q s =
      if mayBegin s = false then keepDue (.pattern p c o q) s
      else startPattern p (srcOf c d) 4 o q (modClu p c (fun k => { k with rot := 5 })
        { s with quarry := { s.quarry with runs := s.quarry.runs ++ [{ origin := o, seq := q, part := p, src := srcOf c d }] } }) := by
  simp only [patternRunAt, hp, hr, hm, hd, decide_true, Bool.and_self, if_true, Bool.not_eq_eq_eq_not, Bool.not_true]

end

/-! ### The judgement of a slice -/

/-- A running slice of a test that is no pattern run is judged by its signature, returned or missed. -/
theorem sliceResult_ordinary {s : State} {p src : Nat} {t : TestRun} (sig : Option (BitVec 64)) (ht : (coreOf s p src).test = some t)
    (hr : t.running = true) (hp : t.step = 4 → t.why ≠ 4 ∧ t.why ≠ 6) : sliceResult p src sig s = judgeSlice p src t sig s := by
  have hnot : ¬ (t.step = 4 ∧ (t.why = 4 ∨ t.why = 6)) := fun h => h.2.elim (hp h.1).1 (hp h.1).2
  simp only [sliceResult, ht, hr, hnot, Bool.not_true, Bool.false_eq_true, if_false]

section
variable (s : State) (p src : Nat) (t : TestRun) {sig : Option (BitVec 64)}

theorem judgeSlice_first_match (hrep : t.rep = none) (h : sig = some (expected s p t)) : judgeSlice p src t sig s = nextSlice p src t s := by
  simp only [judgeSlice, hrep, h, decide_true, if_true]

theorem judgeSlice_first_miss (hrep : t.rep = none) (h : sig ≠ some (expected s p t)) :
    judgeSlice p src t sig s =
      if t.dwin then startSlice p src (modTest p src (fun t => { t with rep := some (sig.getD 0), running := false }) s)
      else driveSlice p src (modTest p src (fun t => { t with rep := some (sig.getD 0), running := false }) s) := by
  simp only [judgeSlice, hrep, h, decide_false, Bool.false_eq_true, if_false]

theorem judgeSlice_repeat_match {f : BitVec 64} (hrep : t.rep = some f) (h : sig = some (expected s p t)) :
    judgeSlice p src t sig s = nextSlice p src t
      (transientOn (coreSite p src) (if (coreOf s p src).untested then 4 else 3) (fun k => evAt evTestTransient (coreSite p src)
        [(4, coreSite p src), (12, sliceName t), (8, f.toNat), (8, (expected s p t).toNat), (4, k)]) s) := by
  simp only [judgeSlice, hrep, h, decide_true, if_true, Option.getD_some]

theorem judgeSlice_repeat_miss {f : BitVec 64} (hrep : t.rep = some f) (h : sig ≠ some (expected s p t)) :
    judgeSlice p src t sig s = testFail p src t (failKind s p t).1 (failKind s p t).2 (expected s p t) (sig.getD 0) s := by
  simp only [judgeSlice, hrep, h, decide_false, Bool.false_eq_true, if_false]

end

/-- Settles O56: the answer of each row in the cases the statement names, by the lemmas above; a missed signature is none, which is never the expected
one. -/
theorem testEvents : Obligations.TestEvents := by
  intro p c d src sig o q s
  refine ⟨fun ha hd => ⟨fun x rest hw => ?_, fun x k hw ho hf => ?_⟩, fun hp hr hm hd => ?_, fun t ha ht hr hp hrep => ⟨?_, fun hne => ?_, ?_⟩,
    fun t f ha ht hr hp hrep => ⟨?_, fun hne => ?_, ?_⟩⟩
  · exact congrArg (nextOf s) (directedPhaseStartAt_waiting ha hd hw)
  · exact congrArg (nextOf s) (directedPhaseStartAt_confirm ha hd hw ho hf)
  · exact congrArg (nextOf s) (patternRunAt_ready hp hr hm hd)
  · exact Resets.nextOf_onAlive ha ((sliceResult_ordinary _ ht hr hp).trans (judgeSlice_first_match s p _ t hrep rfl))
  · exact Resets.nextOf_onAlive ha ((sliceResult_ordinary _ ht hr hp).trans (judgeSlice_first_miss s p _ t hrep (mt Option.some.inj hne)))
  · exact Resets.nextOf_onAlive ha ((sliceResult_ordinary _ ht hr hp).trans (judgeSlice_first_miss s p _ t hrep (Option.some_ne_none _).symm))
  · exact Resets.nextOf_onAlive ha ((sliceResult_ordinary _ ht hr hp).trans (judgeSlice_repeat_match s p _ t hrep rfl))
  · exact Resets.nextOf_onAlive ha ((sliceResult_ordinary _ ht hr hp).trans (judgeSlice_repeat_miss s p _ t hrep (mt Option.some.inj hne)))
  · exact Resets.nextOf_onAlive ha ((sliceResult_ordinary _ ht hr hp).trans (judgeSlice_repeat_miss s p _ t hrep (Option.some_ne_none _).symm))

end Sys2Proof.Proofs.Tests
end

section
/-! PROOFS. Captures from request to verdict (R144, R151 to R161, R177, R179, R182, R468). -/

namespace Sys2Proof.Proofs.Samples
open Sys2Proof Sys2Proof.Machine

theorem mem_of_tfind {α : Type} {t : Tab α} {k : Nat} {v : α} (h : tfind t k = some v) : (k, v) ∈ t := by
  induction t with
  | nil => cases h
  | cons e t ih =>
    obtain ⟨j, w⟩ := e
    rw [tfind] at h
    split at h
    next hj => rw [hj, Option.some.inj h]; exact List.mem_cons_self
    next => exact List.mem_cons_of_mem _ (ih h)

/-- The oldest message on its way is in flight, and its receipt leaves the others. -/
theorem inFlight_head {s : State} {m : Msg} {rest : List Msg} (hn : s.net = m :: rest) : inFlight m s = true :=
  decide_eq_true (hn ▸ List.mem_cons_self)

theorem recv_head {s : State} {m : Msg} {rest : List Msg} (hn : s.net = m :: rest) : recv m s = { s with net := rest } := by
  rw [recv, hn, List.erase_cons_head]

theorem atCell_of_lt {h : HubId} {cell : Nat} (hc : cell < 16) (f : Nat → State → State) (s : State) : atCell h cell f s = f (cellKey h cell) s :=
  if_pos hc

/-! ### Requests and grants -/

section
variable {s : State} {p cid : Nat} {c : Capture} (hc : capOf s cid = some c)
include hc

section
variable {g : HubId} (hg : serving s = some g) (hw : c.warden = p) (h0 : c.stage = 0) (ha : c.asked = false)
include hg hw h0 ha

theorem captureAllocAt_granted {k : HubId} (hq : s.tst.caps.any (fun e => e.2.asked && decide (classOf e.2.kind = classOf c.kind)) = false)
    (hr : roomAt s c.kind = some k) : captureAllocAt p cid s = grantCap cid c k (noteReach p cid s) := by
  simp only [captureAllocAt, hg, hc, hw, h0, ha, hq, hr, ne_eq, not_true_eq_false, Bool.false_eq_true, or_self, if_false]

theorem captureAllocAt_waits
    (h : s.tst.caps.any (fun e => e.2.asked && decide (classOf e.2.kind = classOf c.kind)) = true ∨ roomAt s c.kind = none) :
    captureAllocAt p cid s =
      if classOf c.kind = 1 then freeCap cid (auditDrop g 1 (noteReach p cid s))
      else modCap cid (fun c => { c with asked := true, time := now (noteReach p cid s) }) (noteReach p cid s) := by
  have hn : (if s.tst.caps.any (fun e => e.2.asked && decide (classOf e.2.kind = classOf c.kind)) then none else roomAt s c.kind) = none := by
    cases h with
    | inl h => exact if_pos h
    | inr h => rw [h, ite_self]
  simp only [captureAllocAt, hg, hc, hw, h0, ha, hn, ne_eq, not_true_eq_false, Bool.false_eq_true, or_self, if_false]

end

theorem captureGrantAt_alive (ha : (war s p).alive = true) (hf : inFlight (.grant p cid) s = true) :
    captureGrantAt p cid s = drive (.capture p c.site c.id) (modCap cid (fun c => { c with stage := 2 }) (recv (.grant p cid) s)) := by
  simp only [captureGrantAt, hf, hc, ha, if_true]

/-! ### Streams -/

section
variable (ha : (war s p).alive = true) (hw : c.warden = p) (h2 : c.stage = 2)
include ha hw h2

theorem capReady_of_granted : capReady s p = true := by
  refine Bool.and_eq_true_iff.2 ⟨ha, List.any_eq_true.2 ⟨_, mem_of_tfind hc, ?_⟩⟩
  simp only [hw, h2, decide_true, Bool.and_self]

theorem captureStreamAt_of_granted (pre : BitVec 256) (body : List Byte) :
    captureStreamAt p cid pre body s =
      if c.kind ≠ 5 then streamInto p cid c pre true body s
      else match passing c (preField pre 7 0) with
        | [] => freeCap cid s
        | x :: more => streamInto p cid { c with att := x.1, slot := x.2.slot, tenant := x.2.tenant, cands := [x] } pre
            (((tfind s.tst.kernels x.2.slot).map (·.inputs)).getD false) body (modCnt c.hub (fun k => { k with coll := k.coll + more.length }) s) := by
  simp only [captureStreamAt, hc, capReady_of_granted hc ha hw h2, hw, h2, ne_eq, not_true_eq_false, decide_false, Bool.not_true, Bool.or_self,
    Bool.false_eq_true, if_false] <;> rfl

end

theorem captureCompleteAt_inFlight (hf : inFlight (.capture cid) s = true) :
    captureCompleteAt cid s = offerCells (if classOf c.kind = 0 then (serving s).getD .a else c.hub) (modW c.warden (fun w => { w with
        auditCap := if w.auditCap = some cid then none else w.auditCap, caps := w.caps.filter (· ≠ cid) })
      (noteWait c.hub (modCap cid (fun c => { c with stage := 4, doneAt := now s, copy2 := secondCopy s c }) (recv (.capture cid) s)))) := by
  simp only [captureCompleteAt, hf, hc, if_true]

theorem verdictAt_head {g : HubId} {rest : List Msg} (hg : serving s = some g) (hq : hasQuorum s g = true) (hn : s.net = .verdict p cid :: rest) :
    verdictAt p cid s =
      if classOf c.kind = 0 then settleReport p (giveVerdict p cid (tget [] s.tst.verdicts cid) (some c) false
        (freeCap cid (modTst (fun t => { t with verdicts := tdel t.verdicts cid }) { s with net := rest })))
      else freeCap cid (modTst (fun t => { t with verdicts := tdel t.verdicts cid }) { s with net := rest }) := by
  have hc' : capOf { s with net := rest } cid = some c := hc
  simp only [verdictAt, hg, hq, inFlight_head hn, recv_head hn, hc', Bool.and_self, Bool.not_true, Bool.false_eq_true, if_false]

theorem kernelLateAt_waiting (hk : classOf c.kind = 2) (h4 : c.stage = 4) (hr : clockRuns s = true) :
    kernelLateAt cid s = endKernel c.hub cid c { ((c.susp.map (·.1)).getD {}) with status := .trapped 4 } s := by
  simp only [kernelLateAt, hc, hk, h4, hr, ne_eq, not_true_eq_false, Bool.true_eq_false, or_self, if_false, if_true]

end

/-! ### What becomes of a stream -/

section
variable (s : State) (p cid : Nat) {c x : Capture} {pre : BitVec 256} {inputs : Bool} {body : List Byte}

/-- The largest capture of a class. -/
def sizeLimit (kind : Nat) : Nat := if classOf kind = 2 then 262144 - 64 else 1048576

/-- The descriptor that a preamble names. -/
def namedDesc (s : State) (c : Capture) (pre : BitVec 256) : Option Desc := if c.jobv then descOf s c.job (preField pre 7 0) else none

theorem streamInto_stored (hk : c.kind ≠ 2) (hx : layCapture c pre (namedDesc s c pre) inputs body = some x) (hl : body.length ≤ sizeLimit c.kind)
    (hf : x.flags.testBit 1 = false) : streamInto p cid c pre inputs body s = storeCap p cid x s := by
  rw [namedDesc] at hx
  rw [sizeLimit] at hl
  simp only [streamInto, hx, Nat.not_lt.2 hl, hf, hk, Bool.false_and, Bool.false_eq_true, if_false]

theorem streamInto_fault {detail data : Nat} (hx : layCapture c pre (namedDesc s c pre) inputs body = some x)
    (hl : body.length ≤ sizeLimit c.kind) (h1 : x.flags.testBit 1 = true) (h0 : x.flags.testBit 0 = false)
    (hf : sparseFault (tileBlocks x.rows x.k) (metaSection x (namedDesc s c pre).isSome) = some (detail, data)) :
    streamInto p cid c pre inputs body s = storeFault p cid x detail data s := by
  rw [namedDesc] at hx hf
  rw [sizeLimit] at hl
  simp only [streamInto, hx, Nat.not_lt.2 hl, h1, h0, hf, Bool.not_false, Bool.and_self, if_true, if_false]

theorem streamInto_notTaken (h : layCapture c pre (namedDesc s c pre) inputs body = none ∨ sizeLimit c.kind < body.length) :
    streamInto p cid c pre inputs body s = notTaken p cid c (releaseS p c s) := by
  rw [namedDesc, sizeLimit] at h
  rw [streamInto]
  simp only
  split
  next => rfl
  next x hx => exact if_pos (h.resolve_left (hx ▸ Option.some_ne_none x))

theorem notTaken_audit (hk : classOf c.kind = 1) : notTaken p cid c s = freeCap cid (auditDrop c.hub 3 s) := by
  simp only [notTaken, hk]

theorem notTaken_kernel (hk : classOf c.kind = 2) : notTaken p cid c s = freeCap cid (kernelDrop p c.att 2 s) := by
  simp only [notTaken, hk]

theorem notTaken_arbitration (hk : classOf c.kind = 0) (h2 : isSecond s p cid = false) :
    notTaken p cid c s = settleReport p (giveVerdict p cid [{ code := 2, cause := 4 }] none false (freeCap cid (noVerdictEv cid c 4 s))) := by
  simp only [notTaken, hk, h2, Bool.false_eq_true, if_false]

end

/-! ### Cells -/

section
variable {s : State} {key : Nat}

theorem katDoneAt_pass (hk : (cellOf s key).kat = 1) : katDoneAt key true s = decideCell key (modCell key (fun x => { x with kat := 0 }) s) := by
  simp only [katDoneAt, hk, if_true]

theorem katDoneAt_fail (hk : (cellOf s key).kat = 1) : katDoneAt key false s = cellOut key 1 s := by
  simp only [katDoneAt, hk, Bool.false_eq_true, if_false]

section
variable {w : Work} (hw : (cellOf s key).work = some w)
include hw

theorem quantumEndAt_runs (h : w.cls ≠ 2 ∨ w.k.status = .running) : quantumEndAt key s = decideCell key (countQuantum key s) := by
  have hn : ¬ (w.cls = 2 ∧ w.k.status ≠ .running) := fun hh => h.elim (fun h => h hh.1) hh.2
  simp only [quantumEndAt, hw, hn, if_false]

theorem sampleDoneAt_judged {c : Capture} (hc : capOf s w.cid = some c) (h2 : w.cls ≠ 2) :
    sampleDoneAt key s = decideCell key (endJudged (cellHub key) w.cid c w.desc (modCell key (fun x => { x with work := none }) (countQuantum key s))) := by
  simp only [sampleDoneAt, hw, hc, h2, false_and, if_false]

theorem sampleDoneAt_kernel {c : Capture} (hc : capOf s w.cid = some c) (h2 : w.cls = 2) (hr : w.k.status ≠ .running) :
    sampleDoneAt key s = decideCell key (endKernel (cellHub key) w.cid c w.k (modCell key (fun x => { x with work := none }) (countQuantum key s))) := by
  simp only [sampleDoneAt, hw, hc, h2, hr, and_false, if_false, if_true]

end

end

/-! ### The 10 ms of a triage's capture -/

section
variable {s : State} {p tid e : Nat} {t : Triage} (hr : clockRuns s = true)
  (ht : (war s p).triages.find? (fun t => decide (t.tid = tid) && decide (t.epoch = e) && !t.limit) = some t)
include hr ht

theorem arbitrationLimitAt_judged (hv : t.verd.isSome = true) :
    arbitrationLimitAt p tid e s = settleReport p (giveVerdict p t.cid [] none true s) := by
  simp only [arbitrationLimitAt, hr, ht, hv, Bool.true_eq_false, if_false, if_true]

theorem arbitrationLimitAt_open {c : Capture} (hv : t.verd = none) (hc : capOf s t.cid = some c)
    (hh : (war s p).halt = none ∨ t.cid ∉ (war s p).haltCaps) :
    arbitrationLimitAt p tid e s = settleReport p (giveVerdict p t.cid [{ code := 2, cause := 6 }] none true
      (if c.stage < 3 then releaseS p c (abandonCap t.cid (noVerdictEv t.cid c 6 s)) else abandonCap t.cid (noVerdictEv t.cid c 6 s))) := by
  have hn : (isHalted s p && decide (t.cid ∈ (war s p).haltCaps)) = false := by
    cases hh with
    | inl h => rw [isHalted, h, Option.isSome_none, Bool.false_and]
    | inr h => rw [decide_eq_false h, Bool.and_false]
  simp only [arbitrationLimitAt, hr, ht, hv, hn, hc, Option.isSome_none, Option.getD_some, Bool.true_eq_false, Bool.false_eq_true, if_false]

end

/-- Settles O57: the answer of each row in the cases the statement names, by the lemmas above. -/
theorem sampleEvents : Obligations.SampleEvents := by
  intro p cell lane h cid tid epoch pre body s rest
  refine ⟨fun g c hg hc hw h0 ha => ⟨fun k hq hr => ?_, fun hn => ?_⟩, fun c ha hf hc => ?_, fun c ha hc hw h2 => ⟨fun h5 => ?_, fun h5 hp => ?_,
    fun x more h5 hp => ?_⟩, fun c inputs => ⟨fun x hk hx hl => ⟨fun h1 => ?_, fun detail data h1 h0 hf => ?_⟩, fun hn => ?_, fun hk => ?_, fun hk => ?_,
    fun hk h2 => ?_⟩, fun c hf hc => ?_, fun hcell => ⟨fun hk => ⟨?_, ?_⟩, fun w hw => ⟨fun hr => ?_, fun c hc => ⟨fun h2 => ?_, fun h2 hr => ?_⟩, ?_⟩⟩,
    fun t hr ht => ⟨fun hv => ?_, fun c hv hc hh => ?_⟩, fun g c hg hq hn hc => ?_, fun c hc hk h4 hr => ?_⟩
  · exact congrArg (nextOf s) (captureAllocAt_granted hc hg hw h0 ha hq hr)
  · exact congrArg (nextOf s) (captureAllocAt_waits hc hg hw h0 ha hn)
  · exact congrArg (nextOf s) (captureGrantAt_alive hc ha hf)
  · exact congrArg (nextOf s) ((captureStreamAt_of_granted hc ha hw h2 pre body).trans (if_pos h5))
  · refine congrArg (nextOf s) ((captureStreamAt_of_granted hc ha hw h2 pre body).trans ?_)
    rw [if_neg (Classical.not_not.2 h5), hp]
  · refine congrArg (nextOf s) ((captureStreamAt_of_granted hc ha hw h2 pre body).trans ?_)
    rw [if_neg (Classical.not_not.2 h5), hp]
  · exact streamInto_stored s p _ hk hx hl h1
  · exact streamInto_fault s p _ hx hl h1 h0 hf
  · exact streamInto_notTaken s p _ hn
  · exact notTaken_audit s p _ hk
  · exact notTaken_kernel s p _ hk
  · exact notTaken_arbitration s p _ hk h2
  · exact congrArg (nextOf s) (captureCompleteAt_inFlight hc hf)
  · exact congrArg (nextOf s) ((atCell_of_lt hcell _ s).trans (katDoneAt_pass hk))
  · exact congrArg (nextOf s) ((atCell_of_lt hcell _ s).trans (katDoneAt_fail hk))
  · exact congrArg (nextOf s) ((atCell_of_lt hcell _ s).trans (quantumEndAt_runs hw hr))
  · exact congrArg (nextOf s) ((atCell_of_lt hcell _ s).trans (sampleDoneAt_judged hw hc h2))
  · exact congrArg (nextOf s) ((atCell_of_lt hcell _ s).trans (sampleDoneAt_kernel hw hc h2 hr))
  · refine congrArg (nextOf s) ((atCell_of_lt hcell _ s).trans ?_)
    simp only [cellCheckAt, hw]
  · exact congrArg (nextOf s) (arbitrationLimitAt_judged hr ht hv)
  · exact congrArg (nextOf s) (arbitrationLimitAt_open hr ht hv hc hh)
  · exact congrArg (nextOf s) (verdictAt_head hc hg hq hn)
  · exact congrArg (nextOf s) (kernelLateAt_waiting hc hk h4 hr)

end Sys2Proof.Proofs.Samples
end

section
/-! PROOFS. Arrivals, releases, reports and acknowledgements (R22, R24, R110, R243, R246 to R255, R262, R264). -/

namespace Sys2Proof.Proofs.Arrivals
open Sys2Proof Sys2Proof.Machine

/-! ### At a warden: arrivals -/

section
variable {s : State} {p src o e : Nat} (hs : arrivalSrc src = true) (hh : hearsCore s p src = true)
include hs hh

theorem barrierArrivalAt_stray (h0 : (objOf s o).state = 0) :
    barrierArrivalAt p src o e s = raiseW p (evAt evSyncStray (arrivalSite p src) [(4, arrivalSite p src), (2, o), (4, e)]) s := by
  simp only [barrierArrivalAt, hs, hh, h0, Bool.and_self, Bool.not_true, Bool.false_eq_true, if_false, if_true]

section
variable (h0 : (objOf s o).state ≠ 0) (h4 : (objOf s o).state ≠ 4)
include h0 h4

theorem barrierArrivalAt_armed :
    barrierArrivalAt p src o e s =
      if (objOf s o).type = 1 then arriveBarrier p src o e s
      else if (objOf s o).type = 2 then arrivePost p o (markArrival p src e s)
      else send (.wait p o e) (markArrival p src e s) := by
  simp only [barrierArrivalAt, hs, hh, h0, h4, Bool.and_self, Bool.not_true, Bool.false_eq_true, if_false]

theorem barrierArrivalAt_semaphore (ht : (objOf s o).type = 2) :
    barrierArrivalAt p src o e s = arrivePost p o (markArrival p src e s) := by
  rw [barrierArrivalAt_armed hs hh h0 h4, if_neg (by omega), if_pos ht]

theorem barrierArrivalAt_flag (ht : (objOf s o).type = 3) :
    barrierArrivalAt p src o e s = send (.wait p o e) (markArrival p src e s) := by
  rw [barrierArrivalAt_armed hs hh h0 h4, if_neg (by omega), if_neg (by omega)]

theorem barrierArrivalAt_barrier (ht : (objOf s o).type = 1) : barrierArrivalAt p src o e s = arriveBarrier p src o e s := by
  rw [barrierArrivalAt_armed hs hh h0 h4, if_pos ht]

end

end

/-- The core of an arrival notes its job. -/
def noteJob (p src o : Nat) (s : State) : State :=
  if srcOk src then modCore p src (fun c => { c with job := some (o, (objOf s o).job) }) s else s

theorem objs_noteJob (p src o : Nat) (s : State) : (war (noteJob p src o s) p).objs = (war s p).objs := by
  unfold noteJob
  split
  · rw [modCore, war_modW]
  · rfl

section
variable {s : State} {p src o e : Nat} {l : LocalObj} (hl : tfind (war s p).objs o = some l)
include hl

section
variable (h1 : l.state ≠ 1) (he : e = l.epoch) (hr : l.arr < l.parts)
include h1 he hr

theorem arriveBarrier_counted (hc : (war s p).lease.isSome = true) :
    arriveBarrier p src o e s = sendClean p (send (.arrival p o e)
      (arrivalTally p src e (modLobj p o (fun l => { l with arr := l.arr + 1, sent := l.sent + 1 }) (noteJob p src o s)))) := by
  have hf : arrivalFault (some l) (objOf s o) e = none := by
    rw [arrivalFault, if_neg (not_or.2 ⟨h1, Classical.not_not.2 he⟩), if_neg (by omega)]
  simp only [arriveBarrier, hl, hf, hc, if_true, noteJob]

theorem arriveBarrier_unheard (hc : (war s p).lease = none) :
    arriveBarrier p src o e s =
      sendClean p (arrivalTally p src e (modLobj p o (fun l => { l with arr := l.arr + 1 }) (noteJob p src o s))) := by
  have hf : arrivalFault (some l) (objOf s o) e = none := by
    rw [arrivalFault, if_neg (not_or.2 ⟨h1, Classical.not_not.2 he⟩), if_neg (by omega)]
  simp only [arriveBarrier, hl, hf, hc, Option.isSome_none, Bool.false_eq_true, if_false, noteJob]

end

theorem arriveBarrier_wrongEpoch (h : l.state = 1 ∨ e ≠ l.epoch) :
    arriveBarrier p src o e s = jobFault o e jfEpoch (noteJob p src o s) := by
  simp only [arriveBarrier, hl, arrivalFault, h, if_true, noteJob]

theorem arriveBarrier_over (h1 : l.state ≠ 1) (he : e = l.epoch) (hr : l.parts ≤ l.arr) :
    arriveBarrier p src o e s = jobFault o e jfOver (noteJob p src o s) := by
  have hf : arrivalFault (some l) (objOf s o) e = some jfOver := by
    rw [arrivalFault, if_neg (not_or.2 ⟨h1, Classical.not_not.2 he⟩), if_pos (by omega)]
  simp only [arriveBarrier, hl, hf, noteJob]

end

/-! ### At the Primary: arrivals and epoch-clean -/

section
variable {s : State} {p e : Nat} {rest : List Msg} (hs : (serving s).isSome = true)
include hs

theorem serving_not_none : (serving s).isNone = false := by
  rw [← Option.not_isSome, hs, Bool.not_true]

theorem primaryArrivalAt_barrier {o : Nat} (hn : s.net = .arrival p o e :: rest) : primaryArrivalAt p o e s = countArrival o e { s with net := rest } := by
  rw [primaryArrivalAt, Sentry.takeMsg_head (a := .barrier) hn (if_pos ⟨rfl, rfl, rfl⟩), serving_not_none hs]
  rfl

theorem primaryArrivalAt_post {o n : Nat} (hn : s.net = .post p n o :: rest) : primaryArrivalAt p o e s = applyPost p n o { s with net := rest } := by
  rw [primaryArrivalAt, Sentry.takeMsg_head (a := .post n) hn (if_pos ⟨rfl, rfl⟩), serving_not_none hs]
  rfl

theorem primaryArrivalAt_wait {o : Nat} (hn : s.net = .wait p o e :: rest) : primaryArrivalAt p o e s = applyWait p o { s with net := rest } := by
  rw [primaryArrivalAt, Sentry.takeMsg_head (a := .wait) hn (if_pos ⟨rfl, rfl, rfl⟩), serving_not_none hs]
  rfl

theorem epochCleanAt_gating {a o : Nat} {x : SyncObj} (hn : s.net = .clean p e a :: rest) (hx : objAt s e = some (o, x)) (he : x.epoch = e)
    (ha : x.attempt = a) (hg : x.gate.getLsbD p = true) :
    epochCleanAt p e s = settle o (modGather o (fun g => { g with clean := insertOnce g.clean p }) { s with net := rest }) := by
  have hx' : objAt { s with net := rest } e = some (o, x) := hx
  rw [epochCleanAt, Sentry.takeMsg_head (a := a) hn (if_pos ⟨rfl, rfl⟩), serving_not_none hs]
  simp only [hx', he, ha, hg, and_self, if_true, Bool.false_eq_true, if_false]

/-! ### At the Primary: failure reports -/

section
variable {r : FailRep} (hn : s.net = .failure p e r :: rest)
include hn

theorem failureReportAt_noObject (hx : objAt s e = none) :
    failureReportAt p e s = if r.kinds = fkTallyFull then send (.tfAck p e) (lateFailure p e r { s with net := rest })
      else lateFailure p e r { s with net := rest } := by
  have hx' : objAt { s with net := rest } e = none := hx
  rw [failureReportAt, Sentry.takeMsg_head (a := r) hn (if_pos ⟨rfl, rfl⟩), serving_not_none hs]
  simp only [hx', decide_eq_true_eq, Bool.false_eq_true, if_false]

section
variable {o : Nat} {x : SyncObj} (hx : objAt s e = some (o, x))
include hx

theorem failureReportAt_object :
    failureReportAt p e s =
      if x.gate.getLsbD p = false then (if r.kinds = fkTallyFull then send (.tfAck p e) { s with net := rest } else { s with net := rest })
      else if x.epoch = e then (if r.again ∧ !x.fail then { s with net := rest } else setFail o p r { s with net := rest })
      else if r.kinds = fkTallyFull then mirWrite (.failSet o e p) { s with net := rest, sync := { s.sync with full := insertOnce s.sync.full (o, e) } }
      else { s with net := rest } := by
  have hx' : objAt { s with net := rest } e = some (o, x) := hx
  rw [failureReportAt, Sentry.takeMsg_head (a := r) hn (if_pos ⟨rfl, rfl⟩), serving_not_none hs]
  simp only [hx', decide_eq_true_eq, Bool.false_eq_true, if_false, Bool.not_eq_eq_eq_not, Bool.not_true]

theorem failureReportAt_notGating (hg : x.gate.getLsbD p = false) :
    failureReportAt p e s = if r.kinds = fkTallyFull then send (.tfAck p e) { s with net := rest } else { s with net := rest } := by
  rw [failureReportAt_object hs hn hx, if_pos hg]

section
variable (hg : x.gate.getLsbD p = true)
include hg

theorem failureReportAt_sets (he : x.epoch = e) (hr : r.again = false ∨ x.fail = true) :
    failureReportAt p e s = setFail o p r { s with net := rest } := by
  have hn' : ¬ (r.again ∧ !x.fail) := fun h => hr.elim (fun ha => by simp [ha] at h) (fun hf => by simp [hf] at h)
  rw [failureReportAt_object hs hn hx, if_neg (by simp [hg]), if_pos he, if_neg hn']

theorem failureReportAt_cleared (he : x.epoch = e) (hr : r.again = true) (hf : x.fail = false) :
    failureReportAt p e s = { s with net := rest } := by
  rw [failureReportAt_object hs hn hx, if_neg (by simp [hg]), if_pos he, if_pos (by simp [hr, hf])]

theorem failureReportAt_later (he : x.epoch ≠ e) :
    failureReportAt p e s = if r.kinds = fkTallyFull then
      mirWrite (.failSet o e p) { s with net := rest, sync := { s.sync with full := insertOnce s.sync.full (o, e) } } else { s with net := rest } := by
  rw [failureReportAt_object hs hn hx, if_neg (by simp [hg]), if_neg he]

end

end

end

/-! ### At the Primary: triage results -/

theorem triageResultAt_engine {tid : Nat} (hn : s.net = [.engTriage p tid e]) : triageResultAt p tid e s = { s with net := [] } := by
  have hr : reportOut s p e tid = false := by simp [reportOut, hn]
  rw [triageResultAt, serving_not_none hs, hr, ← Samples.recv_head hn]
  simp only [takeMsg, hn, List.find?_cons, List.find?_nil, Option.isSome_none, Bool.or_self, Bool.false_eq_true, if_false]

theorem triageResultAt_gating {tid o : Nat} {cl inp : Bool} {ch : List Nat} {x : SyncObj} (hn : s.net = .triage p tid e cl inp ch :: rest)
    (hr : reportOut { s with net := rest } p e tid = false) (hx : objAt s e = some (o, x)) (he : x.epoch = e) (hg : x.gate.getLsbD p = true)
    (ho : (p, tid) ∈ (gatherOf s o).opened) :
    triageResultAt p tid e s = settle o (modGather o (fun g =>
      { g with
        opened := if triageOpen { s with net := rest } p e tid then g.opened else g.opened.filter (· ≠ (p, tid))
        cleared := if cl then insertOnce g.cleared (p, tid) else g.cleared
        other := g.other || !cl
        input := g.input || inp
        charged := (g.charged ++ ch).eraseDups }) { s with net := rest }) := by
  have hx' : objAt { s with net := rest } e = some (o, x) := hx
  have ho' : (p, tid) ∈ (gatherOf { s with net := rest } o).opened := ho
  have hr' : reportOut s p e tid = false := by
    rw [reportOut, hn, List.any_cons, Bool.false_or]
    exact hr
  rw [triageResultAt, Sentry.takeMsg_head (a := (cl, inp, ch)) hn (if_pos ⟨rfl, rfl, rfl⟩), serving_not_none hs, hr']
  simp only [hx', he, hg, ho', ne_eq, not_true_eq_false, Bool.not_true, Bool.false_eq_true, Bool.or_self, or_self, if_false]

end

/-! ### At a warden: queries, acknowledgements, tally-closes and clear orders -/

section
variable {s : State} {p e : Nat} {rest : List Msg}

theorem closeQueryAt_head {o : Nat} (hn : s.net = .query p o e :: rest) :
    closeQueryAt p o e s = sendClean p (modLobj p o (fun l => if l.epoch = e then { l with query := true } else l) { s with net := rest }) := by
  rw [closeQueryAt, if_pos (Samples.inFlight_head hn), Samples.recv_head hn]

theorem failureReportAckAt_head (hn : s.net = .tfAck p e :: rest) :
    failureReportAckAt p e s = modW p (fun w => { w with tfRep := w.tfRep.filter (fun r => r.1 ≠ e) }) { s with net := rest } := by
  rw [failureReportAckAt, if_pos (Samples.inFlight_head hn), Samples.recv_head hn]

theorem failureReportAckAt_repeats (hn : Msg.tfAck p e ∉ s.net) (ha : (war s p).alive = true) (hr : ∃ r ∈ (war s p).tfRep, r.1 = e) :
    failureReportAckAt p e s = send (.failure p e { kinds := fkTallyFull, site := partSite p }) s := by
  have hf : inFlight (.tfAck p e) s = false := decide_eq_false hn
  have hany : (war s p).tfRep.any (fun r => r.1 = e) = true := by simpa using hr
  rw [failureReportAckAt, hf, if_neg Bool.false_ne_true, ha, hany, Bool.and_self, if_pos rfl]

theorem tallyCloseAt_head (hn : s.net = .tclose p e :: rest) :
    tallyCloseAt p e s = modW p (fun w => { w with objs := w.objs.map (fun l =>
      if l.2.type = 1 ∧ l.2.epoch = e ∧ l.2.parts = 0 then
        (l.1, { l.2 with epoch := e + 1, state := if e = l.2.elast then 1 else 2, query := false, cleanSent := false, acted := 0, replay := none })
      else l) }) (closeTally p e { s with net := rest }) := by
  rw [tallyCloseAt, if_pos (Samples.inFlight_head hn), Samples.recv_head hn]

theorem postAckAt_head {num : Nat} (hn : s.net = .postAck p num :: rest) :
    postAckAt p num s = modW p (fun w => { w with posts := w.posts.filter (fun x => x.1 ≠ num) }) { s with net := rest } := by
  rw [postAckAt, if_pos (Samples.inFlight_head hn), Samples.recv_head hn]

/-- A clear order's triages leave a tally, with their count. -/
def clearFails (ts : List Nat) (t : Tally) : Tally :=
  { t with out := t.out - (t.triFails.filter (fun y => y.1 ∈ ts)).length, triFails := t.triFails.filter (fun y => y.1 ∉ ts) }

theorem clearOrderAt_head {ts : List Nat} {t : Tally} (hn : s.net = .clear p e ts :: rest)
    (ht : tallyOf (war (modTally p e (clearFails ts) { s with net := rest }) p) e = some t) :
    clearOrderAt p e s = if tallyKinds t = 0 then sendClean p (modTally p e (clearFails ts) { s with net := rest })
      else sendAgain p e (modTally p e (clearFails ts) { s with net := rest }) := by
  rw [clearOrderAt, Sentry.takeMsg_head (a := ts) hn (if_pos ⟨rfl, rfl⟩)]
  unfold clearFails at ht ⊢
  simp only [ht]

end

/-! ### At a warden: releases -/

section
variable {s : State} {p o f r v : Nat} {rest : List Msg} (ha : (war s p).alive = true) (hl : (war s p).lease.isSome = true)
  (hn : s.net = .release p o f r v :: rest)
include ha hl hn

theorem releaseAt_head :
    releaseAt p o s =
      if r = 0 then drive (.rel p o false) { s with net := rest }
      else if r ≤ (war s p).rsn then { s with net := rest }
      else if v ≠ (war s p).rsn then modW p (fun w => { w with early := w.early ++ [(o, f, r, v)] }) { s with net := rest }
      else deliverEarly p (war s p).early.length (deliver p o f r { s with net := rest }) := by
  have hl' : (war s p).lease.isNone = false := by rw [← Option.not_isSome, hl, Bool.not_true]
  rw [releaseAt, Sentry.takeMsg_head (a := (f, r, v)) hn (if_pos ⟨rfl, rfl⟩), ha, hl']
  rfl

theorem releaseAt_flag (h : r = 0) : releaseAt p o s = drive (.rel p o false) { s with net := rest } := by
  rw [releaseAt_head ha hl hn, if_pos h]

theorem releaseAt_repeated (h : 0 < r) (hr : r ≤ (war s p).rsn) : releaseAt p o s = { s with net := rest } := by
  rw [releaseAt_head ha hl hn, if_neg (by omega), if_pos hr]

theorem releaseAt_early (hr : (war s p).rsn < r) (hv : v ≠ (war s p).rsn) :
    releaseAt p o s = modW p (fun w => { w with early := w.early ++ [(o, f, r, v)] }) { s with net := rest } := by
  rw [releaseAt_head ha hl hn, if_neg (by omega), if_neg (by omega), if_pos hv]

theorem releaseAt_next (hr : (war s p).rsn < r) (hv : v = (war s p).rsn) (he : (war s p).early = []) :
    releaseAt p o s = deliver p o f r { s with net := rest } := by
  rw [releaseAt_head ha hl hn, if_neg (by omega), if_neg (by omega), if_neg (Classical.not_not.2 hv), he]
  rfl

end

theorem releaseAt_unheard {s : State} {p : Nat} (o : Nat) (hl : (war s p).lease = none) : releaseAt p o s = s := by
  rw [releaseAt, if_pos (by rw [hl, Option.isNone_none, Bool.or_true])]

/-! ### What the Primary does with arrivals -/

section
variable {s : State} {o : Nat}

theorem countArrival_current {e : Nat} (ht : (objOf s o).type = 1) (h2 : (objOf s o).state = 2) (he : (objOf s o).epoch = e) :
    countArrival o e s =
      if (objOf s o).count + 1 = (objOf s o).part then
        settle o (sendQueries o (modObj o (fun x => { x with count := x.count + 1, state := if x.count + 1 = x.part then 3 else 2 }) s))
      else modObj o (fun x => { x with count := x.count + 1, state := if x.count + 1 = x.part then 3 else 2 }) s :=
  if_pos ⟨ht, h2, he⟩

theorem applyPost_semaphore (p n : Nat) (ht : (objOf s o).type = 2) (h4 : (objOf s o).state ≠ 4) :
    applyPost p n o s = if (objOf s o).count = 4294967295 then send (.postAck p n) (semSaturated o (refusePost o s))
      else mirWrite (.sem o ((objOf s o).count + postsOut s o + 1) p n) s :=
  if_neg (not_or.2 ⟨Classical.not_not.2 ht, h4⟩)

theorem applyWait_flag (p : Nat) (ht : (objOf s o).type = 3) (h4 : (objOf s o).state ≠ 4) :
    applyWait p o s = if (objOf s o).count ≠ 0 then send (.release p o 0 0 0) s
      else { s with sync := { s.sync with waits := s.sync.waits ++ [(p, o)] } } :=
  if_neg (not_or.2 ⟨Classical.not_not.2 ht, h4⟩)

end

/-- Settles O58: the answer of each row in the cases the statement names, by the lemmas above. -/
theorem syncEvents : Obligations.SyncEvents := by
  intro p num src obj epoch tid s rest o e x u
  have hobjs : ∀ l, tfind (war (noteJob p src.toNat o s) p).objs o = some l → tfind (war s p).objs o = some l := fun l h => by
    rwa [objs_noteJob] at h
  refine ⟨fun hs hh => ⟨fun h0 => ?_, fun h0 h4 ht => ?_, fun h0 h4 ht => ?_, fun l h0 h4 ht hl => ⟨fun h1 he hr hc => ?_, fun h1 he hr hc => ?_,
      fun h => ?_, fun h1 he hr => ?_⟩⟩,
    fun hs => ⟨fun hn ht h2 he => ?_, fun n hn ht h4 => ?_, fun hn ht h4 => ?_, fun a b y hn hx he ha hg => ?_, fun r b y hn hx hg =>
      ⟨fun he hr => ?_, fun he hr hf => ?_, fun he => ?_⟩, fun r b y hn hx hg => ?_, fun r hn hx => ?_, fun hn => ?_,
      fun cl inp ch b y hn hr hx he hg ho => ?_⟩,
    fun hn => ?_, fun hn => ?_, fun hn ha hr => ?_, fun hl => ?_, fun f r v ha hl hn => ⟨fun h => ?_, fun h hr => ?_, fun hr hv => ?_, fun hr hv he => ?_⟩,
    fun hn => ?_, fun hn => ?_, fun ts t hn ht => ?_⟩
  · exact congrArg (fun t => nextOf s (replayAll p t)) (barrierArrivalAt_stray hs hh h0)
  · exact congrArg (fun t => nextOf s (replayAll p t)) (barrierArrivalAt_semaphore hs hh h0 h4 ht)
  · exact congrArg (fun t => nextOf s (replayAll p t)) (barrierArrivalAt_flag hs hh h0 h4 ht)
  · exact congrArg (fun t => nextOf s (replayAll p t)) ((barrierArrivalAt_barrier hs hh h0 h4 ht).trans (arriveBarrier_counted (hobjs l hl) h1 he hr hc))
  · exact congrArg (fun t => nextOf s (replayAll p t)) ((barrierArrivalAt_barrier hs hh h0 h4 ht).trans (arriveBarrier_unheard (hobjs l hl) h1 he hr hc))
  · exact congrArg (fun t => nextOf s (replayAll p t)) ((barrierArrivalAt_barrier hs hh h0 h4 ht).trans (arriveBarrier_wrongEpoch (hobjs l hl) h))
  · exact congrArg (fun t => nextOf s (replayAll p t)) ((barrierArrivalAt_barrier hs hh h0 h4 ht).trans (arriveBarrier_over (hobjs l hl) h1 he hr))
  · exact congrArg (nextOf s) ((primaryArrivalAt_barrier hs hn).trans (countArrival_current ht h2 he))
  · exact congrArg (nextOf s) ((primaryArrivalAt_post hs hn).trans (applyPost_semaphore p n ht h4))
  · exact congrArg (nextOf s) ((primaryArrivalAt_wait hs hn).trans (applyWait_flag p ht h4))
  · exact congrArg (nextOf s) (epochCleanAt_gating hs hn hx he ha hg)
  · exact congrArg (nextOf s) (failureReportAt_sets hs hn hx hg he hr)
  · exact congrArg (nextOf s) (failureReportAt_cleared hs hn hx hg he hr hf)
  · exact congrArg (nextOf s) (failureReportAt_later hs hn hx hg he)
  · exact congrArg (nextOf s) (failureReportAt_notGating hs hn hx hg)
  · exact congrArg (nextOf s) (failureReportAt_noObject hs hn hx)
  · exact congrArg (nextOf s) (triageResultAt_engine hs hn)
  · exact congrArg (nextOf s) (triageResultAt_gating hs hn hr hx he hg ho)
  · exact congrArg (nextOf s) (closeQueryAt_head hn)
  · exact congrArg (nextOf s) (failureReportAckAt_head hn)
  · exact congrArg (nextOf s) (failureReportAckAt_repeats hn ha hr)
  · exact congrArg (nextOf s) (releaseAt_unheard _ hl)
  · exact congrArg (nextOf s) (releaseAt_flag ha hl hn h)
  · exact congrArg (nextOf s) (releaseAt_repeated ha hl hn h hr)
  · exact congrArg (nextOf s) (releaseAt_early ha hl hn hr hv)
  · exact congrArg (nextOf s) (releaseAt_next ha hl hn hr hv he)
  · exact congrArg (nextOf s) (tallyCloseAt_head hn)
  · exact congrArg (nextOf s) (postAckAt_head hn)
  · exact congrArg (nextOf s) (clearOrderAt_head hn ht)

end Sys2Proof.Proofs.Arrivals
end

section
/-! PROOFS. Counters, samples, the global stop and the governor's update (R30, R89, R371 to R375, R386 to R391). -/

namespace Sys2Proof.Proofs.Observation
open Sys2Proof Sys2Proof.Machine

/-! ### Tap records and program-counter samples -/

section
variable {s : State} {p g : Nat} {rec : BitVec 64} (hp : hearsPart s p = true)
include hp

theorem counterTapAt_heard (hg : g < 20) :
    counterTapAt p g rec s =
      if tapOk p (tapOf rec) then
        (if traceOn s p 0 then stage p { cls := 0x10, len := 2, src := p + 512 * g, wt := wtOf s p, body := [rec] } (countTap p g (tapOf rec) s)
          else countTap p g (tapOf rec) s)
      else modW p (fun w => { w with tapBad := w.tapBad + 1 }) s := by
  simp only [counterTapAt, hp, Nat.not_le.2 hg, decide_false, Bool.not_true, Bool.or_self, Bool.false_eq_true, if_false]

theorem counterTapAt_counted (hg : g < 20) (hk : tapOk p (tapOf rec) = true) :
    counterTapAt p g rec s =
      if traceOn s p 0 then stage p { cls := 0x10, len := 2, src := p + 512 * g, wt := wtOf s p, body := [rec] } (countTap p g (tapOf rec) s)
      else countTap p g (tapOf rec) s := by
  rw [counterTapAt_heard hp hg, if_pos hk]

theorem counterTapAt_bad (hg : g < 20) (hk : tapOk p (tapOf rec) = false) :
    counterTapAt p g rec s = modW p (fun w => { w with tapBad := w.tapBad + 1 }) s := by
  rw [counterTapAt_heard hp hg, if_neg (by simp [hk])]

theorem pcsPulseAt_due (ht : traceOn s p 2 = true) (hr : (war s p).haltReq = false) (hh : (war s p).halt = none) (hw : (war s p).pcsWait = []) :
    pcsPulseAt p s = drive (.pcs p false)
      (modW p (fun w => { w with pcsNum := w.pcsNum + 1, pcsAt := w.timer, pcsWait := (List.range 20).map (fun g => (g, 544)) }) s) := by
  simp only [pcsPulseAt, hp, ht, hr, hh, hw, ne_eq, not_true_eq_false, decide_false, Option.isSome_none, Bool.not_true, Bool.or_self,
    Bool.false_eq_true, if_false]

theorem pcSampleAt_halted (hg : g < 20) (hh : isHalted s p = true) (hb : bitsIn rec 53 52 = 3) :
    pcSampleAt p g rec s = modW p (fun w => { w with haltPcs := tmod [] w.haltPcs g (fun l => if l.length < 544 then l ++ [rec] else l) }) s := by
  simp only [pcSampleAt, hp, Nat.not_le.2 hg, hh, hb, decide_true, decide_false, Bool.not_true, Bool.or_self, Bool.and_self, Bool.false_eq_true,
    if_false, if_true]

section
variable {n : Nat} (ho : tget 0 (war s p).pcsWait g = n + 1)
include ho

theorem pcSampleAt_owed (hg : g < 20) (hh : isHalted s p = false) :
    pcSampleAt p g rec s = stage p { cls := 0x12, len := 2, src := p + 512 * g, wt := wtOf s p, body := [rec] }
      (modW p (fun w => { w with pcsWait := tput 0 w.pcsWait g n }) s) := by
  simp only [pcSampleAt, hp, Nat.not_le.2 hg, hh, ho, Nat.add_one_ne_zero, Nat.add_sub_cancel, decide_false, Bool.not_true, Bool.or_self,
    Bool.false_and, Bool.false_eq_true, if_false]

theorem pcsTimeoutAt_owed :
    pcsTimeoutAt p g s = wardenLoss p 0x12 5 (n + 1) 0 (modW p (fun w => { w with pcsWait := tput 0 w.pcsWait g 0 }) s) := by
  simp only [pcsTimeoutAt, hp, ho, Nat.add_one_ne_zero, decide_false, Bool.not_true, Bool.or_self, Bool.false_eq_true, if_false]

end

end

/-! ### Cairn at a node -/

/-- The first Cairn at a node that is up: it is noted as passed and forwarded. -/
def cairnPassed (node : Nat) (s : State) : State := cairnForward node (modCairn (fun c => { c with passed := c.passed ++ [node] }) s)

section
variable {s : State} {node edges : Nat} {rest : List Msg} (hn : s.net = .cairn node :: rest)
include hn

theorem cairnArrivalAt_nodeOut (hu : nodeUp s node = false) : cairnArrivalAt node edges s = { s with net := rest } := by
  have hu' : nodeUp { s with net := rest } node = false := hu
  simp only [cairnArrivalAt, Samples.inFlight_head hn, Samples.recv_head hn, hu', Bool.not_true, Bool.not_false, Bool.false_eq_true, if_false, if_true]

section
variable (hu : nodeUp s node = true)
include hu

theorem cairnArrivalAt_further (hp : node ∈ s.cairn.passed) :
    cairnArrivalAt node edges s = modCairn (fun c => { c with further := insertOnce c.further node }) { s with net := rest } := by
  have hu' : nodeUp { s with net := rest } node = true := hu
  simp only [cairnArrivalAt, Samples.inFlight_head hn, Samples.recv_head hn, hu', hp, Bool.not_true, Bool.false_eq_true, if_false, if_true]

section
variable (hp : node ∉ s.cairn.passed)
include hp

theorem cairnArrivalAt_first :
    cairnArrivalAt node edges s =
      match partOfNode node with
      | some q =>
        if mayHalt (cairnPassed node { s with net := rest }) q && decide ((cairnPassed node { s with net := rest }).cairn.state ≠ 4) then
          haltPart q edges (modW q (fun w => { w with cairnAt := w.timer }) (cairnPassed node { s with net := rest }))
        else if q ∈ (cairnPassed node { s with net := rest }).cairn.haltedOnce then cairnPassed node { s with net := rest }
        else cutCheck (modCairn (fun c => { c with outside := insertOnce c.outside q })
          (modW q (fun w => { w with cairnAt := w.timer }) (cairnPassed node { s with net := rest })))
      | none => match hubOfNode node with
        | some h => trigHub raise 3 0 h (cairnPassed node { s with net := rest })
        | none => cairnPassed node { s with net := rest } := by
  have hu' : nodeUp { s with net := rest } node = true := hu
  simp only [cairnArrivalAt, Samples.inFlight_head hn, Samples.recv_head hn, hu', hp, Bool.not_true, Bool.false_eq_true, if_false, cairnPassed] <;> rfl

theorem cairnArrivalAt_warden {q : Nat} (hq : partOfNode node = some q) :
    cairnArrivalAt node edges s =
      if mayHalt (cairnPassed node { s with net := rest }) q && decide ((cairnPassed node { s with net := rest }).cairn.state ≠ 4) then
        haltPart q edges (modW q (fun w => { w with cairnAt := w.timer }) (cairnPassed node { s with net := rest }))
      else if q ∈ (cairnPassed node { s with net := rest }).cairn.haltedOnce then cairnPassed node { s with net := rest }
      else cutCheck (modCairn (fun c => { c with outside := insertOnce c.outside q })
        (modW q (fun w => { w with cairnAt := w.timer }) (cairnPassed node { s with net := rest }))) := by
  rw [cairnArrivalAt_first hn hu hp, hq]

theorem cairnArrivalAt_hub {h : HubId} (hq : partOfNode node = none) (hh : hubOfNode node = some h) :
    cairnArrivalAt node edges s = trigHub raise 3 0 h (cairnPassed node { s with net := rest }) := by
  rw [cairnArrivalAt_first hn hu hp, hq, hh]

theorem cairnArrivalAt_bare (hq : partOfNode node = none) (hh : hubOfNode node = none) :
    cairnArrivalAt node edges s = cairnPassed node { s with net := rest } := by
  rw [cairnArrivalAt_first hn hu hp, hq, hh]

end

end

end

/-! ### The halt report, the cut, the scan-out and the resume order -/

section
variable {s : State} {p : Nat} {rest : List Msg}

theorem haltReportAt_head {t : Nat} (hs : (serving s).isSome = true) (hn : s.net = .halted p t :: rest) :
    haltReportAt p s = cutCheck (modCairn (fun c =>
      { c with stamps := tset c.stamps p t, halted := if c.state = 1 then insertOnce c.halted p else c.halted }) { s with net := rest }) := by
  rw [haltReportAt, Sentry.takeMsg_head (a := t) hn (if_pos rfl), Arrivals.serving_not_none hs]
  rfl

theorem resumeOrderAt_halted (hn : s.net = .resume p :: rest) (ha : (war s p).alive = true) (hh : (war s p).halt.isSome = true) :
    resumeOrderAt p s = resumeCheck (passFurther (nodeOfPart p) (drive (.pcs p false)
      (modW p (fun w => { w with halt := none, haltReq := false, haltPcs := [], haltCaps := [] })
        (creditHalt p (freeRead { s with net := rest }).1.toNat (freeRead { s with net := rest }).2)))) := by
  have ha' : (war { s with net := rest } p).alive = true := ha
  have hh' : (war { s with net := rest } p).halt.isNone = false := by rw [← Option.not_isSome]; exact congrArg not hh
  simp only [resumeOrderAt, Samples.inFlight_head hn, Samples.recv_head hn, ha', hh', Bool.not_true, Bool.or_self, Bool.false_eq_true, if_false]

end

/-- What a hub counts and notes of a request's records. -/
def scanNoted (h : HubId) (q : Nat) (recs : List (List Byte)) (s : State) (c : Cairn) : Cairn :=
  let c1 := if isB h then { c with scanB := c.scanB + recs.length, scanBytesB := c.scanBytesB + (recs.map List.length).sum }
            else { c with scanA := c.scanA + recs.length, scanBytesA := c.scanBytesA + (recs.map List.length).sum }
  let c2 := match recs.getLast? with | some r => { c1 with lastCls := tset c1.lastCls q (fieldAt r 0 1) } | none => c1
  let c3 := { c2 with left := tset c2.left q ((scanLeft s q recs).getD 0) }
  if scanLeft s q recs = some 0 then { c3 with scanned := c3.scanned ++ [q] } else c3

section
variable {s : State} {h : HubId} {q : Nat} {more : List Nat} {recs : List (List Byte)} (ht : toScan s h = q :: more)
include ht

theorem scanoutPullAt_wrong (hk : scanOk s q recs = false) : scanoutPullAt h recs s = s := by
  simp only [scanoutPullAt, ht, hk, or_true, if_true]

theorem scanoutPullAt_taken (h3 : s.cairn.state = 3) (hk : scanOk s q recs = true) :
    scanoutPullAt h recs s = askScan h (scanCheck h (modCairn (scanNoted h q recs s)
      (modTrace h (fun b => { b with scan := b.scan ++ recs }) (askScan h s)))) := by
  simp only [scanoutPullAt, ht, h3, hk, ne_eq, not_true_eq_false, Bool.true_eq_false, or_self, if_false]
  rfl

end

/-- Settles O59: the answer of each row in the cases the statement names, by the lemmas above. -/
theorem observationEvents : Obligations.ObservationEvents := by
  intro p g node edges delta h rec recs s rest u
  refine ⟨fun hp => ⟨fun hg hk => ?_, fun hg hk => ?_, fun ht hr hh hw => ?_, fun hg hh hb => ?_, fun n hg hh ho => ⟨?_, ?_⟩⟩, fun hn hu => ?_,
    fun hn hu hp => ?_, fun hn hu hp => ⟨fun q hq => ?_, fun hq hh => ?_, fun hq hh => ?_⟩, fun t hs hn => ?_, fun h1 => ?_,
    fun q more ht h3 => ⟨fun hk => ?_, fun hk => ?_⟩, fun hn ha hh => ?_, fun hr hg => ?_⟩
  · exact congrArg (nextOf s) (counterTapAt_counted hp hg hk)
  · exact congrArg (nextOf s) (counterTapAt_bad hp hg hk)
  · exact congrArg (nextOf s) (pcsPulseAt_due hp ht hr hh hw)
  · exact congrArg (nextOf s) (pcSampleAt_halted hp hg hh hb)
  · exact congrArg (nextOf s) (pcSampleAt_owed hp ho hg hh)
  · exact congrArg (nextOf s) (pcsTimeoutAt_owed hp ho)
  · exact congrArg (nextOf s) (cairnArrivalAt_nodeOut hn hu)
  · exact congrArg (nextOf s) (cairnArrivalAt_further hn hu hp)
  · exact congrArg (nextOf s) (cairnArrivalAt_warden hn hu hp hq)
  · exact congrArg (nextOf s) (cairnArrivalAt_hub hn hu hp hq hh)
  · exact congrArg (nextOf s) (cairnArrivalAt_bare hn hu hp hq hh)
  · exact congrArg (nextOf s) (haltReportAt_head hs hn)
  · exact congrArg (nextOf s) (if_pos h1)
  · exact congrArg (nextOf s) (scanoutPullAt_wrong ht hk)
  · exact congrArg (nextOf s) (scanoutPullAt_taken ht h3 hk)
  · exact congrArg (nextOf s) (resumeOrderAt_halted hn ha hh)
  · exact congrArg (nextOf s) (if_pos (Bool.and_eq_true_iff.2 ⟨hr, hg⟩))

end Sys2Proof.Proofs.Observation
end

section
/-! PROOFS. Trace and Strata (R375 to R384, R397, R400, R401, R408, R473). -/

namespace Sys2Proof.Proofs.Traces
open Sys2Proof Sys2Proof.Machine

/-! ### Records on their way to a hub -/

section
variable {s : State} {p i : Nat} {h : HubId}

theorem ccTraceAt_on {rec : BitVec 64} (hp : hearsPart s p = true) (ht : traceOn s p 1 = true) (hi : i < 4) (hc : (war s p).ccOn.getLsbD i = true) :
    ccTraceAt p i rec s = stage p { cls := 0x11, len := 2, src := p + 128 * i, wt := wtOf s p, body := [rec] } s := by
  simp only [ccTraceAt, hp, ht, hi, hc, decide_true, Bool.and_self, if_true]

theorem traceRecordAt_oldest {r : TRec} {more : List TRec} (hr : (war s p).staging = r :: more) (hd : drainHub s p = some h)
    (ha : (war s p).alive = true) :
    traceRecordAt h p s = exceptionTrigger r (bufArrive h r (noteLoss h r
      (modW p (fun w => { w with staging := more, stagOcc := w.stagOcc - 8 * r.len }) s))) := by
  simp only [traceRecordAt, hr, hd, ha, and_self, if_true]

theorem veinDropAt_single {node n w : Nat} (hv : (tget {} s.vein.nodes node).drops = [(p, n, w)]) (hd : drainHub s p = some h) :
    veinDropAt node s = hubLoss h { part := p, cls := 0, cause := 2, node, recs := n, words := w / 8, wt := hubWt s h }
      { s with vein := { s.vein with nodes := tmod {} s.vein.nodes node (fun v => { v with drops := tdel v.drops p }) } } := by
  simp only [veinDropAt, hv, forEach, List.foldl_cons, List.foldl_nil, hd]

end

/-! ### A hub's trace buffer, its lanes and its losses -/

section
variable {s : State} {h : HubId}

theorem traceDrainedAt_held (h4 : (traceOf s h).state = 4) (hr : (traceOf s h).recs = []) :
    traceDrainedAt h s =
      raise (ev evTraceDone [(1, hubNum h), (4, (traceOf s h).refused), (4, (traceOf s h).trigIgn), (1, if (traceOf s h).auto then 2 else 0)])
        (irqBit h 13 (modTrace h (fun b => { b with
          state := if (traceOf s h).auto then 2 else 0
          scan := b.scan ++ [trecBytes { cls := 4, len := 3, src := hubPart h, wt := hubWt s h
                                         body := [w64 (traceOf s h).refused, w64 (traceOf s h).trigIgn] }]
          admitted := 0, refused := 0, trigIgn := 0, occ := 0 }) s)) :=
  if_neg (not_or.2 ⟨Classical.not_not.2 h4, Classical.not_not.2 hr⟩)

theorem timepairAt_on (h0 : (traceOf s h).state ≠ 0) (hl : (hubOf s h).refLost = false) :
    timepairAt h s = forEach ((drained s h).filter (fun p => (war s p).alive)) (fun p s =>
      bufArrive h { cls := 2, len := 3, src := p, wt := hubWt s h, body := [w64 (war s p).timer, w64 (hubOf s h).time] } s) s :=
  if_neg (not_or.2 ⟨h0, by rw [hl]; exact Bool.false_ne_true⟩)

/-- A change of a hub's trace buffer counts by what it does to the buffer as it stands. -/
theorem modTrace_congr {f g : TraceBuf → TraceBuf} (hf : f (traceOf s h) = g (traceOf s h)) : modTrace h f s = modTrace h g s := by
  cases h <;> exact congrArg (fun b => modTrace _ (fun _ => b) s) hf

section
variable {lane : Nat} (hr : (hubOf s h).role ≠ .down) (hrst : (hubOf s h).rstLow = false) (hl : (hubOf s h).refLost = false)
  (hu : laneUp s h lane = true)
include hr hrst hl hu

theorem frameSentAt_up :
    frameSentAt h lane s =
      if 1023 ≤ tget 0 (traceOf s h).sinceAlign lane then
        sendFrame h lane (frameBytes h lane 2 ((traceOf s h).seq + 1).toNat
            (leBytes 8 (hubOf s h).time ++ leBytes 8 (hubOf s h).keyId.toNat ++ leBytes 1 (lanesMask s h)))
          (modTrace h (fun b => { b with seq := (traceOf s h).seq + 1, sinceAlign := tput 0 (traceOf s h).sinceAlign lane 0 }) s)
      else if (traceOf s h).scan = [] ∧ drainable (traceOf s h) = [] then
        sendFrame h lane (frameBytes h lane 0 (traceOf s h).seq.toNat [])
          (modTrace h (fun b => { b with sinceAlign := tadd (traceOf s h).sinceAlign lane 1 }) s)
      else sendData h lane s := by
  simp only [frameSentAt, hr, hrst, hl, hu, Bool.not_true, Bool.false_eq_true, or_self, if_false]
  rw [modTrace_congr (s := s) (h := h) (f := fun b => { b with seq := b.seq + 1, sinceAlign := tput 0 b.sinceAlign lane 0 })
      (g := fun b => { b with seq := (traceOf s h).seq + 1, sinceAlign := tput 0 (traceOf s h).sinceAlign lane 0 }) rfl,
    modTrace_congr (s := s) (h := h) (f := fun b => { b with sinceAlign := tadd b.sinceAlign lane 1 })
      (g := fun b => { b with sinceAlign := tadd (traceOf s h).sinceAlign lane 1 }) rfl]

end

theorem lossTickAt_warden {p : Nat} (hp : p < 98) (hh : (war s p).halt = none) :
    lossTickAt p s = forEach (war s p).losses (fun l s => stage p (lossRec l (wtOf s p)) s) (modW p (fun w => { w with losses := [] }) s) := by
  simp only [lossTickAt, hp, hh, Option.isSome_none, Bool.false_eq_true, if_false, if_true]

theorem lossTickAt_hub (h0 : (traceOf s h).state ≠ 0) (h4 : (traceOf s h).state ≠ 4) :
    lossTickAt (98 + hubNum h) s =
      lossEvent h (forEach (traceOf s h).losses (sendLoss h) (modTrace h (fun b => { b with losses := [] }) s)) := by
  have hn : ¬ ((traceOf s h).state = 0 ∨ (traceOf s h).state = 4) := not_or.2 ⟨h0, h4⟩
  cases h with
  | a => exact if_neg hn
  | b => exact if_neg hn

end

/-! ### Strata's intake of a warden's events -/

section
variable {s : State} {p num : Nat}

theorem eventRecordAt_found {e : Ev} (hs : (serving s).isSome = true) (ha : (war s p).alive = true)
    (hf : (war s p).evs.find? (fun x => x.1 = num) = some (num, e)) :
    eventRecordAt p num s = mirWrite (.event p num) (takeEvent p num e s) := by
  simp only [eventRecordAt, Arrivals.serving_not_none hs, ha, hf, Bool.false_eq_true, if_false, if_true]

theorem takeEvent_inTurn (e : Ev) (hn : nextEvent s p = num) :
    takeEvent p num e s = drainHeld p (tget [] (ingestTurn p num e s).strata.early p).length (ingestTurn p num e s) :=
  if_pos (by rw [aheadOf, hn, Nat.add_sub_cancel_left])

theorem eventAckAt_head {rest : List Msg} (hn : s.net = .evAck p num :: rest) :
    eventAckAt p num s = modW p (fun w => { w with evs := w.evs.filter (fun x => x.1 ≠ num) }) { s with net := rest } := by
  rw [eventAckAt, if_pos (Samples.inFlight_head hn), Samples.recv_head hn]

/-- A gap that was told of leaves the warden's count of lost events at 0. -/
theorem evLost_wardenGapAt {x : Nat × Ev} (hx : firstHeld s p = some x) (hs : (serving s).isSome = true) :
    (war (wardenGapAt p s) p).evLost = 0 := by
  simp only [wardenGapAt, hx, Arrivals.serving_not_none hs, Bool.false_eq_true, if_false, war_raise, war_modW]

end

/-! ### Time -/

section
variable {s : State} {h : HubId}

theorem timeCompareAt_secondary (hs : serving s = some h) (hr : (hubOf s (other h)).role = .secondary)
    (hl : (hubOf s (other h)).refLost = false) : timeCompareAt s = followTime (other h) s := by
  simp only [timeCompareAt, hs, hr, hl, Bool.not_false, and_self, if_true]

/-- A hub whose time is not ahead takes the other's. -/
theorem time_followTime (ht : (hubOf s (other h)).time ≤ (hubOf s h).time) : (hubOf (followTime (other h) s) (other h)).time = (hubOf s h).time := by
  rw [followTime, other_other]
  simp only [ht, if_true, hubOf_modHub]

end

/-- Settles O60: the answer of each row in the cases the statement names, by the lemmas above. -/
theorem traceAndStrataEvents : Obligations.TraceAndStrataEvents := by
  intro p i lane num node h rec s rest u
  refine ⟨fun hp ht hi hc => ?_, fun r more hr hd ha => ?_, fun h4 hr => ?_, fun h0 hl => ?_, fun n w hv hd => ?_, fun hr hrst hl hu =>
      ⟨fun ha => ?_, fun ha hs hd => ?_, fun ha hd => ?_⟩, fun hp hh => ?_, fun h0 h4 => ?_, fun e hs ha hf => ?_, fun e _ hn => ?_, fun hn => ?_,
    fun x hx hs => ⟨_, rfl, ?_⟩, fun hc _ => ?_, fun hc => ⟨?_, ?_, fun n => ?_, fun q tid e => ?_⟩, fun hs hr hl => ⟨?_, fun ht => ?_⟩⟩
  · exact congrArg (nextOf s) (ccTraceAt_on hp ht hi hc)
  · exact congrArg (nextOf s) (traceRecordAt_oldest hr hd ha)
  · exact congrArg (nextOf s) (traceDrainedAt_held h4 hr)
  · exact congrArg (nextOf s) (timepairAt_on h0 hl)
  · exact congrArg (nextOf s) (veinDropAt_single hv hd)
  · exact congrArg (nextOf s) ((frameSentAt_up hr hrst hl hu).trans (if_pos ha))
  · exact congrArg (nextOf s) ((frameSentAt_up hr hrst hl hu).trans ((if_neg (Nat.not_le.2 ha)).trans (if_pos ⟨hs, hd⟩)))
  · refine congrArg (nextOf s) ((frameSentAt_up hr hrst hl hu).trans ((if_neg (Nat.not_le.2 ha)).trans (if_neg fun hn => ?_)))
    exact hd.elim (fun h => h hn.1) (fun h => h hn.2)
  · exact congrArg (nextOf s) (lossTickAt_warden hp hh)
  · exact congrArg (nextOf s) (lossTickAt_hub h0 h4)
  · exact congrArg (nextOf s) (eventRecordAt_found hs ha hf)
  · exact takeEvent_inTurn e hn
  · exact congrArg (nextOf s) (eventAckAt_head hn)
  · rw [war_ended]
    exact evLost_wardenGapAt hx hs
  · exact congrArg (nextOf s) (if_pos hc)
  · exact congrArg (nextOf s) (if_neg (by simp [hc]))
  · exact congrArg (nextOf s) (if_neg (by simp [hc]))
  · exact congrArg (nextOf s) (if_neg (by simp [hc]))
  · exact congrArg (nextOf s) (if_pos hc)
  · exact congrArg (nextOf s) (timeCompareAt_secondary hs hr hl)
  · exact time_followTime ht

end Sys2Proof.Proofs.Traces
end

section
/-! PROOFS. The tick on an empty queue (R21, R40, R67, R124, R396, R397, R472; log entries 2, 124, 135 and 162). -/

namespace Sys2Proof.Proofs.Ticks
open Sys2Proof Sys2Proof.Machine

/-! ### What is settled stays settled -/

/-- What a hub's role, quorum and power warning are judged by. -/
def hubStanding (x : Hub) : Role × Tab Nat × Bool := (x.role, x.leases, x.pwr.warn)

/-- What the quorum, and the work that may begin, are judged by. -/
def standing (s : State) : (Role × Tab Nat × Bool) × (Role × Tab Nat × Bool) × Defects × Boot × Sync :=
  (hubStanding s.hubA, hubStanding s.hubB, s.defects, s.boot, s.sync)

section
variable {s t : State} (h : standing s = standing t)
include h

theorem hubStanding_of_standing (k : HubId) : hubStanding (hubOf s k) = hubStanding (hubOf t k) := by
  cases k
  · exact congrArg (·.1) h
  · exact congrArg (·.2.1) h

theorem serving_of_standing : serving s = serving t := by
  have hA : s.hubA.role = t.hubA.role := congrArg (·.1.1) h
  have hB : s.hubB.role = t.hubB.role := congrArg (·.2.1.1) h
  rw [serving, serving, isServing, isServing, isServing, isServing, hA, hB]

theorem hasQuorum_of_standing (k : HubId) : hasQuorum s k = hasQuorum t k := by
  have hl : (hubOf s k).leases = (hubOf t k).leases := congrArg (·.2.1) (hubStanding_of_standing h k)
  have hd : s.defects = t.defects := congrArg (·.2.2.1) h
  have hn : notRetired s = notRetired t := by
    unfold notRetired defState? defFind
    rw [hd]
  rw [hasQuorum, hasQuorum, leased, leased, hl, hn]

theorem mayBegin_of_standing : mayBegin s = mayBegin t := by
  have hA : s.hubA.pwr.warn = t.hubA.pwr.warn := congrArg (·.1.2.2) h
  have hB : s.hubB.pwr.warn = t.hubB.pwr.warn := congrArg (·.2.1.2.2) h
  have hb : s.boot = t.boot := congrArg (·.2.2.2.1) h
  have hq : hasQuorum s = hasQuorum t := funext (hasQuorum_of_standing h)
  simp only [mayBegin, powerWarn, serving_of_standing h, hA, hB, hb, hq]

theorem settled_of_standing : settled s = settled t := by
  have hs : s.sync = t.sync := congrArg (·.2.2.2.2) h
  have hq : hasQuorum s = hasQuorum t := funext (hasQuorum_of_standing h)
  simp only [settled, serving_of_standing h, hq, mayBegin_of_standing h, hs]

end

section
variable {s : State} (hs : settled s = true)
include hs

theorem quorumCheck_of_settled : quorumCheck s = s := by
  have hq := (Bool.and_eq_true_iff.1 hs).1
  unfold quorumCheck
  split
  next h hk => rw [hk] at hq; exact if_pos hq
  next => rfl

theorem settleDue_of_settled (perform : State → State) : settleDue perform s = s := by
  have hd := (Bool.and_eq_true_iff.1 hs).2
  unfold settleDue
  split
  next hm =>
    have hn : s.sync.due = [] := by simpa [hm] using hd
    rw [hn]
    show { s with sync := { s.sync with due := [] } } = s
    rw [← hn]
  next => rfl

end

/-! ### The edges of a tick, and the read responses that go -/

/-- A hub whose oldest read response goes where its port's ready input is 1. -/
def readTaken (x : Hub) : Hub := { x with reads := if x.rready then x.reads.tail else x.reads }

/-- A hub after its edge and the read response that it lets go. -/
def readEdge (free : Nat) (x : Hub) : Hub := readTaken (portEdge free x)

/-- The read response that a hub's ready input lets go. -/
def readGone (h : HubId) (x : Hub) : List Out := if x.rready then (x.reads.take 1).map (fun r => .read h r.1 r.2.1 r.2.2) else []

/-- The state after the edges of a tick and its read responses. -/
def ticked (s : State) : State :=
  { s with
    hubA := readEdge (s.free + 98) s.hubA
    hubB := readEdge (s.free + 99) s.hubB
    wardens := s.wardens.map (fun e => (e.1, wardenEdge s.free e.1 e.2))
    free := s.free + 100
    outs := readGone .b (portEdge (s.free + 99) s.hubB) ++ readGone .a (portEdge (s.free + 98) s.hubA) ++ s.outs }

/-- The free value that a port's ready input has. -/
def readyAt (s : State) (h : HubId) : Nat := s.free + if h = .a then 98 else 99

theorem readTaken_stays {x : Hub} (h : x.reads = [] ∨ x.rready = false) : readTaken x = x := by
  have hx : (if x.rready then x.reads.tail else x.reads) = x.reads := by
    cases h with
    | inl h => rw [h, List.tail_nil, ite_self]
    | inr h => rw [h]; rfl
  rw [readTaken, hx]

theorem readGone_stays (h : HubId) {x : Hub} (hx : x.reads = [] ∨ x.rready = false) : readGone h x = [] := by
  cases hx with
  | inl hx => rw [readGone, hx, List.take_nil, List.map_nil, ite_self]
  | inr hx => rw [readGone, hx]; rfl

theorem withHub_hubOf (h : HubId) (s : State) : withHub h (hubOf s h) s = s := by cases h <;> rfl

theorem takeRead_stays {h : HubId} {s : State} (hx : (hubOf s h).reads = [] ∨ (hubOf s h).rready = false) : takeRead h s = s := by
  unfold takeRead
  split
  · rfl
  next r rest hr => exact if_neg (by simp [hx.resolve_left (by simp [hr])])

theorem takeRead_eq (h : HubId) (s : State) :
    takeRead h s = { withHub h (readTaken (hubOf s h)) s with outs := readGone h (hubOf s h) ++ s.outs } := by
  by_cases hx : (hubOf s h).reads = [] ∨ (hubOf s h).rready = false
  · rw [takeRead_stays hx, readTaken_stays hx, readGone_stays h hx, withHub_hubOf, List.nil_append]
  · obtain ⟨hr, hy⟩ := not_or.1 hx
    obtain ⟨r, rest, hr⟩ := List.exists_cons_of_ne_nil hr
    have hy := Bool.of_not_eq_false hy
    cases h <;> simp [takeRead, readTaken, readGone, hr, hy, modHub, withHub, drive]

theorem reads_portEdge (free : Nat) (x : Hub) : (portEdge free x).reads = x.reads := by
  simp only [portEdge, hubEdge]
  split
  · rfl
  · split <;> rfl

theorem reads_readEdge (free : Nat) (x : Hub) : (readEdge free x).reads = if (readEdge free x).rready then x.reads.tail else x.reads := by
  rw [readEdge, readTaken, reads_portEdge]

theorem takeReads_tickEdges (s : State) : takeRead .b (takeRead .a (tickEdges s)) = ticked s := by
  rw [takeRead_eq, takeRead_eq, ticked, List.append_assoc]
  rfl

/-! ### Hubs and wardens after the edges -/

theorem hubOf_ticked (s : State) (h : HubId) : hubOf (ticked s) h = readEdge (readyAt s h) (hubOf s h) := by cases h <;> rfl

theorem tget_map_keyed {α : Type} (d : α) (f : Nat → α → α) (t : Tab α) (k : Nat) (hd : f k d = d) :
    tget d (t.map (fun e => (e.1, f e.1 e.2))) k = f k (tget d t k) := by
  induction t with
  | nil => exact hd.symm
  | cons e t ih =>
    obtain ⟨j, v⟩ := e
    by_cases hj : j = k
    · simp [tget, tfind, hj]
    · simpa [tget, tfind, hj] using ih

theorem war_ticked (s : State) (p : Nat) : war (ticked s) p = wardenEdge s.free p (war s p) :=
  tget_map_keyed ({} : Warden) (wardenEdge s.free) s.wardens p rfl

theorem hubStanding_readEdge (free : Nat) (x : Hub) : hubStanding (readEdge free x) = hubStanding x := by
  simp only [readEdge, readTaken, portEdge, hubEdge]
  split
  · rfl
  · split <;> rfl

theorem standing_ticked (s : State) : standing (ticked s) = standing s := by
  simp only [standing, ticked, hubStanding_readEdge]

theorem shdQ_wardenEdge (free p : Nat) (w : Warden) : (wardenEdge free p w).shdQ = w.shdQ := by
  unfold wardenEdge
  split <;> rfl

theorem patNext_wardenEdge (free p : Nat) (w : Warden) : (wardenEdge free p w).patNext = w.patNext := by
  unfold wardenEdge
  split <;> rfl

theorem waitingWardens_ticked (s : State) : waitingWardens (ticked s) = waitingWardens s := by
  simp only [waitingWardens, ticked, List.filter_map, List.map_map, Function.comp_def, shdQ_wardenEdge, patNext_wardenEdge]

theorem tick_eq (s : State) : tick s = ended s (settleDue performHeld (quorumCheck (forEach (waitingWardens s) pumpAll (ticked s)))) := by
  rw [tick]
  simp only [takeReads_tickEdges, waitingWardens_ticked]

/-- A tick after which all is settled ends with what its wardens let go. -/
theorem tick_of_settled {s : State} (h : settled (forEach (waitingWardens s) pumpAll (ticked s)) = true) :
    tick s = ended s (forEach (waitingWardens s) pumpAll (ticked s)) := by
  rw [tick_eq, quorumCheck_of_settled h, settleDue_of_settled h]

/-! ### What an edge does to a hub -/

section
variable (free : Nat) (x : Hub)

theorem time_readEdge_lost (hl : x.refLost = true) : (readEdge free x).time = x.time ∧ (readEdge free x).slowAdj = x.slowAdj := by
  simp only [readEdge, readTaken, portEdge, hubEdge, hl, if_true, and_self]

theorem time_readEdge_even (hl : x.refLost = false) (h0 : x.slowAdj = 0) (ht : x.time < 2 ^ 64 - 10) : (readEdge free x).time = x.time + 10 := by
  simp only [readEdge, readTaken, portEdge, hubEdge, hl, h0, Bool.false_eq_true, if_false, if_true]
  omega

theorem time_readEdge_slow (hl : x.refLost = false) (h0 : 0 < x.slowAdj) (ht : x.time < 2 ^ 64 - 10) :
    (readEdge free x).time = x.time + 5 ∧ (readEdge free x).slowAdj = x.slowAdj - 1 := by
  simp only [readEdge, readTaken, portEdge, hubEdge, hl, Nat.ne_of_gt h0, Bool.false_eq_true, if_false, and_true]
  omega

/-- An edge changes a hub's time, its slowing, its reads and its port's ready input alone. -/
theorem pins_readEdge :
    { pinsOf (readEdge free x) with time := 0, slowAdj := 0 } =
      { pinsOf { x with reads := (readEdge free x).reads, rready := (readEdge free x).rready } with time := 0, slowAdj := 0 } := by
  simp only [readEdge, readTaken, portEdge, hubEdge]
  split
  · rfl
  · split <;> rfl

end

/-! ### The transfers that a group's ready lets go -/

section
variable {w : Warden} (g : Nat) (hn : w.patNext = none)
include hn

theorem beatDue_none : beatDue w g = none := by
  unfold beatDue
  split
  next h => rw [hn] at h; cases h
  next => rfl

theorem nextDisp_empty (hq : dispQueue w g = []) : nextDisp w g = none := by
  rw [nextDisp, hq, beatDue_none g hn]

theorem nextDisp_head {d : Disp} {r : List Disp} (hq : dispQueue w g = d :: r) : nextDisp w g = some d := by
  rw [nextDisp, hq, beatDue_none g hn]

end

/-- Dispatch queues where one group alone has transfers. -/
def groupQueue (g : Nat) (l : List Disp) : Tab (List Disp) := tput [] [] g l

theorem groupQueue_nil (g : Nat) : groupQueue g [] = [] := rfl

theorem groupQueue_of_ne (g : Nat) {l : List Disp} (hl : l ≠ []) : groupQueue g l = [(g, l)] := if_neg hl

theorem tget_groupQueue (g : Nat) (l : List Disp) (k : Nat) : tget [] (groupQueue g l) k = if k = g then l else [] := by
  by_cases hl : l = []
  · rw [hl, ite_self]
    rfl
  · by_cases hk : k = g
    · simp [groupQueue_of_ne g hl, tget, tfind, hk]
    · simp [groupQueue_of_ne g hl, tget, tfind, hk, Ne.symm hk]

theorem tput_groupQueue (g : Nat) (l r : List Disp) : tput [] (groupQueue g l) g r = groupQueue g r := by
  by_cases hl : l = []
  · rw [hl]
    rfl
  · simp [groupQueue, tput, hl, tdel, tset]

/-- The order that puts a transfer on its channel. -/
def dispOut (p g : Nat) (d : Disp) : Out := .disp p g d.kind d.dst d.tile

/-- What is left once a group's transfers have gone: its queues are empty, no pattern is under way, what the quorum is judged by is as before, and the
transfers are on their channel, in their order. -/
structure Pumped (p g : Nat) (l : List Disp) (s t : State) : Prop where
  queue : (war t p).shdQ = []
  pattern : (war t p).patNext = none
  standing_eq : standing t = standing s
  outs : t.outs = (l.map (dispOut p g)).reverse ++ s.outs

section
variable {s : State} {p : Nat} (hn : (war s p).patNext = none)
include hn

theorem pumpN_stays (g : Nat) (hq : dispQueue (war s p) g = []) (n : Nat) : pumpN p g n s = s := by
  cases n with
  | zero => rfl
  | succ n => rw [pumpN, nextDisp_empty g hn hq]

theorem pumpGroup_stays (g : Nat) (h : dispQueue (war s p) g = [] ∨ (war s p).shdReady.getLsbD g = false) : pumpGroup p g s = s := by
  by_cases hr : (war s p).shdReady.getLsbD g = true
  · have hq := h.resolve_right (by rw [hr]; exact Bool.noConfusion)
    simp only [pumpGroup, hr, if_true, pumpN_stays hn g hq, Droops.beatsDone_none hn]
  · simp only [pumpGroup, hr, if_false, Bool.false_eq_true]

end

theorem war_transfer {p g : Nat} {d : Disp} {r : List Disp} {s : State} (hd : d.kind ≠ 1) (hq : (war s p).shdQ = groupQueue g (d :: r)) :
    (war (transfer p g d s) p).shdQ = groupQueue g r ∧ (war (transfer p g d s) p).patNext = (war s p).patNext := by
  rw [transfer, Sentry.war_drive, war_modW]
  simp only [hd, if_false, dispQueue, hq, tget_groupQueue, if_true, List.drop_succ_cons, List.drop_zero, tput_groupQueue, and_self]

theorem pumped_pumpN {p g : Nat} {l : List Disp} (hk : ∀ d ∈ l, d.kind ≠ 1) (n : Nat) (hl : l.length ≤ n) (s : State)
    (hq : (war s p).shdQ = groupQueue g l) (hn : (war s p).patNext = none) : Pumped p g l s (pumpN p g n s) := by
  induction l generalizing n s with
  | nil =>
    rw [pumpN_stays hn g (by rw [dispQueue, hq]; rfl) n]
    exact ⟨hq, hn, rfl, rfl⟩
  | cons d r ih =>
    obtain ⟨hd, hr⟩ := List.forall_mem_cons.1 hk
    cases n with
    | zero => exact absurd hl (Nat.not_succ_le_zero _)
    | succ n =>
      obtain ⟨hq', hn'⟩ := war_transfer hd hq
      obtain ⟨h1, h2, h3, h4⟩ := ih hr n (Nat.le_of_succ_le_succ hl) (transfer p g d s) hq' (hn'.trans hn)
      rw [pumpN, nextDisp_head g hn (r := r) (by rw [dispQueue, hq, tget_groupQueue, if_pos rfl])]
      refine ⟨h1, h2, h3, h4.trans ?_⟩
      rw [List.map_cons, List.reverse_cons, List.append_assoc]
      rfl

theorem pumped_pumpGroup {p g : Nat} {l : List Disp} {s : State} (hk : ∀ d ∈ l, d.kind ≠ 1) (hq : (war s p).shdQ = groupQueue g l)
    (hn : (war s p).patNext = none) (hr : (war s p).shdReady.getLsbD g = true) : Pumped p g l s (pumpGroup p g s) := by
  have h := pumped_pumpN hk (l.length + patBeats (war s p)) (Nat.le_add_right ..) s hq hn
  have hd : dispQueue (war s p) g = l := by rw [dispQueue, hq, tget_groupQueue, if_pos rfl]
  simp only [pumpGroup, hr, if_true, hd]
  rw [Droops.beatsDone_none h.pattern]
  exact h

/-! ### All groups of a warden -/

theorem forEach_stays {σ α : Type} {l : List α} {f : α → σ → σ} {s : σ} (h : ∀ a ∈ l, f a s = s) : forEach l f s = s := by
  induction l with
  | nil => rfl
  | cons a l ih =>
    obtain ⟨ha, hl⟩ := List.forall_mem_cons.1 h
    rw [forEach, List.foldl_cons, ha]
    exact ih hl

section
variable {p g : Nat} {l : List Disp} {s : State} (hq : (war s p).shdQ = groupQueue g l) (hn : (war s p).patNext = none)
include hq hn

theorem pumpGroup_other {k : Nat} (hk : k ≠ g) : pumpGroup p k s = s :=
  pumpGroup_stays hn k (.inl (by rw [dispQueue, hq, tget_groupQueue, if_neg hk]))

/-- A group that is not ready keeps its transfers. -/
theorem pumpAll_notReady (hr : (war s p).shdReady.getLsbD g = false) : pumpAll p s = s := by
  refine forEach_stays fun k _ => ?_
  by_cases hk : k = g
  · exact pumpGroup_stays hn k (.inr (hk ▸ hr))
  · exact pumpGroup_other hq hn hk

/-- A group that is ready lets its transfers go, and the other groups change nothing. -/
theorem pumpAll_ready (hg : g < 20) (hk : ∀ d ∈ l, d.kind ≠ 1) (hr : (war s p).shdReady.getLsbD g = true) : Pumped p g l s (pumpAll p s) := by
  obtain ⟨before, after, hrange, hb⟩ := List.eq_append_cons_of_mem (List.mem_range.2 hg)
  have h := pumped_pumpGroup hk hq hn hr
  have hb' : forEach before (pumpGroup p) s = s := forEach_stays fun k hkb => pumpGroup_other hq hn (fun e => hb (e ▸ hkb))
  have ha' : forEach after (pumpGroup p) (pumpGroup p g s) = pumpGroup p g s :=
    forEach_stays fun k _ => pumpGroup_stays h.pattern k (.inl (by rw [dispQueue, h.queue]; rfl))
  have hall : pumpAll p s = pumpGroup p g s := by
    rw [forEach] at ha' hb'
    rw [pumpAll, forEach, hrange, List.foldl_append, hb', List.foldl_cons]
    exact ha'
  rw [hall]
  exact h

end

/-! ### The tick -/

section
variable {s : State} (hs : settled s = true)
include hs

/-- A tick in which no transfer waits. -/
theorem tick_nothingWaits (hw : waitingWardens s = []) : tick s = ended s (ticked s) := by
  have h := tick_of_settled (s := s)
  rw [hw] at h
  exact h ((settled_of_standing (standing_ticked s)).trans hs)

section
variable {p g : Nat} {l : List Disp} (hw : waitingWardens s = [p]) (hl : l ≠ []) (hq : (war s p).shdQ = [(g, l)])
  (hn : (war s p).patNext = none) (ha : (war s p).alive = true) (hg : g < 20)

omit hs in
include hl hq in
theorem shdQ_ticked : (war (ticked s) p).shdQ = groupQueue g l := by
  rw [war_ticked, shdQ_wardenEdge, hq, groupQueue_of_ne g hl]

omit hs in
include hn in
theorem patNext_ticked : (war (ticked s) p).patNext = none := by
  rw [war_ticked, patNext_wardenEdge, hn]

omit hs in
include ha hg in
theorem shdReady_ticked : (war (ticked s) p).shdReady.getLsbD g = (Config.freeValue (s.free + p)).getLsbD g := by
  simp only [war_ticked, wardenEdge, ha, if_true, BitVec.getLsbD_setWidth, hg, decide_true, Bool.true_and]

include hw in
theorem tick_pumped (h : standing (pumpAll p (ticked s)) = standing s) : tick s = ended s (pumpAll p (ticked s)) := by
  have ht := tick_of_settled (s := s)
  rw [hw] at ht
  exact ht ((settled_of_standing h).trans hs)

include hw hl hq hn ha hg

theorem tick_groupReady (hk : ∀ d ∈ l, d.kind ≠ 1) (hr : (Config.freeValue (s.free + p)).getLsbD g = true) :
    (war (tick s) p).shdQ = [] ∧ ∀ d ∈ l, Out.disp p g d.kind d.dst d.tile ∈ (tick s).outs := by
  obtain ⟨hqueue, -, hstand, houts⟩ :=
    pumpAll_ready (shdQ_ticked hl hq) (patNext_ticked hn) hg hk ((shdReady_ticked ha hg).trans hr)
  rw [tick_pumped hs hw (hstand.trans (standing_ticked s))]
  refine ⟨hqueue, fun d hd => ?_⟩
  show dispOut p g d ∈ (pumpAll p (ticked s)).outs
  rw [houts]
  exact List.mem_append_left _ (List.mem_reverse.2 (List.mem_map_of_mem hd))

theorem tick_groupNotReady (hr : (Config.freeValue (s.free + p)).getLsbD g = false) : (war (tick s) p).shdQ = [(g, l)] := by
  have h := pumpAll_notReady (shdQ_ticked hl hq) (patNext_ticked hn) ((shdReady_ticked ha hg).trans hr)
  rw [tick_pumped hs hw ((congrArg standing h).trans (standing_ticked s)), h, war_ended, shdQ_ticked hl hq, groupQueue_of_ne g hl]

end

end

/-! ### The obligation -/

section
variable (s : State) (h : HubId)

theorem hubOf_ended_ticked : hubOf (ended s (ticked s)) h = pinsOf (readEdge (readyAt s h) (hubOf s h)) := by
  rw [hubOf_ended, hubOf_ticked]

theorem war_ended_ticked (p : Nat) : war (ended s (ticked s)) p = wardenEdge s.free p (war s p) := by
  rw [war_ended, war_ticked]

theorem rready_readEdge (free : Nat) (x : Hub) : (readEdge free x).rready = (Config.freeValue free).getLsbD 0 := rfl

theorem readGone_portEdge (free : Nat) (x : Hub) :
    readGone h (portEdge free x) = if (readEdge free x).rready then (x.reads.take 1).map (fun r => .read h r.1 r.2.1 r.2.2) else [] := by
  rw [readGone, reads_portEdge]
  rfl

/-- A warden's edge changes its timer and its ready inputs alone. -/
theorem wardenEdge_rest (free p : Nat) (w : Warden) :
    { wardenEdge free p w with timer := 0, shdReady := 0 } = { w with timer := 0, shdReady := 0 } := by
  unfold wardenEdge
  split <;> rfl

theorem timer_wardenEdge (free p : Nat) (w : Warden) : (wardenEdge free p w).timer = if w.alive then w.timer + 1 else w.timer := by
  unfold wardenEdge
  split <;> rfl

end

/-- Settles O36: a tick from a settled state ends with its edges, and with the transfers that the one waiting group lets go. -/
theorem idleTick : Obligations.IdleTick := by
  intro s hp hs
  refine ⟨tick s, by rw [step, hp], fun hw => ?_, fun p g l hg hl hk hw hq hn ha => ⟨fun hr => ?_, fun hr => ?_⟩⟩
  · rw [tick_nothingWaits hs hw]
    simp only [hubOf_ended_ticked, war_ended_ticked]
    refine ⟨rfl, fun h hl h0 ht => ?_, fun h hl h0 ht => ?_, fun h hl => ?_, fun h => ⟨?_, ?_⟩, ?_, fun h => ?_, fun p => ?_, fun p ha => ?_, fun p => ?_⟩
    · exact time_readEdge_even (readyAt s h) _ hl h0 ht
    · exact time_readEdge_slow (readyAt s h) _ hl h0 ht
    · exact time_readEdge_lost (readyAt s h) _ hl
    · exact rready_readEdge (readyAt s h) (hubOf s h)
    · exact reads_readEdge (readyAt s h) _
    · show (ticked s).outs = _
      rw [ticked, readGone_portEdge, readGone_portEdge]
      rfl
    · exact pins_readEdge _ _
    · exact timer_wardenEdge _ _ _
    · rw [wardenEdge, if_pos ha]
    · exact wardenEdge_rest _ _ _
  · exact tick_groupReady hs hw hl hq hn ha hg hk hr
  · exact tick_groupNotReady hs hw hl hq hn ha hg hr

end Sys2Proof.Proofs.Ticks
end
